-- ==== Sys2Proof/Word.lean ====
section
/-!
DEFINITION. The words of the KH8 hub and their plainest arithmetic: registers are 32 bits (R468), flits and sectors
64 bytes (R52, R128), lines 256 bytes (R128), stack code words 72 bytes (R326).
-/
namespace Sys2Proof

/-- A register word (R468). -/
abbrev Word := BitVec 32
abbrev Byte := BitVec 8
/-- One 64-byte sector or data flit (R52, R128); byte i is bits [8i+7:8i]. -/
abbrev Sector := BitVec 512
/-- One 256-byte line (R128); sector k is bits [512k+511:512k]. -/
abbrev Line := BitVec 2048
/-- A stored code word: 64 data bytes then 8 check bytes (R326). -/
abbrev Code := BitVec 576
abbrev Addr := BitVec 64

/-- Bits [lo + n - 1 : lo] of a word, as a number. -/
def bitsNat {w : Nat} (x : BitVec w) (lo n : Nat) : Nat := (x.toNat >>> lo) % 2 ^ n

/-- Bit i of a word. -/
def bit {w : Nat} (x : BitVec w) (i : Nat) : Bool := x.getLsbD i

/-- A word with the n bits from lo replaced by v. -/
def putBits {w : Nat} (x : BitVec w) (lo n v : Nat) : BitVec w :=
  (x &&& ~~~(BitVec.ofNat w ((2 ^ n - 1) <<< lo))) ||| BitVec.ofNat w ((v % 2 ^ n) <<< lo)

/-- A word with bit i set to b. -/
def putBit {w : Nat} (x : BitVec w) (i : Nat) (b : Bool) : BitVec w := putBits x i 1 b.toNat

/-- Addition that stops at a limit (the saturating counters of every page). -/
def satAdd (limit a b : Nat) : Nat := min limit (a + b)

/-- Ceiling division. -/
def ceilDiv (a b : Nat) : Nat := (a + b - 1) / b

/-- Byte i of a word. -/
def byteAt {w : Nat} (x : BitVec w) (i : Nat) : Byte := x.extractLsb' (8 * i) 8

/-- Little-endian bytes as one number. -/
def leNat : List Byte → Nat
  | [] => 0
  | b :: bs => b.toNat + 256 * leNat bs

/-- The n little-endian bytes of a number. -/
def leBytes : Nat → Nat → List Byte
  | 0, _ => []
  | n + 1, v => BitVec.ofNat 8 v :: leBytes n (v / 256)

/-- The bytes of a word, in address order. -/
def bytesOf {w : Nat} (x : BitVec w) : List Byte := leBytes (w / 8) x.toNat

/-- Sector k of a line. -/
def Line.sector (l : Line) (k : Nat) : Sector := l.extractLsb' (512 * k) 512

/-- A line with sector k replaced. -/
def Line.putSector (l : Line) (k : Nat) (x : Sector) : Line := putBits l (512 * k) 512 x.toNat

/-- The bit mask of a byte mask: byte i of the result is all ones where bit i of the mask is 1. -/
def byteMask (n : Nat) (en : Nat) : Nat :=
  match n with
  | 0 => 0
  | n + 1 => (if en % 2 = 1 then 255 else 0) + 256 * byteMask n (en / 2)

/-- A line with the enabled bytes taken from new data (R58, R135). -/
def Line.merge (old : Line) (en : BitVec 256) (new : Line) : Line :=
  let m : Line := BitVec.ofNat 2048 (byteMask 256 en.toNat)
  (old &&& ~~~m) ||| (new &&& m)

/-- The sectors of a line that a byte mask covers wholly. -/
def fullSectors (en : BitVec 256) : BitVec 4 :=
  BitVec.ofNat 4 ((List.range 4).foldl (fun a k => a + (if bitsNat en (64 * k) 64 = 2 ^ 64 - 1 then 2 ^ k else 0)) 0)

/-- The sectors of a line that a byte mask touches (R163). -/
def touchedSectors (en : BitVec 256) : BitVec 4 :=
  BitVec.ofNat 4 ((List.range 4).foldl (fun a k => a + (if bitsNat en (64 * k) 64 ≠ 0 then 2 ^ k else 0)) 0)

end Sys2Proof
end

