-- ==== Sys2Proof/Syntax.lean ====
section
/-!
DEFINITION. The commands of the hub: one constructor of Instr per row of spec/opcode_table.json, and the data the
commands carry (request headers of R56, far-port frames of R307, what partners and the physical parts report).
-/
namespace Sys2Proof

/-- A request header flit (R56). -/
structure Header where
  opcode : BitVec 4
  size : BitVec 3
  narrow : Bool
  trump : Bool
  hint : BitVec 2
  part : BitVec 6
  cls : BitVec 3
  colour : BitVec 2
  fstart : Bool
  flen : BitVec 8
  tag : BitVec 16
  fmt : BitVec 3
  rop : BitVec 2
  mod : BitVec 3
  trickId : BitVec 8
  addr : Addr
  operand64 : BitVec 64
  byteEn : BitVec 256
  deriving DecidableEq, Repr

/-- The initiator of a register access (R470). -/
inductive Initiator where
  | mgmt
  | priv
  | part (p : BitVec 6)
  deriving DecidableEq, Repr

/-- A far-port frame (R306, R307): header fields, payload bytes as carried, 16-byte trailer. -/
structure Frame where
  typ : BitVec 4
  hint : BitVec 2
  trump : Bool
  narrow : Bool
  srcHub : BitVec 10
  dstHub : BitVec 10
  be : Bool
  exp : BitVec 8
  srcPart : BitVec 6
  tag : BitVec 16
  /-- ADDR of a request; the LINE_CODES of a response in bits [47:0]. -/
  addr : BitVec 64
  size : BitVec 3
  fmt : BitVec 3
  rop : BitVec 2
  mod : BitVec 3
  counter : BitVec 64
  payload : List Byte
  trailer : BitVec 128
  deriving DecidableEq, Repr

/-- Symbol errors: (number of a code word, what is added to it) (R326). In a read of a stack the words are numbered as the
command that carries them says. In a line operation they are what the units of the slice hold wrong from then on (R338): words
0 to 3 the sectors of its line, 4 its metadata-cache unit, 5 a unit of the tags, region table, translations or commit log. -/
abbrev Flips := List (Nat × Code)

/-- The turn of a write or reduction at its home slice: its number, and the symbol errors that come to be in the units of the slice
(R338). -/
structure SliceTurn where
  op : Nat
  found : Flips
  deriving DecidableEq, Repr

/-- Who commands a PORT_RETRAIN, and the level of OE_LINK_UP of its far-port as sampled then (R83, R305). -/
structure Retrain where
  init : Initiator
  linkUp : Bool
  deriving DecidableEq, Repr

/-- What S2 finds at a fitted stack (R403). -/
structure StackReport where
  answered : Bool
  height : BitVec 5
  density : BitVec 7
  pll : Bool
  deriving DecidableEq, Repr

/-- What training a stack gives (R405, R410): channels that fail, lanes repaired, channels of a restored stack whose check
slice meets a condition of R236, channels that pass with a spare lane only. -/
structure TrainReport where
  failed : BitVec 32
  repaired : BitVec 8
  drifted : BitVec 32
  spared : BitVec 32
  deriving DecidableEq, Repr

/-- One lane as a retraining slice measures it (R235, R236): a passing window was found, and its centre in delay steps from the
setting that the last training left. -/
structure LaneReport where
  window : Bool
  centre : Int
  deriving DecidableEq, Repr

/-- What the physical side reports at the end of a long operation: a part that failed (a fuse that did not blow, a flash
record that could not be written, a training with failing channels), a number (fuses that did blow), and the symbol errors of
what the operation read from a stack. -/
structure OpEnd where
  failed : Bool
  count : BitVec 32
  stack : StackReport
  train : TrainReport
  errs : Flips
  deriving DecidableEq, Repr

/-- What the read-back of a journal entry's copies finds (R458): both right; the first copy wrong, so the second is not programmed; or
the second wrong. -/
inductive ReadBack where
  | right | firstBad | secondBad
  deriving DecidableEq, Repr

/-- The requests of the SPDM responder (R385). -/
inductive SpdmCode where
  | getVersion | getCapabilities | negotiateAlgorithms | getDigests | getCertificate | challenge | getMeasurements
  /-- KEY_EXCHANGE and FINISH of a requester: the public-key digest of the root at which its chain ends; none: its chain or its
  signature fails (R385). -/
  | openSession (root : Option (BitVec 384))
  /-- END_SESSION; whether the session is the one in which the update runs (R382). -/
  | endSession (ofUpdate : Bool)
  | other
  deriving DecidableEq, Repr

/-- The commands: one constructor per row of the table of operations and events. -/
inductive Instr where
  -- resets and bring-up stages (chapters 2, 12, 13)
  | hubPorstAssert
  | hubPorstRelease (bootSeq fastOk : Bool) (stackFit : BitVec 8)
  | hubWrstAssert
  | hubWrstRelease (bootSeq fastOk : Bool)
  | stageS0Rom
  | stageS1Fw
  | stageS2Phy (reports : List StackReport)
  | stageS3Train (results : List TrainReport)
  | stageS4Map
  | stageS5Cache (bondsOk areasOk : Bool) (spareLinks : BitVec 10)
  | stageS6Far (linkUp : BitVec 4) (lanes : List (BitVec 8))
  | stageS7Open
  -- host ports (chapter 2)
  | read (port : BitVec 5) (h : Header)
  | write (port : BitVec 5) (h : Header) (flits : List Sector)
  | reduce (port : BitVec 5) (h : Header) (flits : List Sector)
  | trickOpen (port : BitVec 5) (h : Header)
  | trickWrite (port : BitVec 5) (h : Header) (flits : List Sector)
  | trickCompare (port : BitVec 5) (h : Header)
  | trickCommit (port : BitVec 5) (h : Header)
  | trickAbort (port : BitVec 5) (h : Header)
  | pageRelease (port : BitVec 5) (h : Header)
  | clearPoison (port : BitVec 5) (h : Header)
  | orphan (port : BitVec 5)
  | slot (port : BitVec 5)
  | responseAccepted (port : BitVec 5)
  -- arbiters (chapter 8)
  | arbiterChoice (arb : BitVec 4) (cycle : BitVec 3)
  | holdLimitExpiry (arb : BitVec 4)
  -- line operations at their home slices (chapters 4, 5, 11); op is the number the hub gave the line operation
  | readLineOp (op : Nat) (found : Flips)
  | narrowReadLineOp (op : Nat) (found : Flips)
  | writeLineOp (turn : SliceTurn)
  | reduceLineOp (turn : SliceTurn)
  | reductionUpdateEnd (part : BitVec 6) (line : BitVec 34)
  | fillArrival (fetch : Nat) (errs : Flips)
  | narrowReturn (fetch : Nat) (errs : Flips)
  | wbHandoff (part : BitVec 6) (line : BitVec 34) (errs : Flips)
  | deadlineNotReady (op : Nat)
  -- tricks and pages (chapter 6)
  | trickPhaseOneDone (slotId : BitVec 8)
  | trickPhaseTwoDone (slotId : BitVec 8)
  | trickCommitTimeout (slotId : BitVec 8)
  | trickOpenLimit (slotId : BitVec 8)
  | internalTrickCommit (seg : BitVec 2) (errs : Flips)
  | migrationBatch (index : BitVec 2) (errs : Flips)
  | pageMove (part : BitVec 6) (seg : BitVec 2)
  | pageZero (part : BitVec 6)
  | pageAllocate (op : Nat)
  | pageReleaseCommit (part : BitVec 6) (page : BitVec 26)
  -- regions, scrubbing and repair (chapter 11)
  | chunkFilled (slab : BitVec 11) (region : BitVec 8) (chunk : BitVec 6)
  | backgroundFill (slab : BitVec 11) (region : BitVec 8)
  | scrubRead (stack : BitVec 3) (errs : Flips)
  | pprSequenceEnd (stack : BitVec 3) (units : BitVec 16) (noSpare : Bool) (errs : Flips)
  -- channel engines (chapter 7)
  | commandSlot (engine : BitVec 8)
  | ageRaise (engine : BitVec 8) (pc : BitVec 1)
  | refreshWindow (engine : BitVec 8) (pc : BitVec 1)
  | parityError (engine : BitVec 8) (pc : BitVec 1)
  | periodicRetrainSlice (stack : BitVec 3)
  | channelTrainingEnd (engine : BitVec 8) (passed : Bool) (repaired : BitVec 8)
  -- temperature, power and supply (chapter 14)
  | stackTempRead (stack : BitVec 3) (ok : Bool) (deg : BitVec 8)
  | sensorRead (sensor : BitVec 4) (ok : Bool) (eighths : BitVec 12)
  | tripDrainDone
  | tripFlushDone
  | tripFlushCut
  | rorCheck
  | powerEstimate
  | powerWindowEnd
  | paceWindowEnd (seg : BitVec 2) (cycles : BitVec 20)
  | supplyWarnAssert
  | supplyWarnDeassert
  | supplySelfRefreshDue
  | supplyNotReadyDue
  | supplyEpisodeEnd
  | selfRefreshExitDone
  -- epochs, gate lists and dumps (chapters 8, 15)
  | epochTick
  | epochLost
  | gateEntryStart (list : BitVec 4)
  | dealStart (list : BitVec 4)
  | dumpDue
  | dumpRecordWritten
  | msiAck (vector : BitVec 6)
  -- power domains and DMA (chapters 2, 9)
  | pdReqRise (domain : BitVec 4)
  | pdAckRaise (domain : BitVec 4)
  | pdReqFall (domain : BitVec 4) (result : OpEnd)
  | dmaReqFall (line : BitVec 8)
  | dmaDescFetch (ch : BitVec 6)
  | dmaBurstStart (ch : BitVec 6) (lineHigh : Bool)
  | dmaBurstReadsDone (ch : BitVec 6)
  | dmaBurstEnd (ch : BitVec 6)
  | dmaDescComplete (ch : BitVec 6)
  | dmaRetryTimer (ch : BitVec 6)
  | hmmResponse (seg : BitVec 2) (tag : BitVec 16) (line : BitVec 4) (code : BitVec 3) (data : List Sector)
  | hmmTimeout (seg : BitVec 2) (tag : BitVec 16)
  -- peer hubs (chapters 10, 12)
  | remoteSend (req : Nat)
  | rxReadFrame (port : BitVec 2) (f : Frame)
  | rxWriteFrame (port : BitVec 2) (f : Frame)
  | rxReduceFrame (port : BitVec 2) (f : Frame)
  | remoteResponseSend (ctx : Nat)
  | remoteAnswerTimeout (op : Nat)
  | rxResponseFrame (port : BitVec 2) (f : Frame)
  | peerFailTimeout (req : Nat)
  | rxHeartbeat (port : BitVec 2) (f : Frame)
  | rxAck (port : BitVec 2) (f : Frame)
  | rxNak (port : BitVec 2) (f : Frame)
  | rxKeyxOffer (port : BitVec 2) (f : Frame)
  | rxKeyxAccept (port : BitVec 2) (f : Frame)
  | heartbeatDue (peer : BitVec 10)
  | heartbeatTimeout (peer : BitVec 10)
  | ackDue (peer : BitVec 10)
  | retryTimeout (peer : BitVec 10)
  | keyxRepeat (peer : BitVec 10)
  | rekeyTimeout (peer : BitVec 10)
  | oeLinkUpFall (port : BitVec 2)
  | farportTrainingEnd (port : BitVec 2) (lanes : BitVec 8)
  -- management core, security and the management network (chapters 12, 13)
  | watchdogExpiry
  | mgmtCoreReset
  | drbgHealthFail
  | drbgHealthRetest (pass : Bool)
  | spdmRequest (code : SpdmCode)
  | pldmRequestUpdate (inSession : Bool)
  | pldmFirmwareData (inSession : Bool) (offset : BitVec 24) (data : List Byte) (last : Bool)
  | pldmActivateFirmware (inSession : Bool)
  | pldmCancelUpdate (inSession : Bool)
  | wipeEnd
  | journalCommit (readBack : ReadBack)
  | journalSectorErased
  -- register accesses (chapter 16); reg is ADDR[23:2] of the window
  | registerWrite (init : Initiator) (reg : BitVec 22) (data : Word)
  | latchedRead (init : Initiator) (reg : BitVec 22)
  | sampleSrcRead (init : Initiator)
  | unassignedPageAccess (init : Initiator) (reg : BitVec 22) (wdata : Option Word)
  | pageEnable (init : Initiator) (page : BitVec 12) (data : Word)
  | expertUnlock (init : Initiator) (page : BitVec 12) (data : Word)
  | pageLock (init : Initiator) (page : BitVec 12) (data : Word)
  | irqEnableWrite (init : Initiator) (page : BitVec 12) (data : Word)
  | msiRouteWrite (init : Initiator) (data : Word)
  | compatProfileWrite (init : Initiator) (data : Word)
  | epochArm (init : Initiator) (data : Word)
  | clrMin (init : Initiator) (data : Word)
  | deadlineCntClr (init : Initiator) (data : Word)
  | arithCntClr (init : Initiator) (data : Word)
  | trickCntClr (init : Initiator) (data : Word)
  | tmCntClr (init : Initiator) (data : Word)
  | dmaCntClr (init : Initiator) (ch : BitVec 6) (data : Word)
  | farportCntClr (init : Initiator) (data : Word)
  | rasCntClr (init : Initiator) (data : Word)
  | thermCntClr (init : Initiator) (data : Word)
  | clrGlobal (init : Initiator) (data : Word)
  | clrEngine (init : Initiator) (data : Word)
  | clrSamples (init : Initiator) (data : Word)
  | kwSelLoad (init : Initiator) (data : Word)
  | pwSelLoad (init : Initiator) (data : Word)
  | hwSelLoad (init : Initiator) (data : Word)
  | expSelLoad (init : Initiator) (data : Word)
  | setDataAccess (init : Initiator) (wdata : Option Word)
  | deckDataAccess (init : Initiator) (wdata : Option Word)
  | entryDataAccess (init : Initiator) (wdata : Option Word)
  | evtCfgWrite (init : Initiator) (ch : BitVec 6) (chCfg : Bool) (data : Word)
  | shaperEnable (init : Initiator) (data : Word)
  | journalAckWrite (init : Initiator) (data : Word)
  -- long operations: the write of PAGE_OP with GO = 1 (R482)
  | partEnable (init : Initiator)
  | setPw (init : Initiator)
  | setHw (init : Initiator)
  | partRelease (init : Initiator)
  | kwApply (init : Initiator)
  | kittyFill (init : Initiator)
  | flush (init : Initiator)
  | setWays (init : Initiator)
  | forceFree (init : Initiator)
  | tableBuild (init : Initiator)
  | tableFree (init : Initiator)
  | xlate (init : Initiator)
  | deal (init : Initiator)
  | stop (init : Initiator)
  | cancel (init : Initiator)
  | retrainSlice (init : Initiator) (stack : BitVec 3)
  | dmaStart (init : Initiator) (ch : BitVec 6)
  | dmaPause (init : Initiator) (ch : BitVec 6)
  | dmaResume (init : Initiator) (ch : BitVec 6)
  | dmaAbort (init : Initiator) (ch : BitVec 6)
  | expApply (init : Initiator)
  | portRetrain (cmd : Retrain)
  | peerReset (init : Initiator)
  | readmit (init : Initiator)
  | retire (init : Initiator)
  | pairInstall (init : Initiator)
  | pairRemove (init : Initiator)
  | pairRekey (init : Initiator)
  | fuseSvn (init : Initiator)
  | fuseRevoke (init : Initiator)
  | genIdentity (init : Initiator)
  | lockProv (init : Initiator)
  | bootStart (init : Initiator)
  | continue_ (init : Initiator)
  | warmPrepare (init : Initiator)
  | stackReset (init : Initiator)
  | dumpStart (init : Initiator)
  | dumpStop (init : Initiator)
  | dumpNow (init : Initiator)
  | journalRead (init : Initiator)
  | append (init : Initiator)
  | longOpEnd (page : BitVec 12) (result : OpEnd)
  -- further far-port, HMM, scrubber, wipe and management events
  | strayFlit (port : BitVec 2) (sof eof : Bool)
  | otherTypeFrame (port : BitVec 2) (f : Frame)
  | hmmCreditGrant (seg : BitVec 2) (rd wr : BitVec 7)
  | scrubberReadIssue (stack : BitVec 3)
  | wipeWrite
  | retrainingSliceEnd (stack : BitVec 3) (lanes : List LaneReport)
  | refusedRead (init : Initiator) (reg : BitVec 22)
  | entdaa (address : BitVec 7)
  | mctpControlMessage (payload : List Byte)
  | pldmDiscovery (payload : List Byte)
  deriving DecidableEq, Repr

end Sys2Proof
end

