-- ==== Sys2Proof/Decode.lean ====
section
/-!
DEFINITION. The words of commands. The table gives no row any bits (the hub has no instruction encoding: requests arrive as
header flits with the fields of R56), so no word spells a command.
-/
namespace Sys2Proof

/-- The command that a word of nbits bits spells: none, since the table gives no row bits. -/
def decodeTableWord (_nbits _w : Nat) : Option Instr := none

end Sys2Proof
end

