-- ==== Sys2Proof/Machine/RegTable.lean ====
section
/-!
DEFINITION. The registers of every page as data: offset, reset value and the access of each field (R475 and the register
tables of the chapters). Access codes are those of R20: RW, RO, W1C, WO, RWX (expert), RWL (lockable).
-/
namespace Sys2Proof.Machine

/-- A run of n like registers from offset off, stride bytes apart: reset value; the masks of RW (with RWX and RWL), RO, W1C and
WO bits; of the RW bits, those that are RWX and RWL. Bits in no mask are reserved. -/
structure RegRow where
  off : Nat
  n : Nat
  stride : Nat
  reset : Word
  rw : Word
  ro : Word
  w1c : Word
  wo : Word
  x : Word
  l : Word
  deriving DecidableEq, Repr

/-- The page classes of R473. -/
inductive PageClass where
  | hub | boot | sec | part | map | cache | arith | trick | pagemgr | tm | gate | ras | therm | perf | journal | farport | dma | stk | che
  deriving DecidableEq, Repr

/-- HUB page (R37, R38, R75, R245, R486, R487). -/
def rowsHubA : List RegRow := [
  ⟨0x40, 1, 4, 0, 0, 0xffffffff, 0, 0, 0, 0⟩,  -- HUB_INFO
  ⟨0x44, 1, 4, 0x1, 0xffff, 0, 0, 0, 0, 0xffff⟩,  -- COMPAT_PROFILE
  ⟨0x48, 1, 4, 0x1, 0, 0xffffffff, 0, 0, 0, 0⟩,  -- PROFILES
  ⟨0x4c, 1, 4, 0, 0, 0x1ffffff, 0, 0, 0, 0⟩,  -- IRQ_SUM
  ⟨0x50, 2, 4, 0, 0, 0xffffffff, 0, 0, 0, 0⟩,  -- IRQ_DMA_LO to IRQ_DMA_HI
  ⟨0x58, 1, 4, 0, 0, 0x803fffff, 0, 0, 0, 0⟩,  -- UNMAPPED_ERR
  ⟨0x60, 1, 4, 0, 0xfff, 0, 0, 0, 0, 0⟩,  -- MSI_PAGE_SEL
  ⟨0x64, 1, 4, 0, 0x8000003f, 0, 0, 0, 0, 0⟩,  -- MSI_ROUTE
  ⟨0x68, 2, 4, 0, 0x3f, 0, 0, 0, 0, 0⟩,  -- MSI_VEC_SEL to MSI_OWNER
  ⟨0x70, 2, 4, 0, 0, 0xffffffff, 0, 0, 0, 0⟩,  -- MSI_WAIT_LO to MSI_WAIT_HI
  ⟨0x100, 1, 4, 0, 0, 0, 0, 0x1, 0, 0⟩,  -- PACE_CTRL
  ⟨0x104, 1, 4, 0, 0, 0, 0xf, 0, 0, 0⟩,  -- PACE_STATUS
  ⟨0x110, 4, 4, 0, 0, 0xc00fffff, 0, 0, 0, 0⟩,  -- PACE_SEG0 to PACE_SEG3
  ⟨0x120, 4, 4, 0xfffff, 0, 0xfffff, 0, 0, 0, 0⟩,  -- PACE_MIN_SEG0 to PACE_MIN_SEG3
  ⟨0x140, 1, 4, 0, 0, 0xffff, 0x10000, 0, 0, 0⟩,  -- PORT_PROTO_STATUS
  ⟨0x144, 1, 4, 0, 0, 0xffff00ff, 0, 0, 0, 0⟩  -- PORT_PROTO_LAST
  ]

/-- HUB page (R37, R38, R75, R245, R486, R487). -/
def rowsHubB : List RegRow := [
  ⟨0x148, 1, 4, 0, 0, 0, 0xffffffff, 0, 0, 0⟩,  -- PORT_PROTO_SEEN
  ⟨0x14c, 1, 4, 0, 0, 0x7, 0, 0, 0, 0⟩,  -- SIDEBAND_LEVELS
  ⟨0x150, 1, 4, 0, 0, 0xffffffff, 0, 0, 0, 0⟩,  -- PD_STATE
  ⟨0x160, 2, 4, 0, 0xffffffff, 0, 0, 0, 0, 0⟩,  -- EPOCH_SET_LO to EPOCH_SET_HI
  ⟨0x168, 1, 4, 0, 0, 0, 0, 0x1, 0, 0⟩,  -- EPOCH_CTRL
  ⟨0x170, 2, 4, 0, 0, 0xffffffff, 0, 0, 0, 0⟩,  -- EPOCH_NOW_LO to EPOCH_NOW_HI
  ⟨0x178, 1, 4, 0, 0, 0x3, 0x4, 0, 0, 0⟩,  -- EPOCH_STATUS
  ⟨0x17c, 1, 4, 0x4, 0xffff, 0, 0, 0, 0, 0⟩  -- EPOCH_CFG
  ]

def rowsHub : List RegRow := rowsHubA ++ rowsHubB

/-- BOOT page (R420). -/
def rowsBoot : List RegRow := [
  ⟨0x40, 1, 4, 0, 0, 0xfff, 0, 0, 0, 0⟩,  -- STATUS
  ⟨0x44, 1, 4, 0, 0xfc, 0, 0, 0, 0, 0⟩,  -- HOLD
  ⟨0x48, 1, 4, 0, 0, 0xff, 0, 0, 0, 0⟩,  -- FIT
  ⟨0x4c, 1, 4, 0, 0, 0x1ffffff, 0, 0, 0, 0⟩,  -- CAPACITY
  ⟨0x50, 6, 8, 0, 0, 0xffffffff, 0, 0, 0, 0⟩,  -- DROP_CAUSE to STAGE_REPORT6
  ⟨0x54, 1, 4, 0, 0x7, 0, 0, 0, 0, 0⟩,  -- STACK_SEL
  ⟨0x5c, 1, 4, 0, 0, 0xffff, 0, 0, 0, 0⟩,  -- TIME
  ⟨0x64, 4, 8, 0, 0, 0xffffffff, 0, 0, 0, 0⟩,  -- STAGE_REPORT1 to STAGE_REPORT7
  ⟨0x80, 1, 4, 0, 0, 0x7ff0f, 0, 0, 0, 0⟩,  -- OP_RESULT
  ⟨0x800, 1, 4, 0x303, 0xf03, 0, 0, 0, 0xf03, 0⟩  -- TRAIN_CFG
  ]

/-- SEC page (R394, R395). -/
def rowsSecA : List RegRow := [
  ⟨0x40, 1, 4, 0x4040040, 0, 0x7f7ff7f, 0, 0, 0, 0⟩,  -- CAPS
  ⟨0x44, 1, 4, 0x1, 0x3, 0, 0, 0, 0, 0⟩,  -- POLICY
  ⟨0x48, 1, 4, 0, 0, 0xf7f7f1f, 0, 0, 0, 0⟩,  -- STATE
  ⟨0x4c, 2, 4, 0, 0, 0xffffffff, 0, 0, 0, 0⟩,  -- KEY_STATE_LO to KEY_STATE_HI
  ⟨0x54, 1, 4, 0, 0, 0xffffff01, 0, 0, 0, 0⟩,  -- DRBG_STATUS
  ⟨0x58, 1, 4, 0, 0x3ff, 0, 0, 0, 0, 0⟩,  -- PAIR_SEL
  ⟨0x5c, 1, 4, 0, 0, 0xffff0003, 0, 0, 0, 0⟩,  -- PAIR_STATE
  ⟨0x60, 1, 4, 0, 0, 0xffffffff, 0, 0, 0, 0⟩,  -- TX_FRAMES_LO
  ⟨0x64, 1, 4, 0, 0, 0xffff, 0, 0, 0, 0⟩,  -- TX_FRAMES_HI
  ⟨0x68, 1, 4, 0, 0, 0xffffffff, 0, 0, 0, 0⟩,  -- REKEY_CNT
  ⟨0x6c, 1, 4, 0x20, 0xff, 0, 0, 0, 0, 0⟩,  -- WIPE_CFG
  ⟨0x70, 1, 4, 0, 0, 0x7f7f3f01, 0, 0, 0, 0⟩,  -- WIPE_STATUS
  ⟨0x74, 1, 4, 0, 0, 0x3ffff0f, 0, 0, 0, 0⟩,  -- OP_RESULT
  ⟨0x78, 1, 4, 0x1, 0x7, 0, 0, 0, 0, 0⟩,  -- MEAS_SEL
  ⟨0x7c, 1, 4, 0, 0x3, 0, 0, 0, 0, 0⟩,  -- OP_ARG
  ⟨0x80, 12, 4, 0, 0, 0xffffffff, 0, 0, 0, 0⟩  -- MEAS_DATA0 to MEAS_DATA11
  ]

/-- SEC page (R394, R395). -/
def rowsSecB : List RegRow := [
  ⟨0xc0, 8, 4, 0, 0, 0, 0, 0xffffffff, 0, 0⟩,  -- KEY_BUF0 to KEY_BUF7
  ⟨0x100, 24, 4, 0, 0, 0xffffffff, 0, 0, 0, 0⟩,  -- IDPUB0 to IDPUB23
  ⟨0x800, 1, 4, 0x30, 0x3f, 0, 0, 0, 0x3f, 0⟩,  -- REKEY_CFG
  ⟨0x804, 1, 4, 0x14, 0x1f, 0, 0, 0, 0x1f, 0⟩  -- DRBG_CFG
  ]

def rowsSec : List RegRow := rowsSecA ++ rowsSecB

/-- PART page (R122). -/
def rowsPartA : List RegRow := [
  ⟨0x40, 1, 4, 0, 0x3f, 0, 0, 0, 0, 0⟩,  -- PART_SEL
  ⟨0x44, 1, 4, 0, 0x1f, 0x80000000, 0, 0, 0x10, 0⟩,  -- PART_CFG
  ⟨0x48, 1, 4, 0, 0xffe00000, 0, 0, 0, 0, 0⟩,  -- WIN_BASE_LO
  ⟨0x4c, 1, 4, 0, 0xffffffff, 0, 0, 0, 0, 0⟩,  -- WIN_BASE_HI
  ⟨0x50, 1, 4, 0, 0x1fffff, 0, 0, 0, 0, 0⟩,  -- WIN_SIZE
  ⟨0x54, 1, 4, 0, 0x7ff, 0, 0, 0, 0, 0⟩,  -- SET_FIRST
  ⟨0x58, 1, 4, 0, 0xfff, 0, 0, 0, 0, 0⟩,  -- SET_COUNT
  ⟨0x5c, 3, 4, 0, 0xffffffff, 0, 0, 0, 0, 0⟩,  -- PORT_MASK to DMA_MASK_HI
  ⟨0x68, 1, 4, 0, 0, 0xffff0f, 0, 0, 0, 0⟩,  -- OP_RESULT
  ⟨0x6c, 2, 4, 0, 0, 0xffffffff, 0, 0, 0, 0⟩,  -- ENABLED_LO to ENABLED_HI
  ⟨0x80, 1, 4, 0, 0xff, 0, 0, 0, 0, 0⟩,  -- PW_SEL
  ⟨0x84, 1, 4, 0, 0xffe00000, 0, 0, 0, 0, 0⟩,  -- PW_BASE_LO
  ⟨0x88, 1, 4, 0, 0xffffffff, 0, 0, 0, 0, 0⟩,  -- PW_BASE_HI
  ⟨0x8c, 1, 4, 0, 0x1fffff, 0, 0, 0, 0, 0⟩,  -- PW_SIZE
  ⟨0x90, 1, 4, 0, 0xff03ff, 0, 0, 0, 0, 0⟩,  -- PW_TARGET
  ⟨0x94, 1, 4, 0, 0x8000073f, 0, 0, 0, 0, 0⟩  -- PW_CTRL
  ]

/-- PART page (R122). -/
def rowsPartB : List RegRow := [
  ⟨0xa0, 1, 4, 0, 0xf, 0, 0, 0, 0, 0⟩,  -- HW_SEL
  ⟨0xa4, 1, 4, 0, 0xffe00000, 0, 0, 0, 0, 0⟩,  -- HW_BASE_LO
  ⟨0xa8, 1, 4, 0, 0xffffffff, 0, 0, 0, 0, 0⟩,  -- HW_BASE_HI
  ⟨0xac, 1, 4, 0, 0x1fffff, 0, 0, 0, 0, 0⟩,  -- HW_SIZE
  ⟨0xb0, 1, 4, 0, 0x80003f3f, 0, 0, 0, 0, 0⟩  -- HW_CTRL
  ]

def rowsPart : List RegRow := rowsPartA ++ rowsPartB

/-- MAP page (R126). -/
def rowsMap : List RegRow := [
  ⟨0x40, 1, 4, 0, 0, 0xff1f, 0, 0, 0, 0⟩,  -- GEOM
  ⟨0x44, 1, 4, 0, 0, 0x3fffff, 0, 0, 0, 0⟩,  -- DATA_LINES
  ⟨0x48, 1, 4, 0, 0, 0xfff0fff, 0, 0, 0, 0⟩,  -- COUNTS
  ⟨0x4c, 1, 4, 0x4, 0xf, 0, 0, 0, 0, 0xf⟩,  -- TALON_CFG
  ⟨0x50, 1, 4, 0, 0, 0x17f7f, 0, 0, 0, 0⟩,  -- TALON_STATUS
  ⟨0x54, 2, 4, 0, 0, 0xffffffff, 0, 0, 0, 0⟩,  -- DEFAULT_BASE_LO to DEFAULT_BASE_HI
  ⟨0x60, 1, 4, 0, 0x7ff, 0, 0, 0, 0, 0⟩,  -- SLAB_SEL
  ⟨0x64, 1, 4, 0, 0, 0x3f8337ff, 0, 0, 0, 0⟩,  -- SLAB_ENTRY
  ⟨0x68, 1, 4, 0, 0x7ff, 0, 0, 0, 0, 0⟩,  -- PSLAB_SEL
  ⟨0x6c, 1, 4, 0, 0, 0x7fffff07, 0, 0, 0, 0⟩,  -- PSLAB_ENTRY
  ⟨0x70, 1, 4, 0, 0x800007ff, 0, 0, 0, 0, 0⟩,  -- SET_SEL
  ⟨0x74, 1, 4, 0, 0x7ff, 0, 0, 0, 0, 0⟩,  -- SET_DATA
  ⟨0x800, 1, 4, 0, 0x803f0fff, 0, 0, 0, 0x803f0fff, 0⟩,  -- DECK_SEL
  ⟨0x804, 1, 4, 0, 0xffff, 0, 0, 0, 0xffff, 0⟩  -- DECK_DATA
  ]

/-- CACHE page (R148). -/
def rowsCache : List RegRow := [
  ⟨0x40, 1, 4, 0x4010c, 0, 0xfffff, 0, 0, 0, 0⟩,  -- GEOM
  ⟨0x44, 1, 4, 0x1, 0x1, 0, 0, 0, 0, 0⟩,  -- POLICY
  ⟨0x48, 1, 4, 0, 0xf, 0, 0, 0, 0, 0⟩,  -- KITTY_WAYS_STAGE
  ⟨0x4c, 1, 4, 0, 0, 0xffff000f, 0, 0, 0, 0⟩,  -- KITTY_STATUS
  ⟨0x50, 1, 4, 0, 0xf, 0, 0, 0, 0, 0⟩,  -- KW_SEL
  ⟨0x54, 1, 4, 0, 0xffff0000, 0, 0, 0, 0, 0⟩,  -- KW_BASE_LO
  ⟨0x58, 1, 4, 0, 0xffffffff, 0, 0, 0, 0, 0⟩,  -- KW_BASE_HI
  ⟨0x5c, 1, 4, 0, 0xffffff, 0, 0, 0, 0, 0⟩,  -- KW_SIZE
  ⟨0x60, 1, 4, 0, 0x8fff003f, 0, 0, 0, 0, 0⟩,  -- KW_CTRL
  ⟨0x64, 1, 4, 0, 0x33f, 0, 0, 0, 0, 0⟩,  -- FLUSH_CTRL
  ⟨0x68, 1, 4, 0, 0, 0xffff0f, 0, 0, 0, 0⟩,  -- OP_RESULT
  ⟨0x6c, 1, 4, 0, 0, 0x1ffffff, 0, 0, 0, 0⟩,  -- PINNED_LINES
  ⟨0x70, 2, 4, 0, 0, 0xffffffff, 0, 0, 0, 0⟩,  -- OVERFLOW_CNT to VOID_CNT
  ⟨0x800, 1, 4, 0x8, 0xf, 0, 0, 0, 0xf, 0⟩,  -- PROTECT_CFG
  ⟨0x804, 1, 4, 0x1, 0x1, 0, 0, 0, 0x1, 0⟩  -- FILL_CFG
  ]

/-- ARITH page (R180, R181). -/
def rowsArith : List RegRow := [
  ⟨0x40, 1, 4, 0x1fff, 0, 0x1fff, 0, 0, 0, 0⟩,  -- CAPS
  ⟨0x44, 2, 4, 0xffffffff, 0xffffffff, 0, 0, 0, 0, 0⟩,  -- RED_EN_LO to RED_EN_HI
  ⟨0x4c, 1, 4, 0, 0, 0, 0, 0x1, 0, 0⟩,  -- CNT_CTRL
  ⟨0x50, 4, 8, 0, 0, 0xffffffff, 0, 0, 0, 0⟩,  -- UPDATES_LO to DROP_CNT
  ⟨0x54, 1, 4, 0, 0, 0xffff, 0, 0, 0, 0⟩,  -- UPDATES_HI
  ⟨0x5c, 3, 8, 0, 0, 0xffffffff, 0, 0, 0, 0⟩,  -- NAN_CNT to DROP_LINE_LO
  ⟨0x70, 1, 4, 0, 0, 0x803f00ff, 0, 0, 0, 0⟩,  -- DROP_LINE_HI
  ⟨0x800, 2, 4, 0, 0xffffffff, 0, 0, 0, 0xffffffff, 0⟩,  -- SR_EN_LO to SR_EN_HI
  ⟨0x808, 1, 4, 0, 0x1, 0, 0, 0, 0x1, 0⟩  -- OVF_CFG
  ]

/-- TRICK page (R214). -/
def rowsTrick : List RegRow := [
  ⟨0x40, 1, 4, 0x1000410, 0, 0x1ff071f, 0, 0, 0, 0⟩,  -- CAPS
  ⟨0x44, 1, 4, 0, 0, 0x1ff, 0, 0, 0, 0⟩,  -- OPEN_COUNT
  ⟨0x48, 1, 4, 0x64, 0xffff, 0, 0, 0, 0, 0⟩,  -- OPEN_LIMIT
  ⟨0x4c, 1, 4, 0, 0, 0, 0, 0x1, 0, 0⟩,  -- CNT_CTRL
  ⟨0x50, 6, 4, 0, 0, 0xffffffff, 0, 0, 0, 0⟩,  -- COMMITTED_CNT to INTERNAL_CNT
  ⟨0x68, 1, 4, 0, 0, 0xffff, 0, 0, 0, 0⟩,  -- LOCK_MAX
  ⟨0x70, 1, 4, 0, 0xff, 0, 0, 0, 0, 0⟩,  -- SLOT_SEL
  ⟨0x74, 1, 4, 0, 0, 0xff3f1f07, 0, 0, 0, 0⟩,  -- SLOT_STATE
  ⟨0x78, 1, 4, 0, 0, 0xffff0f, 0, 0, 0, 0⟩,  -- OP_RESULT
  ⟨0x800, 1, 4, 0x1, 0x1, 0, 0, 0, 0x1, 0⟩  -- GATHER_CFG
  ]

/-- PAGEMGR page (R216). -/
def rowsPagemgr : List RegRow := [
  ⟨0x40, 1, 4, 0, 0x3f, 0, 0, 0, 0, 0⟩,  -- SEL
  ⟨0x44, 1, 4, 0, 0, 0xf, 0, 0, 0, 0⟩,  -- STATUS
  ⟨0x48, 4, 4, 0, 0, 0xffffff, 0, 0, 0, 0⟩,  -- POOL_TOTAL to FREE_DIRTY
  ⟨0x58, 1, 4, 0xffffff, 0xffffff, 0, 0, 0, 0, 0⟩,  -- PAGE_LIMIT
  ⟨0x5c, 1, 4, 0, 0xffffff, 0, 0, 0, 0, 0⟩,  -- LOW_MARK
  ⟨0x60, 1, 4, 0x4, 0xf, 0, 0, 0, 0, 0⟩,  -- SHARE
  ⟨0x64, 1, 4, 0, 0, 0xffffffff, 0, 0, 0, 0⟩,  -- NOSPACE_CNT
  ⟨0x68, 2, 4, 0, 0, 0x1fffff, 0, 0, 0, 0⟩,  -- FWD_FIRST to REV_FIRST
  ⟨0x70, 1, 4, 0, 0x83ffffff, 0, 0, 0, 0, 0⟩,  -- XLATE_IN
  ⟨0x74, 2, 4, 0, 0, 0xffffffff, 0, 0, 0, 0⟩,  -- XLATE_LO to XLATE_HI
  ⟨0x7c, 1, 4, 0, 0, 0xffff0f, 0, 0, 0, 0⟩,  -- OP_RESULT
  ⟨0x80, 4, 4, 0x200000, 0, 0x3fffff, 0, 0, 0, 0⟩,  -- SLOTS_FREE_SEG0 to SLOTS_FREE_SEG3
  ⟨0x90, 1, 4, 0x40, 0xff, 0, 0, 0, 0, 0⟩,  -- BG_RATE
  ⟨0x800, 1, 4, 0, 0xffffff01, 0, 0, 0, 0xffffff01, 0⟩,  -- COMPACT_CFG
  ⟨0x804, 1, 4, 0x1, 0x1, 0, 0, 0, 0x1, 0⟩  -- ZERO_CFG
  ]

/-- TM page (R268, R269). -/
def rowsTm : List RegRow := [
  ⟨0x40, 1, 4, 0, 0x13f, 0, 0, 0, 0, 0⟩,  -- POL_SEL
  ⟨0x44, 1, 4, 0, 0x7, 0, 0, 0, 0, 0⟩,  -- POL_CFG
  ⟨0x48, 4, 4, 0, 0xffffffff, 0, 0, 0, 0, 0⟩,  -- POL_CIR to POL_PBS
  ⟨0x58, 3, 4, 0, 0, 0xffffffff, 0, 0, 0, 0⟩,  -- POL_GREEN_CNT to POL_RED_CNT
  ⟨0x70, 1, 4, 0, 0x7f, 0, 0, 0, 0, 0⟩,  -- SHP_SEL
  ⟨0x74, 1, 4, 0, 0xffff01, 0, 0, 0, 0, 0⟩,  -- SHP_CFG
  ⟨0x78, 2, 4, 0, 0xffffffff, 0, 0, 0, 0, 0⟩,  -- SHP_RATE to SHP_BURST
  ⟨0x80, 1, 4, 0, 0, 0xffffffff, 0, 0, 0, 0⟩,  -- SHP_TOKENS
  ⟨0x84, 1, 4, 0, 0, 0x7, 0, 0, 0, 0⟩,  -- THROTTLE
  ⟨0x88, 2, 4, 0, 0, 0xffffffff, 0, 0, 0, 0⟩,  -- HOLD_RELEASE_CNT to SCAV_CNT
  ⟨0x90, 1, 4, 0, 0, 0, 0, 0x1, 0, 0⟩  -- CNT_CTRL
  ]

/-- GATE page (R271). -/
def rowsGate : List RegRow := [
  ⟨0x40, 1, 4, 0, 0x1f, 0, 0, 0, 0, 0⟩,  -- LIST_SEL
  ⟨0x44, 1, 4, 0, 0x8000003f, 0, 0, 0, 0, 0⟩,  -- ENTRY_SEL
  ⟨0x48, 1, 4, 0, 0xfffff1ff, 0, 0, 0, 0, 0⟩,  -- ENTRY_DATA
  ⟨0x4c, 1, 4, 0, 0xffffff7f, 0, 0, 0, 0, 0⟩,  -- BANK_CFG
  ⟨0x50, 2, 4, 0, 0xffffffff, 0, 0, 0, 0, 0⟩,  -- BASE_LO to BASE_HI
  ⟨0x58, 1, 4, 0, 0, 0x3f1f, 0, 0, 0, 0⟩,  -- LIST_STATUS
  ⟨0x5c, 4, 8, 0, 0, 0xffffffff, 0, 0, 0, 0⟩,  -- SKIPPED to OVERSIZE_CNT
  ⟨0x60, 1, 4, 0, 0, 0x3ffffff, 0, 0, 0, 0⟩,  -- CYCLE
  ⟨0x68, 1, 4, 0, 0, 0xffffffff, 0, 0, 0, 0⟩,  -- START_HI
  ⟨0x70, 1, 4, 0, 0, 0xffffffff, 0, 0, 0, 0⟩,  -- OVERRUN_CNT
  ⟨0x78, 1, 4, 0, 0, 0xffff0f, 0, 0, 0, 0⟩,  -- OP_RESULT
  ⟨0x800, 1, 4, 0, 0xff, 0, 0, 0, 0xff, 0⟩  -- OVERRUN
  ]

/-- RAS page (R358, R359). -/
def rowsRasA : List RegRow := [
  ⟨0x40, 1, 4, 0x401053, 0, 0xffffff, 0, 0, 0, 0⟩,  -- CAPS
  ⟨0x44, 1, 4, 0, 0, 0, 0, 0x1, 0, 0⟩,  -- CNT_CTRL
  ⟨0x48, 10, 4, 0, 0, 0xffffffff, 0, 0, 0, 0⟩,  -- CE_CNT to ABANDON_CNT
  ⟨0x70, 1, 4, 0, 0, 0x800737ff, 0, 0, 0, 0⟩,  -- LAST_UE
  ⟨0x74, 1, 4, 0, 0, 0x3fffff, 0, 0, 0, 0⟩,  -- LAST_UE_OFF
  ⟨0x78, 1, 4, 0, 0x7ff, 0, 0, 0, 0, 0⟩,  -- PSLAB_SEL
  ⟨0x7c, 1, 4, 0, 0, 0x1fffffff, 0, 0, 0, 0⟩,  -- PSLAB_ERR
  ⟨0x80, 1, 4, 0x80015180, 0x800fffff, 0, 0, 0, 0, 0⟩,  -- SCRUB_CFG
  ⟨0x84, 1, 4, 0, 0, 0x17fffff, 0, 0, 0, 0⟩,  -- SCRUB_STATUS
  ⟨0x88, 1, 4, 0x10, 0xff, 0, 0, 0, 0, 0⟩,  -- FILL_CFG
  ⟨0x8c, 1, 4, 0, 0, 0x7f07, 0, 0, 0, 0⟩,  -- MIG_STATUS
  ⟨0x90, 1, 4, 0, 0x3, 0, 0, 0, 0, 0⟩,  -- MIG_SEL
  ⟨0x94, 1, 4, 0, 0, 0x17ff7ff, 0, 0, 0, 0⟩,  -- MIG_INFO
  ⟨0x98, 1, 4, 0, 0, 0x3fffff, 0, 0, 0, 0⟩,  -- MIG_WMARK
  ⟨0x9c, 1, 4, 0x1000, 0, 0x1f1fff, 0, 0, 0, 0⟩,  -- REPAIR_STATUS
  ⟨0xa0, 1, 4, 0, 0, 0xffff, 0, 0, 0, 0⟩  -- PPR_MAX
  ]

/-- RAS page (R358, R359). -/
def rowsRasB : List RegRow := [
  ⟨0xa4, 1, 4, 0, 0, 0x7ffff0f, 0, 0, 0, 0⟩,  -- OP_RESULT
  ⟨0x800, 1, 4, 0x210, 0x7ff, 0, 0, 0, 0x7ff, 0⟩,  -- MIG_CFG
  ⟨0x804, 1, 4, 0, 0xffff, 0, 0, 0, 0xffff, 0⟩,  -- READMIT_CFG
  ⟨0x808, 1, 4, 0x2, 0xff, 0, 0, 0, 0xff, 0⟩  -- PPR_CFG
  ]

def rowsRas : List RegRow := rowsRasA ++ rowsRasB

/-- THERM page (R441, R442). -/
def rowsThermA : List RegRow := [
  ⟨0x40, 1, 4, 0x690810, 0, 0xff0f1f, 0, 0, 0, 0⟩,  -- CAPS
  ⟨0x44, 1, 4, 0, 0, 0xf, 0, 0, 0, 0⟩,  -- STATUS
  ⟨0x48, 1, 4, 0, 0x1f, 0, 0, 0, 0, 0⟩,  -- SENSOR_SEL
  ⟨0x4c, 1, 4, 0, 0, 0x3ff, 0, 0, 0, 0⟩,  -- SENSOR
  ⟨0x50, 1, 4, 0, 0, 0xfff, 0, 0, 0, 0⟩,  -- SENSOR_FINE
  ⟨0x54, 1, 4, 0, 0, 0x1fff, 0, 0, 0, 0⟩,  -- ROR
  ⟨0x58, 1, 4, 0, 0, 0xff1f, 0, 0, 0, 0⟩,  -- HOTTEST
  ⟨0x5c, 1, 4, 0, 0, 0xffffff, 0, 0, 0, 0⟩,  -- SENSOR_FAIL
  ⟨0x60, 1, 4, 0x64180c, 0xffffffff, 0, 0, 0, 0, 0⟩,  -- ROR_CFG
  ⟨0x64, 1, 4, 0, 0, 0xffffff3f, 0, 0, 0, 0⟩,  -- THROTTLE_STATUS
  ⟨0x68, 1, 4, 0, 0, 0x3ff, 0, 0, 0, 0⟩,  -- POWER_W
  ⟨0x6c, 1, 4, 0, 0, 0xffffff, 0, 0, 0, 0⟩,  -- POWER_FINE
  ⟨0x70, 2, 4, 0, 0, 0xffffffff, 0, 0, 0, 0⟩,  -- WARN_CNT to WARN_MAX
  ⟨0x78, 1, 4, 0, 0, 0x8003ff1f, 0, 0, 0, 0⟩,  -- TRIP_INFO
  ⟨0x7c, 1, 4, 0, 0, 0, 0, 0x1, 0, 0⟩,  -- CNT_CTRL
  ⟨0x800, 1, 4, 0, 0x7, 0, 0, 0, 0x7, 0⟩  -- COEF_SEL
  ]

/-- THERM page (R441, R442). -/
def rowsThermB : List RegRow := [
  ⟨0x804, 1, 4, 0, 0xffffff, 0, 0, 0, 0xffffff, 0⟩  -- COEF_DATA
  ]

def rowsTherm : List RegRow := rowsThermA ++ rowsThermB

/-- PERF page (R455, R456). -/
def rowsPerfA : List RegRow := [
  ⟨0x40, 1, 4, 0x1b100440, 0, 0xff1f077f, 0, 0, 0, 0⟩,  -- CAPS
  ⟨0x44, 1, 4, 0x1, 0x1, 0, 0, 0, 0, 0⟩,  -- CTRL
  ⟨0x48, 1, 4, 0, 0, 0, 0, 0x7, 0, 0⟩,  -- CNT_CTRL
  ⟨0x4c, 2, 4, 0, 0, 0, 0xffffffff, 0, 0, 0⟩,  -- OVF_LO to OVF_HI
  ⟨0x54, 1, 4, 0x64, 0xffff, 0, 0, 0, 0, 0⟩,  -- LAT_THRESH
  ⟨0x58, 2, 4, 0, 0, 0xffffffff, 0, 0, 0, 0⟩,  -- SAMPLE_ADDR_LO to SAMPLE_ADDR_HI
  ⟨0x60, 1, 4, 0, 0, 0x8fffffff, 0, 0, 0, 0⟩,  -- SAMPLE_INFO
  ⟨0x64, 2, 4, 0, 0, 0xffffffff, 0, 0, 0, 0⟩,  -- SAMPLE_SRC to SAMPLE_LOST
  ⟨0x70, 1, 4, 0, 0x13f, 0, 0, 0, 0, 0⟩,  -- DUMP_CFG
  ⟨0x74, 3, 8, 0, 0xffffffff, 0, 0, 0, 0, 0⟩,  -- DUMP_PERIOD to DUMP_MASK_LO
  ⟨0x78, 1, 4, 0, 0xffffffc0, 0, 0, 0, 0, 0⟩,  -- DUMP_BASE_LO
  ⟨0x80, 1, 4, 0, 0xffff, 0, 0, 0, 0, 0⟩,  -- DUMP_RECORDS
  ⟨0x88, 1, 4, 0, 0xffffffff, 0, 0, 0, 0, 0⟩,  -- DUMP_MASK_HI
  ⟨0x8c, 1, 4, 0, 0, 0xffffff07, 0, 0, 0, 0⟩,  -- DUMP_STATUS
  ⟨0x90, 1, 4, 0, 0, 0xffffffff, 0, 0, 0, 0⟩,  -- DUMP_SKIPPED
  ⟨0x94, 1, 4, 0, 0, 0xff0f, 0, 0, 0, 0⟩  -- OP_RESULT
  ]

/-- PERF page (R455, R456). -/
def rowsPerfB : List RegRow := [
  ⟨0x100, 64, 16, 0, 0x81ffffff, 0, 0, 0, 0, 0⟩,  -- SEL0 to SEL63
  ⟨0x104, 64, 16, 0, 0xffffffff, 0, 0, 0, 0, 0⟩,  -- CNT_LO0 to CNT_LO63
  ⟨0x108, 64, 16, 0, 0xffff, 0, 0, 0, 0, 0⟩,  -- CNT_HI0 to CNT_HI63
  ⟨0x800, 1, 4, 0, 0x1, 0, 0, 0, 0x1, 0⟩  -- FREEZE_CFG
  ]

def rowsPerf : List RegRow := rowsPerfA ++ rowsPerfB

/-- JOURNAL page (R466). -/
def rowsJournal : List RegRow := [
  ⟨0x40, 1, 4, 0x8020000, 0, 0xff03ffff, 0, 0, 0, 0⟩,  -- CAPS
  ⟨0x44, 1, 4, 0, 0, 0xf, 0, 0, 0, 0⟩,  -- STATUS
  ⟨0x48, 4, 4, 0, 0, 0xffffffff, 0, 0, 0, 0⟩,  -- HEAD_LO to CRIT_HI
  ⟨0x58, 4, 4, 0, 0xffffffff, 0, 0, 0, 0, 0⟩,  -- ACK_LO to RD_HI
  ⟨0x68, 3, 4, 0, 0, 0xffffffff, 0, 0, 0, 0⟩,  -- BOOT to FLASH_ERR_CNT
  ⟨0x74, 1, 4, 0, 0, 0x80ffff01, 0, 0, 0, 0⟩,  -- REPLAY
  ⟨0x78, 1, 4, 0x8000, 0x1ffff, 0, 0, 0, 0, 0⟩,  -- APPEND_TYPE
  ⟨0x7c, 1, 4, 0, 0, 0xff0f, 0, 0, 0, 0⟩,  -- OP_RESULT
  ⟨0x80, 16, 4, 0, 0, 0xffffffff, 0, 0, 0, 0⟩,  -- RD_DATA0 to RD_DATA15
  ⟨0xc0, 9, 4, 0, 0xffffffff, 0, 0, 0, 0, 0⟩,  -- APPEND_DATA0 to APPEND_DATA8
  ⟨0x400, 256, 4, 0, 0, 0xffffffff, 0, 0, 0, 0⟩,  -- RECENT0 to RECENT255
  ⟨0x800, 1, 4, 0, 0x1, 0, 0, 0, 0x1, 0⟩  -- FILTER
  ]

/-- FARPORT page (R323). -/
def rowsFarportA : List RegRow := [
  ⟨0x40, 1, 4, 0, 0x3ff, 0, 0, 0, 0, 0x3ff⟩,  -- HUB_ID
  ⟨0x44, 1, 4, 0, 0x3, 0, 0, 0, 0, 0⟩,  -- PORT_SEL
  ⟨0x48, 1, 4, 0, 0, 0xffff1f, 0, 0, 0, 0⟩,  -- PORT_STATUS
  ⟨0x4c, 1, 4, 0x1, 0x1, 0, 0, 0, 0, 0⟩,  -- PORT_CFG
  ⟨0x50, 1, 4, 0, 0x3ff, 0, 0, 0, 0, 0⟩,  -- PEER_SEL
  ⟨0x54, 1, 4, 0, 0, 0xffff0f, 0, 0, 0, 0⟩,  -- PEER_STATUS
  ⟨0x58, 1, 4, 0, 0xff, 0, 0, 0, 0, 0⟩,  -- EXP_SEL
  ⟨0x5c, 2, 4, 0, 0x1fffff, 0, 0, 0, 0, 0⟩,  -- EXP_BASE to EXP_SIZE
  ⟨0x64, 1, 4, 0, 0x3ff03ff, 0, 0, 0, 0, 0⟩,  -- EXP_PEERS
  ⟨0x68, 1, 4, 0, 0x807f7f3f, 0, 0, 0, 0, 0⟩,  -- EXP_CTRL
  ⟨0x6c, 1, 4, 0x104, 0xffff, 0, 0, 0, 0, 0⟩,  -- RX_GRANT
  ⟨0x70, 1, 4, 0x4001000, 0, 0x7ff1fff, 0, 0, 0, 0⟩,  -- RX_POOL
  ⟨0x74, 1, 4, 0x320a, 0xffff, 0, 0, 0, 0, 0⟩,  -- HB_CFG
  ⟨0x78, 1, 4, 0, 0, 0x3ffff0f, 0, 0, 0, 0⟩,  -- OP_RESULT
  ⟨0x80, 6, 4, 0, 0, 0xffffffff, 0, 0, 0, 0⟩,  -- PEER_FAIL_CNT to RETRY_CNT
  ⟨0x98, 1, 4, 0, 0, 0, 0, 0x1, 0, 0⟩  -- CNT_CTRL
  ]

/-- FARPORT page (R323). -/
def rowsFarportB : List RegRow := [
  ⟨0x800, 1, 4, 0x40, 0xffff, 0, 0, 0, 0xffff, 0⟩  -- RETRY_CFG
  ]

def rowsFarport : List RegRow := rowsFarportA ++ rowsFarportB

/-- DMA page (R301, R302). -/
def rowsDma : List RegRow := [
  ⟨0x40, 1, 4, 0, 0xff37ff3f, 0, 0, 0, 0, 0⟩,  -- CH_CFG
  ⟨0x44, 1, 4, 0x10000, 0xff007f, 0, 0, 0, 0, 0⟩,  -- EVT_CFG
  ⟨0x48, 1, 4, 0, 0xffffffc0, 0, 0, 0, 0, 0⟩,  -- DESC_LO
  ⟨0x4c, 5, 8, 0, 0xffffffff, 0, 0, 0, 0, 0⟩,  -- DESC_HI to CRC_PART
  ⟨0x50, 1, 4, 0, 0, 0xfff, 0, 0, 0, 0⟩,  -- STATE
  ⟨0x58, 1, 4, 0, 0xffffffff, 0, 0, 0, 0, 0⟩,  -- CUR_SRC_HI
  ⟨0x60, 1, 4, 0, 0xffffffff, 0, 0, 0, 0, 0⟩,  -- CUR_DST_HI
  ⟨0x68, 1, 4, 0, 0x1ffff, 0, 0, 0, 0, 0⟩,  -- ROWS_LEFT
  ⟨0x70, 1, 4, 0, 0, 0xffff, 0, 0, 0, 0⟩,  -- EVT_CREDIT
  ⟨0x74, 5, 4, 0, 0, 0xffffffff, 0, 0, 0, 0⟩,  -- BURST_CNT to EVT_LOST_CNT
  ⟨0x88, 1, 4, 0, 0, 0, 0, 0x1, 0, 0⟩,  -- CNT_CTRL
  ⟨0x8c, 1, 4, 0, 0, 0xff0f, 0, 0, 0, 0⟩,  -- OP_RESULT
  ⟨0x800, 1, 4, 0x430, 0xff1, 0, 0, 0, 0xff1, 0⟩  -- XCFG
  ]

/-- STK page (R240). -/
def rowsStk : List RegRow := [
  ⟨0x40, 1, 4, 0, 0, 0x1f07, 0, 0, 0, 0⟩,  -- STATUS
  ⟨0x44, 1, 4, 0, 0x11f, 0, 0, 0, 0, 0⟩,  -- RATE_CFG
  ⟨0x48, 4, 4, 0, 0x77777777, 0, 0, 0, 0, 0⟩,  -- PORT_PRIO0 to PORT_PRIO3
  ⟨0x58, 1, 4, 0x80000040, 0x800000ff, 0, 0, 0, 0, 0⟩,  -- RETRAIN_CFG
  ⟨0x5c, 1, 4, 0, 0, 0x3fffffff, 0, 0, 0, 0⟩,  -- RETRAIN_STATUS
  ⟨0x60, 1, 4, 0, 0, 0xffffffff, 0, 0, 0, 0⟩,  -- RETRAIN_NEED
  ⟨0x64, 1, 4, 0, 0, 0x3ff, 0, 0, 0, 0⟩,  -- TEMP
  ⟨0x68, 1, 4, 0, 0, 0xff, 0, 0, 0, 0⟩,  -- LANE_STATUS
  ⟨0x6c, 1, 4, 0, 0, 0xffffffff, 0, 0, 0, 0⟩,  -- PAR_CNT
  ⟨0x70, 1, 4, 0, 0x3f, 0, 0, 0, 0, 0⟩,  -- OP_SEL
  ⟨0x74, 1, 4, 0, 0, 0xffff0f, 0, 0, 0, 0⟩,  -- OP_RESULT
  ⟨0x80, 5, 4, 0, 0xffffffff, 0, 0, 0, 0, 0⟩,  -- TIMING0 to TIMING4
  ⟨0x94, 1, 4, 0, 0x3fffffff, 0, 0, 0, 0, 0⟩,  -- TIMING5
  ⟨0x98, 1, 4, 0, 0xffff, 0, 0, 0, 0, 0⟩,  -- TIMING6
  ⟨0x800, 1, 4, 0, 0xff, 0, 0, 0, 0xff, 0⟩,  -- TRUMP_CAP
  ⟨0x804, 1, 4, 0x180, 0x7ff, 0, 0, 0, 0x7ff, 0⟩  -- SCHED_CFG
  ]

/-- CHE page (R242, R447). -/
def rowsChe : List RegRow := [
  ⟨0x40, 2, 4, 0, 0, 0x17f3f7f, 0, 0, 0, 0⟩,  -- Q_STATUS_PC0 to Q_STATUS_PC1
  ⟨0x48, 1, 4, 0x1030, 0x7f7f, 0, 0, 0, 0, 0⟩,  -- WDRAIN
  ⟨0x4c, 1, 4, 0x3, 0xf, 0, 0, 0, 0, 0⟩,  -- NARROW_CFG
  ⟨0x50, 2, 4, 0, 0, 0xfffff, 0, 0, 0, 0⟩,  -- REF_STATUS to PAR_STATUS
  ⟨0x58, 1, 4, 0, 0, 0xffffffff, 0, 0, 0, 0⟩,  -- FWD_CNT
  ⟨0x5c, 1, 4, 0, 0, 0x77, 0, 0, 0, 0⟩,  -- STATE
  ⟨0xc0, 4, 4, 0, 0x80003fff, 0, 0, 0, 0, 0⟩,  -- PERF_SEL0 to PERF_SEL3
  ⟨0xd0, 4, 4, 0, 0, 0xffffffff, 0, 0, 0, 0⟩,  -- PERF_CNT0 to PERF_CNT3
  ⟨0x800, 1, 4, 0x3, 0x3, 0, 0, 0, 0x3, 0⟩  -- DRAIN_CFG
  ]

/-- The registers of a page class beyond the common header. -/
def PageClass.rows : PageClass → List RegRow
  | .hub => rowsHub
  | .boot => rowsBoot
  | .sec => rowsSec
  | .part => rowsPart
  | .map => rowsMap
  | .cache => rowsCache
  | .arith => rowsArith
  | .trick => rowsTrick
  | .pagemgr => rowsPagemgr
  | .tm => rowsTm
  | .gate => rowsGate
  | .ras => rowsRas
  | .therm => rowsTherm
  | .perf => rowsPerf
  | .journal => rowsJournal
  | .farport => rowsFarport
  | .dma => rowsDma
  | .stk => rowsStk
  | .che => rowsChe

/-- PAGE_ID.CLASS, PAGE_CAP and the PAGE_IRQ_STATUS bits in use (R473, R488 and the chapters' lists). -/
def PageClass.info : PageClass → Nat × Word × Word
  | .hub => (0x1, 0x704, 0x71)
  | .boot => (0x2, 0x503, 0x1f)
  | .sec => (0x3, 0x503, 0x1f)
  | .part => (0x4, 0x103, 0x1)
  | .map => (0x5, 0x206, 0x3)
  | .cache => (0x6, 0x203, 0x3)
  | .arith => (0x7, 0x202, 0x3)
  | .trick => (0x8, 0x203, 0x3)
  | .pagemgr => (0x9, 0x403, 0xf)
  | .tm => (0xa, 0x100, 0x1)
  | .gate => (0xb, 0x403, 0xf)
  | .ras => (0xc, 0x903, 0x1ff)
  | .therm => (0xd, 0x402, 0xf)
  | .perf => (0xe, 0x503, 0x1f)
  | .journal => (0xf, 0x203, 0x3)
  | .farport => (0x10, 0x507, 0x1f)
  | .dma => (0x20, 0x60b, 0x3f)
  | .stk => (0x30, 0x303, 0x7)
  | .che => (0x40, 0x2, 0x0)

end Sys2Proof.Machine
end

