-- ==== Sys2Proof/Config.lean ====
section
/-!
DEFINITION. What the spec leaves to the implementation, to the integrator's tie-offs or to chance, as constants WITHOUT a
body (no proof can see a value of one).
-/
namespace Sys2Proof.Config

/-- HUB_INFO of this implementation: MINOR, MAJOR, IMPL_ID (R487, R489). DESIGN CHOICE, log 4. -/
opaque hubInfo : Word
/-- The integrator's tie-off of the TAP's IDCODE (R98). DESIGN CHOICE, log 4. -/
opaque tapIdcode : Word
/-- The integrator's tie-off of MAP.DEFAULT_BASE, in units of 1 GiB (R126). DESIGN CHOICE, log 4. -/
opaque defaultBaseGiB : BitVec 34
/-- The health test that failed, as DRBG_ERROR names it (R461): the source's own. A free value. DESIGN CHOICE, log 6. -/
opaque failingTest : Nat → BitVec 8
/-- What the CTR_DRBG gives at its n-th generate request (R367): a free value. DESIGN CHOICE, log 6. -/
opaque drbg : Nat → BitVec 256
/-- The n-th draw u of a segment's reduction generator, 0 to 65,535 (R169): a free value. DESIGN CHOICE, log 6. -/
opaque srDraw : Nat → BitVec 16
/-- The read and write credits a peer hub grants this one when their pair enters UP (R315): the peer's own RX_GRANT where an
export of it lists this hub, else 0. No frame of this spec carries them: a free value. DESIGN CHOICE, log 8. -/
opaque peerGrant : Nat → BitVec 8 × BitVec 8
/-- The content of the n-th answer on the management network that the spec names without giving its bytes
(SPDM, PLDM and MCTP messages, R385, R382, R412). DESIGN CHOICE, log 7. -/
opaque mgmtAnswer : Nat → List Byte
/-- Byte i of what the flash holds where a copy of journal entry n failed its read-back (R458), 64 bytes a copy: a free value.
DESIGN CHOICE, log 9. -/
opaque tornByte : Nat → Nat → Byte
/-- The content of a channel record of the training store: implementation's own (R409). DESIGN CHOICE, log 4. -/
opaque channelRecord : Nat → Nat → Byte
/-- The digest of the ROM (R386, measurement 1). DESIGN CHOICE, log 4. -/
opaque romDigest : BitVec 384

end Sys2Proof.Config
end

