-- ==== Sys2Proof/Machine/SMap.lean ====
section
/-!
DEFINITION. Sparse maps in one canonical form: addresses strictly rising, and no entry equal to what an unlisted address
reads as. Every table of the hub, the registers, the flash and the stacks' bytes are held so; equal contents are equal data.
-/
namespace Sys2Proof.Machine

/-- A sparse map: (address, value) pairs. What an unlisted address reads as is given to each operation. -/
abbrev SMap (α : Type) := List (Nat × α)

namespace SMap
variable {α : Type}

/-- What the map holds at k; d k where k is not listed. -/
def get (d : Nat → α) : SMap α → Nat → α
  | [], k => d k
  | (i, v) :: m, k => if i = k then v else get d m k

/-- The map without an entry for k. -/
def erase : SMap α → Nat → SMap α
  | [], _ => []
  | (i, v) :: m, k => if i = k then erase m k else (i, v) :: erase m k

/-- The map with v listed at k, in its place. -/
def insert : SMap α → Nat → α → SMap α
  | [], k, v => [(k, v)]
  | (i, u) :: m, k, v =>
    if k < i then (k, v) :: (i, u) :: m else if i = k then (k, v) :: m else (i, u) :: insert m k v

/-- The map after writing v at k: writing what an unlisted address reads as removes the entry. -/
def set [DecidableEq α] (d : Nat → α) (m : SMap α) (k : Nat) (v : α) : SMap α :=
  if v = d k then erase m k else insert m k v

/-- The map after applying f to what it holds at k. -/
def update [DecidableEq α] (d : Nat → α) (m : SMap α) (k : Nat) (f : α → α) : SMap α :=
  set d m k (f (get d m k))

/-- The canonical form: addresses strictly rising from lo, no entry equal to its default. -/
def wfFrom [DecidableEq α] (d : Nat → α) : Nat → SMap α → Bool
  | _, [] => true
  | lo, (i, v) :: m => decide (lo ≤ i) && decide (v ≠ d i) && wfFrom d (i + 1) m

/-- The canonical form of a whole map. -/
def wf [DecidableEq α] (d : Nat → α) (m : SMap α) : Bool := wfFrom d 0 m

/-- The entries whose address passes a test are dropped. -/
def dropIf (p : Nat → Bool) (m : SMap α) : SMap α := m.filter (fun e => !p e.1)

end SMap
end Sys2Proof.Machine
end

