-- ==== Sys2Proof/Machine/State.lean ====
section
/-!
DEFINITION. Every piece of state the spec gives the hub, as plain data, and the state right after power-on reset is
asserted (State.reset). Registers live in `regs`, keyed by window offset (R468); what the units hold beside them lives in
one structure per unit.
-/
namespace Sys2Proof.Machine

/-- Who made a request or a line operation (R43, R46). -/
inductive Src where
  /-- A host port (R52). -/
  | port (p : BitVec 5)
  /-- A DMA channel (R274). -/
  | dma (c : BitVec 6)
  /-- An arriving request of a peer hub, by its arriving context (R316). -/
  | remote (ctx : Nat)
  /-- The dump writer (R453). -/
  | dump
  /-- The hub's own: the KEEP reads of a KITTY_FILL (R149), the locks of internal tricks (R201). -/
  | kitty
  deriving DecidableEq, Repr

/-- Where a request goes (R102). -/
inductive Target where
  /-- Local memory, from line index L of the partition window. -/
  | local (line : Nat)
  /-- A peer hub's export, at an offset. -/
  | peer (hub : BitVec 10) (exp : BitVec 8) (offset : Nat)
  /-- A host window (DMA only, R99). -/
  | host (window : Nat)
  deriving DecidableEq, Repr

/-- Where a request stands. -/
inductive ReqPhase where
  /-- Waiting at its arbiter (R247). -/
  | arbiter
  /-- Passed; its line operations are ready, ordered or answered (R59). -/
  | passed
  /-- Waiting at the far-port endpoint for a pair credit (R315). -/
  | endpoint
  /-- Sent to a peer hub, waiting for its RESPONSE (R317). -/
  | sent
  /-- Answered PEER_FAIL: its late RESPONSE is discarded (R319). -/
  | failed
  /-- Sent on a host-memory interface (R275). -/
  | hmm
  deriving DecidableEq, Repr

/-- An accepted request that has unanswered line operations. -/
structure Req where
  id : Nat
  src : Src
  hdr : Header
  flits : List Sector
  /-- Interval-counter time of acceptance (R67). -/
  accepted : Nat
  lines : Nat
  target : Target
  phase : ReqPhase
  /-- Line indices already answered. -/
  answered : List Nat
  /-- Arbiter queue: class, or scavenger (R254); the frame it belongs to (R265). -/
  scav : Bool
  frame : Nat
  /-- Context of the far-port endpoint or of the host-memory interface (TAG, R307, R275), and the pair's peer. -/
  ctx : Nat
  deriving DecidableEq, Repr

/-- Kinds of line operation (R59), and what the hub itself orders at a line (R192, R210). -/
inductive OpKind where
  | read
  | write
  | reduce
  | clearPoison
  /-- The lock of phase two of a trick's commit, by slot (R192). -/
  | lock (slot : BitVec 8)
  /-- The lock of an internal trick, by its context: segment × 4 + number (R201). -/
  | ilock (ctx : Nat)
  /-- A page release's hold (R210). -/
  | hold
  deriving DecidableEq, Repr

/-- A line operation. -/
structure LineOp where
  id : Nat
  kind : OpKind
  src : Src
  /-- The request it belongs to, and its line index there. -/
  req : Nat
  idx : Nat
  part : BitVec 6
  line : Nat
  hdr : Header
  /-- Enabled bytes of the line (R58), and the written bytes in their places; for a REDUCE the payload from byte 0 (R162). -/
  en : BitVec 256
  data : Line
  accepted : Nat
  /-- Level at the channel engines (R224). -/
  level : Nat
  /-- A write, reduction or CLEAR_POISON already answered at its order instant (R47, R48). -/
  acked : Bool
  /-- The fetch it waits for, if it asked for one (0: none). -/
  fetch : Nat
  /-- It waits for a victim (R139). -/
  wantWay : Bool
  /-- Sectors of a reduction that its own fetch found lost: they are skipped (R174). -/
  skip : BitVec 4
  /-- SR_EN of its partition and OVF_CFG.INF_ON_OVF as they stood at a reduction's order instant (R182). -/
  sr : Bool
  infOvf : Bool
  deriving DecidableEq, Repr

/-- A response waiting at a port's outbound channel (R63, R64). -/
structure Response where
  tag : BitVec 16
  line : BitVec 4
  code : BitVec 3
  opcode : BitVec 4
  result : BitVec 8
  data : List Sector
  /-- Its acceptance returns a read credit (R72); not so the answer to a request sent without credits (R74). -/
  credit : Bool
  deriving DecidableEq, Repr

/-- Credits of a host port or DMA channel (R70 to R73), and the port's outbound responses. -/
structure Port where
  rdHeld : Nat
  wrHeld : Nat
  rdFlight : Nat
  wrFlight : Nat
  /-- Credits freed while the hub grants none (R433, R437): they return once it grants again. -/
  rdOwed : Nat
  wrOwed : Nat
  /-- Credits granted that no outbound bundle has carried yet (R52, R73). -/
  rdGrant : Nat
  wrGrant : Nat
  out : List Response
  deriving DecidableEq, Repr

def Port.empty : Port := ⟨0, 0, 0, 0, 0, 0, 0, 0, []⟩

/-- A frame at a gate (R61, R265): bytes declared, bytes still to come, admitted, held for the next window of its class,
window starts at which it was refused within the present cycle, and whether a full cycle has refused it (R266). -/
structure GFrame where
  bytes : Nat
  left : Nat
  admitted : Bool
  held : Bool
  refused : Nat
  oversize : Bool
  deriving DecidableEq, Repr

def GFrame.empty : GFrame := ⟨0, 0, false, false, 0, false⟩

/-- A policer (R252, R253): the values written, the values in force, the buckets in 1/256 byte, its counters. -/
structure Policer where
  cfg : Word
  cir : Word
  pir : Word
  cbs : Word
  pbs : Word
  cfgNow : Word
  cirNow : Word
  pirNow : Word
  cbsNow : Word
  pbsNow : Word
  tc : Nat
  tp : Nat
  green : Nat
  yellow : Nat
  red : Nat
  deriving DecidableEq, Repr

def Policer.off : Policer := ⟨0, 0, 0, 0, 0, 0, 0, 0, 0, 0, 0, 0, 0, 0, 0⟩

/-- A shaper (R255): the values written, the values in force, signed tokens in 1/256 byte. -/
structure Shaper where
  cfg : Word
  rate : Word
  burst : Word
  cfgNow : Word
  rateNow : Word
  burstNow : Word
  tokens : Int
  deriving DecidableEq, Repr

def Shaper.off : Shaper := ⟨0, 0, 0, 0, 0, 0, 0⟩

/-- A gate list (R258 to R264). -/
structure GateList where
  /-- 0 IDLE, 1 PENDING, 2 RUNNING, 3 RUNNING_PENDING (R260). -/
  st : BitVec 2
  bank : BitVec 1
  pend : BitVec 1
  late : Bool
  cur : Nat
  /-- Ticks left of the entry in force. -/
  left : Nat
  base : BitVec 64
  start : BitVec 64
  skipped : Nat
  held : Nat
  overrun : Nat
  oversize : Nat
  overrunCfg : BitVec 8
  /-- STOP waits for the next tick (R264). -/
  stopping : Bool
  deriving DecidableEq, Repr

def GateList.idle : GateList := ⟨0, 0, 0, false, 0, 0, 0, 0, 0, 0, 0, 0, 0, false⟩

/-- Traffic management (chapter 8). -/
structure Tm where
  /-- Keyed by partition × 2 + direction. -/
  pol : SMap Policer
  /-- Keyed by arbiter × 8 + class. -/
  shp : SMap Shaper
  /-- Last source served in each queue, keyed by arbiter × 8 + class (R249). -/
  served : SMap Nat
  /-- Open host frame of each port and class, keyed by port × 8 + class: the frame's number (0: none). -/
  openFrame : SMap Nat
  /-- Frames by number. -/
  frames : SMap GFrame
  lists : SMap GateList
  /-- BANK_CFG, keyed by list × 2 + bank. -/
  bankCfg : SMap Word
  /-- Gate entries, keyed by (list × 2 + bank) × 64 + index. -/
  entries : SMap Word
  /-- Epoch count (R245), and the interval-counter time of the last tick or reset (R246). -/
  epoch : BitVec 64
  lastTick : Nat
  deriving DecidableEq, Repr

/-- States of a way (R132). -/
inductive WayState where
  | invalid | filling | valid | reducing | locked
  deriving DecidableEq, Repr

/-- One way of one set, with its tag entry (R132). -/
structure Way where
  st : WayState
  part : BitVec 6
  /-- L >> 19 (R131). -/
  upper : Nat
  v : BitVec 4
  m : BitVec 4
  rank : BitVec 4
  prot : Bool
  pin : Bool
  kw : BitVec 4
  data : Line
  /-- Held by a row repair (R347). -/
  held : Bool
  /-- The line index, which the tag, the set and the slice name together. -/
  line : Nat
  /-- When it entered LOCKED (R214 LOCK_MAX). -/
  since : Nat
  /-- Symbols that the slice holds wrong in the code words of its sectors (R328, R338). -/
  flaw : Flips
  deriving DecidableEq, Repr

def Way.invalid : Way := ⟨.invalid, 0, 0, 0, 0, 0, false, false, 0, 0, false, 0, 0, []⟩

/-- A write-back buffer entry (R136): sectors it holds and their dirty bits, the tags of the clean sectors dropped at eviction
by sector (R332), an update or fetch still running in it (R175), symbols held wrong (R338). -/
structure WbEntry where
  part : BitVec 6
  line : Nat
  seg : BitVec 2
  m : BitVec 4
  data : Line
  tags : List (Nat × BitVec 64)
  busy : Bool
  flaw : Flips
  deriving DecidableEq, Repr

/-- The metadata word of a line (R329). -/
structure Meta where
  mac : BitVec 56
  poison : Bool
  void : Bool
  deriving DecidableEq, Repr

/-- A word in the metadata cache of its line's slice (R129, R331): its logical slab and offset, whether it was changed and is
not yet written, and the symbols its unit holds wrong (R338). -/
structure MetaWord where
  slab : Nat
  off : Nat
  word : Meta
  dirty : Bool
  flaw : Code
  deriving DecidableEq, Repr

/-- A kitty window (R144). -/
structure KittyWin where
  base : Nat
  units : Nat
  ctrl : Word
  deriving DecidableEq, Repr

def KittyWin.off : KittyWin := ⟨0, 0, 0⟩

/-- The cache die and what its home slices hold (chapter 4). -/
structure Cache where
  /-- Keyed by (slice × 4096 + set) × 16 + way. -/
  ways : SMap Way
  wb : List WbEntry
  /-- Kitty windows enabled, keyed 0 to 15. -/
  kitty : SMap KittyWin
  /-- Ways in force, k (R143). -/
  k : Nat
  /-- The words in the metadata caches, oldest first (R129, R331). -/
  words : List MetaWord
  /-- Victims that a waiting allocation has chosen: way, and the partition and line it is chosen for (R139). -/
  chosen : List (Nat × Nat × Nat)
  /-- Lines of the window under KITTY_FILL that its reads have not yet been ordered for: owner, next line, lines left (R149). -/
  kfill : Nat × Nat × Nat
  /-- Lines that a FLUSH found dirty and has not written back yet: partition and line (R149). -/
  flush : List (Nat × Nat)
  deriving DecidableEq, Repr

/-- What a stack fetch is for (R222, R333). -/
inductive FetchKind where
  /-- A fill of absent sectors of a line. -/
  | fill
  /-- A partial-write fetch into a way (R135). -/
  | merge
  /-- A reduction fetch into a way (R172). -/
  | reduce
  /-- Clean sectors read into a write-back buffer entry for a reduction or partial write (R175). -/
  | wb
  /-- A narrow read (R147). -/
  | narrow
  /-- The fetch of CLEAR_POISON (R336). -/
  | clear
  /-- A metadata sector for the slices of its lines (R129, R331). -/
  | word
  /-- A metadata sector for the read-modify-write of its integrity unit (R331). -/
  | rmw
  /-- The stored sectors whose tags a write-back needs (R332). -/
  | tags
  /-- What an internal trick reads of a line or a metadata sector (R201, R351). -/
  | copy
  /-- A row repair's fetch of what has no window line (R346 step 3). -/
  | repair
  /-- A scrubber read (R344). -/
  | scrub
  deriving DecidableEq, Repr

/-- A stack fetch in progress: the sectors it brings, the code words already read at their column commands (R223), and the level,
TRUMP, partition and shaper of what caused it (R224, R256, R447). -/
structure Fetch where
  id : Nat
  kind : FetchKind
  part : BitVec 6
  line : Nat
  /-- Where it was steered (R352): physical slab, offset (of a metadata line, where it reads one); logical slab. -/
  ps : Nat
  off : Nat
  slab : Nat
  want : BitVec 4
  got : BitVec 4
  words : List (Nat × Code)
  /-- The narrow read served (0: none). -/
  op : Nat
  level : Nat
  trump : Bool
  cause : Option (BitVec 6)
  shaper : Option Nat
  deriving DecidableEq, Repr

/-- Requests and line operations under way (chapters 1, 2, 4). -/
structure Lines where
  reqs : List Req
  /-- Line operations past their arbiter, before their order instant. -/
  ready : List LineOp
  /-- Line operations past their order instant and not yet completed, in order of order instant (R42, R133). -/
  ordered : List LineOp
  fetches : List Fetch
  /-- Lines held by a repair or a page release, or reserved by an internal trick: keyed lists of (part, line). -/
  reserved : List (BitVec 6 × Nat)
  /-- Writes that wait before their order instant for a PENDING chunk's room, in the order in which they began to wait (R342). -/
  room : List Nat
  next : Nat
  deriving DecidableEq, Repr

/-- A physical slab (R113) and its error history (R359). -/
structure PSlab where
  st : BitVec 3
  logical : BitVec 11
  prev : Option (BitVec 11)
  readmitted : Bool
  ce : Nat
  ue : Nat
  repairs : Nat
  /-- The last repair exceeded PPR_CFG.LIMIT (R349). -/
  slow : Bool
  deriving DecidableEq, Repr

def PSlab.absent : PSlab := ⟨0, 0, none, false, 0, 0, 0, false⟩

/-- A logical slab: state code of R113, physical slab, HOME_SEG (R41). -/
structure LSlab where
  st : BitVec 2
  phys : BitVec 11
  home : BitVec 2
  deriving DecidableEq, Repr

def LSlab.unused : LSlab := ⟨0, 0, 0⟩

/-- A partition's settings (R122). -/
structure PartCfg where
  cfg : Word
  base : BitVec 64
  units : Nat
  first : Nat
  count : Nat
  ports : Word
  dma : BitVec 64
  enabled : Bool
  /-- MANAGED and enabled without a fitting table (R218). -/
  stale : Bool
  deriving DecidableEq, Repr

def PartCfg.off : PartCfg := ⟨0, 0, 0, 0, 0, 0, 0, false, false⟩

/-- A peer or host window in force (R99): base, units, PW_TARGET or 0, control word with VALID. -/
structure Window where
  base : BitVec 64
  units : Nat
  target : Word
  ctrl : Word
  deriving DecidableEq, Repr

def Window.off : Window := ⟨0, 0, 0, 0⟩

/-- The address map (chapter 3). -/
structure AMap where
  phys : SMap PSlab
  logical : SMap LSlab
  /-- Logical numbers given at S4; TALON_STATUS.TOTAL. -/
  count : Nat
  talonTotal : Nat
  parts : SMap PartCfg
  peerWin : SMap Window
  hostWin : SMap Window
  setTable : SMap (BitVec 11)
  /-- Deck tables, keyed by partition × 4096 + index. -/
  deck : SMap (BitVec 16)
  /-- Slab size code of GEOM.SLAB and S (R104, R105). -/
  dens : Nat
  sids : Nat
  deriving DecidableEq, Repr

/-- A chunk whose fill is pending (R342): logical slab, region, chunk, segment, when it became PENDING. -/
structure PendChunk where
  slab : Nat
  region : Nat
  chunk : Nat
  seg : BitVec 2
  since : Nat
  deriving DecidableEq, Repr

/-- A migration (R351): logical slab, source, target, watermark, attempts of the present batch that failed, cause (R461). -/
structure Migration where
  k : Nat
  a : Nat
  b : Nat
  wm : Nat
  /-- Failed attempts of the present batch, up to 4; 5 once its lines are reserved; and the locks met at the last attempt: it tries
  again once they are released (R201). -/
  tries : Nat
  blocked : List Nat
  cause : Nat
  /-- Waiting for the RETIRE_START (0), running (1), waiting for RETIRE_END (2) or ABANDON (3) to be committed. -/
  phase : Nat
  deriving DecidableEq, Repr

/-- A row repair (R346): phase 1 waits for its journal entry, 2 holds and fetches, 3 runs the sequence. -/
structure Repair where
  ps : Nat
  bg : Nat
  bank : Nat
  row : Nat
  phase : Nat
  deriving DecidableEq, Repr

/-- The scrubber's walk of one stack (R344): physical slab and offset next read, and whether the pass has walked the stack. -/
structure Scrub where
  ps : Nat
  off : Nat
  done : Bool
  deriving DecidableEq, Repr

def Scrub.start : Scrub := ⟨0, 0, false⟩

/-- Regions, repair and retirement (chapter 11). -/
structure Ras where
  /-- FILLED maps, keyed by logical slab × 256 + region (R339). -/
  filled : SMap (BitVec 64)
  pendChunks : List PendChunk
  /-- Repairs queued, per stack in order (R346). -/
  repairs : List Repair
  /-- Repair table: physical slab, bank group, bank, row (R348). -/
  table : List (Nat × Nat × Nat × Nat)
  migs : List Migration
  /-- Pending list, oldest first: (physical slab, logical slab, cause) (R354). -/
  pending : List (Nat × Nat × Nat)
  /-- Retirements waiting for their PENDING entry to be committed (R354). -/
  pendingSoon : List (Nat × Nat × Nat)
  /-- Slabs of a PC or channel still to be retired one after another: (physical slab, cause) (R234, R236). -/
  retireNext : List (Nat × Nat)
  /-- The scrubber's walks, keyed by stack (R344). -/
  scrub : SMap Scrub
  /-- Sources of abandoned migrations for which no later RETIRE_START, RETIRE_END or PENDING entry is committed (R353). -/
  abandoned : List Nat
  deriving DecidableEq, Repr

/-- A page table of a MANAGED partition (R203, R217): the PART values it was built for, and its places. -/
structure PageTable where
  built : Bool
  units : Nat
  first : Nat
  count : Nat
  ilv : BitVec 3
  fwdFirst : Nat
  revFirst : Nat
  w : Nat
  p : Nat
  deriving DecidableEq, Repr

def PageTable.unbuilt : PageTable := ⟨false, 0, 0, 0, 0, 0, 0, 0, 0⟩

/-- A page move (R212). -/
structure PageMove where
  part : BitVec 6
  page : Nat
  src : Nat
  dst : Nat
  mw : Nat
  tries : Nat
  blocked : List Nat
  deriving DecidableEq, Repr

/-- An internal trick whose locks are placed and whose reads are under way (R201): its context, the segment of its page move or
the target slab of its migration, its lines and its reads. -/
structure ITrick where
  ctx : Nat
  move : Option Nat
  target : Nat
  lines : List (Nat × Nat)
  reads : List Nat
  deriving DecidableEq, Repr

/-- A page release whose holds are placed or being placed (R210). -/
structure PageRel where
  part : BitVec 6
  page : Nat
  req : Nat
  deriving DecidableEq, Repr

/-- The page manager (chapter 6). -/
structure Pages where
  tables : SMap PageTable
  /-- Forward entries, keyed by partition × 2^26 + window page (R204). -/
  fwd : SMap (BitVec 64)
  /-- Reverse entries, keyed by partition × 2^26 + backing page (R207). -/
  rev : SMap (BitVec 64)
  /-- PAGE_LIMIT, LOW_MARK, SHARE.WEIGHT and NOSPACE_CNT per partition (R216). -/
  limit : SMap (BitVec 24)
  low : SMap (BitVec 24)
  weight : SMap (BitVec 4)
  noSpace : SMap Nat
  /-- STATUS.LOW as last seen, one bit per partition. -/
  lowSeen : BitVec 64
  /-- At most one move per segment. -/
  moves : SMap (Option PageMove)
  releases : List PageRel
  /-- Internal tricks with their locks placed, at most four to a segment (R201). -/
  itricks : List ITrick
  /-- Bytes of background work each partition has had, for the shares of R213. -/
  bgDone : SMap Nat
  deriving DecidableEq, Repr

/-- A staged line of a trick (R187, R188). -/
structure Staged where
  line : Nat
  en : BitVec 256
  data : Line
  deriving DecidableEq, Repr

/-- A compare condition (R191). -/
structure Cond where
  line : Nat
  operand : BitVec 64
  ne : Bool
  deriving DecidableEq, Repr

/-- The vote of one line's home slice (R192 to R197). -/
inductive Vote where
  | holds
  | fails (n : Nat)
  | collision
  | regather
  | poisoned
  deriving DecidableEq, Repr

/-- A host trick slot (R184, R185). -/
structure Trick where
  /-- 0 FREE, 1 OPEN, 2 COMMITTING, 3 EXPIRED. -/
  st : BitVec 2
  port : BitVec 5
  part : BitVec 6
  /-- 0 not over-size; else the detail of TOO_LARGE (R189). -/
  tooLarge : Nat
  lines : List Staged
  conds : List Cond
  opened : Nat
  limit : Nat
  /-- 1: phase one; 2: phase two. -/
  phase : Nat
  regathers : Nat
  votes : List (Nat × Vote)
  /-- Lines evicted since their home slices confirmed them (R194). -/
  lost : List Nat
  /-- The commit's request and its acceptance (R198). -/
  req : Nat
  accepted : Nat
  deriving DecidableEq, Repr

def Trick.free : Trick := ⟨0, 0, 0, 0, [], [], 0, 0, 0, 0, [], [], 0, 0⟩

/-- A read or narrow queue entry (R222, R224). -/
structure RdEntry where
  fetch : Nat
  sector : Nat
  ps : Nat
  off : Nat
  narrow : Bool
  level : Nat
  trump : Bool
  /-- When it entered its queue; none: its handshake is still held for want of a place (R33, R225). -/
  entered : Option Nat
  seq : Nat
  /-- Partition and shaper that caused it (none for background reads), for R256 and R447. -/
  part : Option (BitVec 6)
  shaper : Option Nat
  /-- An activate was issued for it. -/
  acted : Bool
  /-- What a read issued again after a parity error is ordered to return (R233). -/
  again : Option Code
  deriving DecidableEq, Repr

/-- A write queue entry (R222). -/
structure WrEntry where
  ps : Nat
  off : Nat
  sector : Nat
  word : Code
  seq : Nat
  part : Option (BitVec 6)
  acted : Bool
  deriving DecidableEq, Repr

/-- One bank of one SID of a PC: open row, refresh debt, and the slots of its last commands (R230, R231). -/
structure Bank where
  row : Option Nat
  debt : Nat
  act : Nat
  rd : Nat
  wr : Nat
  pre : Nat
  refUntil : Nat
  deriving DecidableEq, Repr

def Bank.idle : Bank := ⟨none, 0, 0, 0, 0, 0, 0⟩

/-- A command issued lately, for the reissue of a parity recovery (R233): slot, read entry or write entry. -/
structure Issued where
  slot : Nat
  rd : Option RdEntry
  wr : Option WrEntry
  deriving DecidableEq, Repr

/-- A pseudo-channel in its channel engine (chapter 7). -/
structure Pc where
  /-- State code of R237, and the state it returns to. -/
  st : BitVec 3
  prior : BitVec 3
  /-- 0 READ, 1 watermark drain, 2 idle drain (R226). -/
  drain : Nat
  rd : List RdEntry
  wr : List WrEntry
  /-- Keyed by SID × 16 + bank group × 4 + bank. -/
  banks : SMap Bank
  slot : Nat
  /-- Slots of the last activate, column read and column write of the PC, each with its bank group; last four activates. -/
  acts : List (Nat × Nat)
  lastRd : Nat × Nat
  lastWr : Nat × Nat
  /-- Successive level-8 reads issued while a lower one waited (R229). -/
  capRun : Nat
  issued : List Issued
  /-- Commands to be issued again after a parity error, in their original order (R233 step 4). -/
  reissue : List Issued
  /-- Slots until a parity recovery ends; interval-counter times of recent parity errors (R234). -/
  recover : Nat
  parity : List Nat
  seq : Nat
  /-- A sequence of R239 holds this bank. -/
  pprBank : Option Nat
  /-- First slots of the data of the column commands whose data is not over (R446). -/
  lanes : List Nat
  /-- Half slots at which the next refresh window starts: T_REFI apart (R231). -/
  windowAt : Nat
  deriving DecidableEq, Repr

def Pc.untrained : Pc :=
  ⟨0, 0, 0, [], [], [], 0, [], (0, 0), (0, 0), 0, [], [], 0, [], 0, none, [], 0⟩

/-- A stack controller (chapter 7, R240). -/
structure Stack where
  populated : Bool
  /-- The RATE_CFG and TIMING0 to TIMING6 in force. -/
  now : List Word
  /-- Slice running: 0 none, 1 data slice, 2 command/address slice; the PC or channel it runs on. -/
  slice : Nat
  slicePc : Nat
  /-- Next members of the two series, and slices taken in the present periods (R235). -/
  nextData : Nat
  nextCa : Nat
  dataDue : Nat
  caDue : Nat
  /-- A RETRAIN_SLICE operation waits for or is this slice. -/
  opSlice : Bool
  selfRefresh : Bool
  prepared : Bool
  /-- Lane delays in steps from the setting that the last training left, keyed by PC (0 to 63) for data lanes and by 64 + channel
  for command/address lanes (R235). -/
  delays : SMap (List Int)
  deriving DecidableEq, Repr

def Stack.absent : Stack := ⟨false, [], 0, 0, 0, 0, 0, 0, false, false, false, []⟩

/-- A DMA burst (R284, R285). -/
structure Burst where
  /-- First destination element of the descriptor (byte of a byte copy), and their number. -/
  first : Nat
  count : Nat
  /-- 0: waits to be repeated (R296); 1: reads; 2: writes. -/
  phase : Nat
  /-- Requests not yet issued for want of credits, and those outstanding. -/
  todo : List (Header × List Sector)
  reqs : List Nat
  /-- Source bytes read, by address. -/
  src : SMap Byte
  /-- Destination element bytes in the order of the CRC (R287). -/
  out : List Byte
  /-- First failing code. -/
  code : Nat
  /-- Its request line fell during it (R293). -/
  fell : Bool
  frame : Nat
  deriving DecidableEq, Repr

/-- A DMA channel beside its registers (chapter 9). -/
structure Dma where
  /-- State code of R290, and the state left for a power-down (R295). -/
  st : BitVec 3
  prior : BitVec 3
  pausePend : Bool
  overlap : Bool
  /-- RESULT and RESP of the last halt or ABORT. -/
  result : Nat
  resp : Nat
  /-- Held copy of the descriptor: sixteen words (R276). -/
  desc : List Word
  /-- A descriptor fetch: for START 1, chaining 2, RESUME 3 (0 none); its request (0: not yet issued). -/
  fetch : Nat
  fetchReq : Nat
  bursts : List Burst
  /-- Next destination element to be taken into a burst. -/
  pos : Nat
  /-- Row that a RESUME continued in, and what its source and destination addresses differ by from the descriptor's (R294). -/
  shiftRow : Nat
  shiftSrc : Nat
  shiftDst : Nat
  /-- Repeats of the failing burst, and when it is repeated (R296). -/
  retries : Nat
  retryAt : Nat
  /-- What waits for the drain: PAUSE 1, ABORT 2, power-down 3, halt 4, ABORT of a channel whose burst failed 5. -/
  stopFor : Nat
  /-- Completion writes under way: STATUS 1, OWN 2, STATUS of a halt 3, of an ABORT 4; their request (0: not yet issued). -/
  finish : Nat
  finishReq : Nat
  /-- What the fetch or the completion write was answered. -/
  got : List Sector
  err : Nat
  /-- Burst starts left to the channel in the round of its segment (R298). -/
  left : Nat
  deriving DecidableEq, Repr

def Dma.off : Dma := ⟨0, 0, false, false, 0, 0, [], 0, 0, [], 0, 0, 0, 0, 0, 0, 0, 0, 0, [], 0, 0⟩

/-- A host-memory interface (R275): credits held, requests waiting for them, next tag, and the requests sent with their tag,
number, time and header. -/
structure Hmm where
  rd : Nat
  wr : Nat
  waiting : List Nat
  tag : Nat
  sent : List (Nat × Nat × Nat × Header)
  deriving DecidableEq, Repr

def Hmm.off : Hmm := ⟨0, 0, [], 0, []⟩

/-- A far-port (R321). -/
structure FarPort where
  /-- 0 DOWN, 1 TRAINING, 2 UP. -/
  st : BitVec 2
  width : BitVec 2
  linkUp : Bool
  lanesOk : BitVec 8
  lanesUsed : BitVec 8
  enable : Bool
  /-- A frame is open at the receiver (R305). -/
  inFrame : Bool
  /-- Frames sent again in the present millisecond, and its start (R322). -/
  resent : Nat
  resentAt : Nat
  sent : List Frame
  trainFrom : Nat
  deriving DecidableEq, Repr

def FarPort.down : FarPort := ⟨0, 0, false, 0, 0, true, false, 0, 0, [], 0⟩

/-- An OFFER under way (R374, R376). -/
structure Offer where
  gen : Word
  start : BitVec 64
  key : BitVec 256
  first : Nat
  last : Nat
  rekey : Bool
  deriving DecidableEq, Repr

/-- A pair (R310 to R313, R372 to R376). -/
structure Pair where
  st : BitVec 2
  rdCrd : Nat
  wrCrd : Nat
  txNext : BitVec 64
  rxNext : BitVec 64
  /-- Frames held for retry, oldest first; the time of the last ACK progress. -/
  held : List Frame
  ackAt : Nat
  /-- Frames accepted and not yet acknowledged, and the time of the oldest. -/
  unacked : Nat
  unackedAt : Nat
  lastTx : Nat
  lastRx : Nat
  master : Option (BitVec 256)
  txKey : Option (BitVec 256)
  txGen : Word
  rxKey : Option (BitVec 256)
  rxGen : Word
  /-- Pending transmit key with its start, pending receive key with its start; the last contribution Q answered, by GEN. -/
  txPend : Option (BitVec 256 × BitVec 64)
  rxPend : Option (BitVec 256 × BitVec 64)
  lastQ : Option (Word × BitVec 256 × BitVec 256)
  offer : Option Offer
  txFrames : Nat
  deriving DecidableEq, Repr

def Pair.empty : Pair :=
  ⟨0, 0, 0, 0, 0, [], 0, 0, 0, 0, 0, none, none, 0, none, 0, none, none, none, none, 0⟩

/-- An arriving request (R316). -/
structure Arrival where
  ctx : Nat
  port : BitVec 2
  frame : Frame
  arrived : Nat
  lines : Nat
  codes : List (Nat × BitVec 3)
  data : List (Nat × List Sector)
  deriving DecidableEq, Repr

/-- An export in force (R314): EXP_BASE, EXP_SIZE, EXP_PEERS, EXP_CTRL. -/
structure ExportCfg where
  base : Word
  size : Word
  peers : Word
  ctrl : Word
  deriving DecidableEq, Repr

def ExportCfg.off : ExportCfg := ⟨0, 0, 0, 0⟩

/-- Peer hubs (chapter 10). -/
structure Far where
  ports : SMap FarPort
  pairs : SMap Pair
  arrivals : List Arrival
  exps : SMap ExportCfg
  deriving DecidableEq, Repr

/-- A partition key slot (R366): XTS keys 1 and 2, MAC key. -/
structure KeySlot where
  k1 : BitVec 256
  k2 : BitVec 256
  km : BitVec 256
  deriving DecidableEq, Repr

/-- A wipe running or queued (R392): partition, slabs, key pair W, next slab index and offset. -/
structure Wipe where
  part : BitVec 6
  slabs : List (BitVec 11)
  k1 : BitVec 256
  k2 : BitVec 256
  at_ : Nat
  off : Nat
  deriving DecidableEq, Repr

/-- Capabilities of the SPDM responder (R385). -/
inductive SpdmCap where
  | cert | chal | measSig | keyEx | mutAuth | encrypt | mac | hbeat | keyUpd
  deriving DecidableEq, Repr

/-- Algorithms of the SPDM responder (R385). -/
inductive SpdmAlg where
  | ecdsaP384 | sha384 | secp384r1 | aes256Gcm
  deriving DecidableEq, Repr

/-- What the hub sends on the management network: an answer whose bytes the spec does not give (DESIGN CHOICE, log 7), or one it names. -/
inductive MgmtReply where
  | content (bytes : List Byte)
  /-- VERSION: major and minor numbers of the versions (R385). -/
  | versions (vs : List (Nat × Nat))
  | capabilities (cs : List SpdmCap)
  /-- ALGORITHMS: signatures of responder and requester, hashing, measurements, key exchange, AEAD. -/
  | algorithms (responder requester hash meas dhe aead : SpdmAlg)
  /-- CERTIFICATE: what the certificate area holds for slot 0 (R378). -/
  | certificate (chain : List Byte)
  /-- MEASUREMENTS: indices 1 to 6 (R386). -/
  | measurements (ms : List (BitVec 384))
  /-- A session is open; mutual authentication was requested (R385). -/
  | sessionOpen
  /-- An SPDM request refused; the error code is not named. -/
  | spdmError
  /-- SPDM ERROR ResponseNotReady with RDTExponent and RDTM (R387). -/
  | responseNotReady (rdtExponent rdtm : Nat)
  /-- SPDM ERROR Unspecified (R387). -/
  | unspecified
  /-- PLDM completion code ERROR (R382). -/
  | pldmError
  /-- PLDM completion code ERROR_NOT_READY (R412). -/
  | pldmNotReady
  deriving DecidableEq, Repr

/-- Security beside the SEC registers (chapter 12). -/
structure Sec where
  slots : SMap (Option KeySlot)
  /-- Generate requests made, and those since the last reseed (R367). -/
  draws : Nat
  sinceReseed : Nat
  errorAt : Nat
  wipes : List Wipe
  /-- Running image: slot, and the header bytes 0x000 to 0x1CF measured (R386). -/
  runHeader : List Byte
  staged : List Byte
  /-- Update progress (R382): 0 none, 1 requested, 2 data, 3 verified. -/
  update : Nat
  sessions : Nat
  /-- The management core resets alone (R383): pending until. -/
  coreReset : Bool
  /-- Management messages that wait while the core resets alone (R383), oldest first: a discovery (true) or a type 5 request. -/
  held : List Bool
  /-- Answers sent on the management network, oldest first. -/
  mgmtOut : List MgmtReply
  answers : Nat
  /-- Dynamic address taken by ENTDAA (R97). -/
  i3cAddr : Option (BitVec 7)
  /-- Reductions' draws made, and by segment those since its generator was last seeded (R169). -/
  srDraws : Nat
  srSince : SMap Nat
  /-- The management core's 256 KiB of SRAM (R24): the body of the running image from 0, firmware data in the upper 32 KiB (R379). -/
  sram : SMap Byte
  deriving DecidableEq, Repr

/-- A journal entry waiting or being written (R458, R459): TYPE, FLAGS, whether it is of class O (R461), payload. -/
structure JEntry where
  typ : BitVec 16
  flags : Byte
  ordinary : Bool
  payload : List Byte
  deriving DecidableEq, Repr

/-- The journal writer (chapter 15). -/
structure Journal where
  queue : List JEntry
  ordinary : List JEntry
  seq : Nat
  head : Option Nat
  crit : Option Nat
  ack : Option Nat
  ackLo : Word
  boot : Word
  recent : SMap Byte
  rdData : List Byte
  deriving DecidableEq, Repr

/-- One temperature source (R428 to R430): readings in 1/8 °C, newest first, at most eleven. -/
structure Source where
  hist : List Int
  last : Int
  valid : Bool
  fail : Bool
  hot : Bool
  deriving DecidableEq, Repr

def Source.unread : Source := ⟨[], 0, false, false, false⟩

/-- Temperature, power and supply (chapter 14). -/
structure Therm where
  sources : SMap Source
  /-- Throttle: milliseconds since the last rise (capped) and below the thresholds. -/
  sinceRise : Nat
  below : Nat
  /-- Power: activity counts of the present millisecond by coefficient 2, 3, 5, 6, 7; sum and number of estimates. -/
  act : List Nat
  sum : Nat
  num : Nat
  coef : SMap (BitVec 24)
  /-- Trip: step of R433 reached (0 none), its start. -/
  trip : Nat
  tripAt : Nat
  /-- Supply episode: running, warning asserted, start, time of the last deassertion, actions taken. -/
  episode : Bool
  warn : Bool
  start : Nat
  quietAt : Nat
  selfDone : Bool
  notReady : Bool
  /-- The episode has ended and stacks leave self-refresh. -/
  exiting : Bool
  deriving DecidableEq, Repr

/-- A sample record (R450). -/
structure Sample where
  addr : BitVec 64
  info : Word
  src : Word
  deriving DecidableEq, Repr

/-- A dump record being written (R453): step, its bytes, writes outstanding. -/
structure Dump where
  step : Nat
  bytes : List Byte
  out : List Nat
  now : Bool
  deriving DecidableEq, Repr

def Dump.idle : Dump := ⟨0, [], [], false⟩

/-- Counters (chapter 15). -/
structure Perf where
  /-- Global counters, keyed 0 to 63; counters of the engines, keyed by engine × 4 + n. -/
  cnt : SMap Nat
  eng : SMap Word
  armed : BitVec 64
  fifo : List Sample
  dump : Dump
  seq : Nat
  ticks : Nat
  skippedFlag : Bool
  stopping : Bool
  deriving DecidableEq, Repr

/-- Interrupt routing (R484, R485): MSI_ROUTE by page where it differs from reset, owners by vector, and by vector the
message the host has not yet acknowledged, with the partition it carries (R96). -/
structure Irq where
  route : SMap Word
  owner : SMap (BitVec 6)
  waiting : SMap (Option (BitVec 6))
  deriving DecidableEq, Repr

/-- Levels at the block edge (R82): inputs as the hub sees them, outputs as the hub drives them. -/
structure Pins where
  /-- HUB_PORST_N low; HUB_WRST_N low. -/
  porst : Bool
  wrst : Bool
  bootSeq : Bool
  fastOk : Bool
  stackFit : BitVec 8
  supplyWarn : Bool
  pdReq : BitVec 16
  pdAck : BitVec 16
  pdNak : BitVec 16
  dmaReq : BitVec 256
  /-- HUB_FATAL_N asserted. -/
  fatal : Bool
  deriving DecidableEq, Repr

/-- The bring-up sequencer beside the BOOT registers (chapter 13). -/
structure Boot where
  /-- Stages ended (0: none; n + 1: stage n has ended). -/
  ended : Nat
  /-- The stage the hub waits to run is permitted (START given, holds lifted). -/
  go : Bool
  fast : Bool
  /-- This bring-up follows a power-on reset, not a warm reset (R86, R401). -/
  cold : Bool
  /-- Interval-counter time of the last reset release. -/
  released : Nat
  /-- RESULT and DETAIL of the stages ended, for the legacy order (R414). -/
  results : List (Nat × Nat)
  /-- An H STAGE entry is being committed before the next stage. -/
  waitCommit : Bool
  /-- WARM_PREPARE: step reached (0 none). -/
  warm : Nat
  /-- Copy area of the training store whose record S2 chose (R408). -/
  store : Nat
  deriving DecidableEq, Repr

/-- A long operation in progress on a page (R482): opcode, result decided so far, index. -/
structure LongOp where
  opcode : Nat
  code : Nat
  index : Nat
  /-- Its end waits for a journal entry or for the unit, not for LONG_OP_END. -/
  waits : Bool
  deriving DecidableEq, Repr

/-- Everything the hub holds but its command queue, its fuses and its trip pin. -/
structure Hub where
  /-- The interval counter, in units of 10 ns (R35). -/
  now : Nat
  /-- The management core's machine timer, which counts PHY_REFCLK cycles (R35). -/
  mtime : BitVec 64
  pins : Pins
  boot : Boot
  /-- Registers, keyed by window offset (R468), where they differ from their reset values. -/
  regs : SMap Word
  /-- Latched HI halves (R472), keyed by initiator × 2^24 + offset. -/
  latch : SMap Word
  /-- Long operations in progress, keyed by page. -/
  ops : SMap (Option LongOp)
  /-- The answer to the last MMIO access: RDATA and CODE (R469). -/
  mmio : Word × BitVec 3
  ports : SMap Port
  /-- DMA channels' credits (R274). -/
  dports : SMap Port
  /-- Shared pools per segment: read tags and write buffers (R71). -/
  poolRd : SMap Nat
  poolWr : SMap Nat
  lines : Lines
  tm : Tm
  cache : Cache
  amap : AMap
  ras : Ras
  pages : Pages
  tricks : SMap Trick
  /-- Pseudo-channels, keyed by engine × 2 + PC. -/
  pcs : SMap Pc
  stk : SMap Stack
  dma : SMap Dma
  hmm : SMap Hmm
  far : Far
  sec : Sec
  journal : Journal
  therm : Therm
  perf : Perf
  irq : Irq
  /-- The stacks' bytes as stored, by slab, bank group, bank, row, column and byte of the column (R107, R118, R326). -/
  mem : List Host.Cell
  /-- The management flash, as what differs from the erased value 0xFF (R97, R378). -/
  flash : List Host.Cell
  deriving DecidableEq, Repr

/-- The fuses (R98, R380, R384): they only ever gain bits. -/
structure Fuses where
  /-- Anti-rollback fuses blown, F. -/
  svn : Nat
  /-- Digests of the signing keys, blown at production test. -/
  keys : List (Option (BitVec 384))
  revoked : BitVec 4
  identity : Option (BitVec 384)
  provLock : Bool
  /-- The test fuse is intact (R390). -/
  testOpen : Bool
  deriving DecidableEq, Repr

/-- What the IEEE 1149.1 TAP offers (R98). -/
inductive TapAccess where
  | bypass
  /-- The IDCODE register, `Config.tapIdcode`. -/
  | idcode
  | boundaryScan
  /-- The IEEE 1500 wrappers of the hub. -/
  | wrappers
  deriving DecidableEq, Repr

/-- What the TAP reaches, by the test fuse; no register, memory or key once it is blown. TRST_N holds the TAP in reset during
operation, and no command of the table drives it (R98). -/
def Fuses.tap (f : Fuses) : List TapAccess := [.bypass, .idcode, .boundaryScan] ++ (if f.testOpen then [.wrappers] else [])

/-- The state of the block. -/
structure State where
  hub : Hub
  fuses : Fuses
  /-- THERM_TRIP_N is asserted (R95). -/
  tripped : Bool
  /-- Commands waiting, first in, first out. -/
  pending : List Instr
  deriving DecidableEq, Repr

/-- Why a command ends the run as a fault. -/
inductive Fault where
  /-- Raised by the commands that report an event of a stack (a parity error, a temperature reading, a training) where no
  stack is fitted: there is nothing that could report it (R403). Safe: the model stops, no state is claimed. -/
  | noStack
  deriving DecidableEq, Repr

/-- Why a command has no meaning. -/
inductive Refusal where
  /-- Raised by exec for a command that has no meaning yet. Safe: nothing is claimed. -/
  | notModelled (mnemonic : String)
  /-- Raised by exec for a command whose operands do not make one command of the table (WellFormed): a request under the
  wrong opcode, more data flits than a request takes, a report with the wrong number of parts. Safe. -/
  | illFormed
  deriving DecidableEq, Repr

/-- The units with nothing in them: what HUB_PORST_N leaves (R85, R416). -/
def Hub.reset : Hub where
  now := 0
  mtime := 0
  pins := ⟨true, false, false, false, 0, false, 0, 0, 0, 0, false⟩
  boot := ⟨0, false, false, true, 0, [], false, 0, 0⟩
  regs := []
  latch := []
  ops := []
  mmio := (0, 0)
  ports := []
  dports := []
  poolRd := []
  poolWr := []
  lines := ⟨[], [], [], [], [], [], 1⟩
  tm := ⟨[], [], [], [], [], [], [], [], 0, 0⟩
  cache := ⟨[], [], [], 0, [], [], (0, 0, 0), []⟩
  amap := ⟨[], [], 0, 0, [], [], [], [], [], 0, 0⟩
  ras := ⟨[], [], [], [], [], [], [], [], [], []⟩
  pages := ⟨[], [], [], [], [], [], [], 0, [], [], [], []⟩
  tricks := []
  pcs := []
  stk := []
  dma := []
  hmm := []
  far := ⟨[], [], [], []⟩
  sec := ⟨[], 0, 0, 0, [], [], [], 0, 0, false, [], [], 0, none, 0, [], []⟩
  journal := ⟨[], [], 0, none, none, none, 0, 0, [], []⟩
  therm := ⟨[], 0, 0, [0, 0, 0, 0, 0], 0, 0, [], 0, 0, false, false, 0, 0, false, false, false⟩
  perf := ⟨[], [], 0, [], Dump.idle, 0, 0, false, false⟩
  irq := ⟨[], [], []⟩
  mem := []
  flash := []

/-- The block under HUB_PORST_N (R85): every register at its reset value, no command waiting, nothing in the fuses but what
the log names. -/
def State.reset : State where
  hub := Hub.reset
  fuses := ⟨0, [none, none, none, none], 0, none, false, true⟩
  tripped := false
  pending := []

end Sys2Proof.Machine
end

