-- ==== Sys2Proof/Machine/Ops.lean ====
section
/-!
DEFINITION. The named operations every meaning shares: registers and their reset values, unit tables, interrupts and MSI
messages (R484, R96), journal submissions (R461), global counters (R444 to R449), credits (R71, R72), answers (R63, R65)
and the stacks' stored bytes (R326).
-/
namespace Sys2Proof.Machine

/-! Pages (R473) -/

def pHub : Nat := 0
def pBoot : Nat := 1
def pSec : Nat := 2
def pPart : Nat := 3
def pMap : Nat := 4
def pCache : Nat := 5
def pArith : Nat := 6
def pTrick : Nat := 7
def pPagemgr : Nat := 8
def pTm : Nat := 9
def pGate : Nat := 10
def pRas : Nat := 11
def pTherm : Nat := 12
def pPerf : Nat := 13
def pJournal : Nat := 14
def pFarport : Nat := 15
def pDma (c : Nat) : Nat := 0x10 + c
def pStk (s : Nat) : Nat := 0x80 + s
def pChe (e : Nat) : Nat := 0x100 + e

/-- The class of a page; none for an unassigned page (R473, R474). -/
def pageClass (p : Nat) : Option PageClass :=
  if p < 16 then
    [PageClass.hub, .boot, .sec, .part, .map, .cache, .arith, .trick, .pagemgr, .tm, .gate, .ras, .therm, .perf, .journal,
      .farport][p]?
  else if p < 0x50 then some .dma
  else if 0x80 ≤ p ∧ p < 0x88 then some .stk
  else if 0x100 ≤ p ∧ p < 0x200 then some .che
  else none

/-- PAGE_ID.INSTANCE of a page (R473). -/
def pageInstance (p : Nat) : Nat := if p < 16 then 0 else if p < 0x50 then p - 0x10 else if p < 0x88 then p - 0x80 else p - 0x100

/-- The row of a register offset among the rows of a page. -/
def findRow (rows : List RegRow) (off : Nat) : Option RegRow :=
  rows.find? (fun r => r.off ≤ off && (off - r.off) % r.stride == 0 && (off - r.off) / r.stride < r.n)

/-- The reset value of a window offset (R475, the register tables); 0 where nothing is assigned. -/
def regReset (a : Nat) : Word :=
  match pageClass (a / 4096) with
  | none => 0
  | some c =>
    match findRow c.rows (a % 4096) with
    | some r => r.reset
    | none => 0

/-! Registers -/

/-- The word held at offset o of page p. -/
def Hub.rd (h : Hub) (p o : Nat) : Word := SMap.get regReset h.regs (4096 * p + o)
/-- The hub with a word put at offset o of page p. -/
def Hub.wr (h : Hub) (p o : Nat) (v : Word) : Hub := { h with regs := SMap.set regReset h.regs (4096 * p + o) v }
/-- A field of a register, n bits from lo. -/
def Hub.fld (h : Hub) (p o lo n : Nat) : Nat := bitsNat (h.rd p o) lo n
/-- The hub with a field of a register replaced. -/
def Hub.wrFld (h : Hub) (p o lo n v : Nat) : Hub := h.wr p o (putBits (h.rd p o) lo n v)
/-- A saturating counter field raised by k. -/
def Hub.bump (h : Hub) (p o lo n k : Nat) : Hub := h.wrFld p o lo n (satAdd (2 ^ n - 1) (h.fld p o lo n) k)
/-- A 64-bit saturating or wrapping value held in a LO and a HI register. -/
def Hub.rd64 (h : Hub) (p o : Nat) : Nat := (h.rd p o).toNat + 2 ^ 32 * (h.rd p (o + 4)).toNat
def Hub.wr64 (h : Hub) (p o v : Nat) : Hub := (h.wr p o (BitVec.ofNat 32 v)).wr p (o + 4) (BitVec.ofNat 32 (v / 2 ^ 32))

/-! Unit replacements -/

def Hub.setLines (h : Hub) (v : Lines) : Hub := { h with lines := v }
def Hub.setTm (h : Hub) (v : Tm) : Hub := { h with tm := v }
def Hub.setCache (h : Hub) (v : Cache) : Hub := { h with cache := v }
def Hub.setAmap (h : Hub) (v : AMap) : Hub := { h with amap := v }
def Hub.setRas (h : Hub) (v : Ras) : Hub := { h with ras := v }
def Hub.setPages (h : Hub) (v : Pages) : Hub := { h with pages := v }
def Hub.setFar (h : Hub) (v : Far) : Hub := { h with far := v }
def Hub.setSec (h : Hub) (v : Sec) : Hub := { h with sec := v }
def Hub.setJournal (h : Hub) (v : Journal) : Hub := { h with journal := v }
def Hub.setTherm (h : Hub) (v : Therm) : Hub := { h with therm := v }
def Hub.setPerf (h : Hub) (v : Perf) : Hub := { h with perf := v }
def Hub.setIrq (h : Hub) (v : Irq) : Hub := { h with irq := v }
def Hub.setBoot (h : Hub) (v : Boot) : Hub := { h with boot := v }
def Hub.setPins (h : Hub) (v : Pins) : Hub := { h with pins := v }

/-! Unit tables -/

def Hub.port (h : Hub) (p : Nat) : Port := SMap.get (fun _ => Port.empty) h.ports p
def Hub.putPort (h : Hub) (p : Nat) (v : Port) : Hub := { h with ports := SMap.set (fun _ => Port.empty) h.ports p v }
def Hub.dport (h : Hub) (c : Nat) : Port := SMap.get (fun _ => Port.empty) h.dports c
def Hub.putDport (h : Hub) (c : Nat) (v : Port) : Hub := { h with dports := SMap.set (fun _ => Port.empty) h.dports c v }
def Hub.poolOf (h : Hub) (wr : Bool) (g : Nat) : Nat := SMap.get (fun _ => 0) (if wr then h.poolWr else h.poolRd) g
def Hub.putPool (h : Hub) (wr : Bool) (g v : Nat) : Hub :=
  if wr then { h with poolWr := SMap.set (fun _ => 0) h.poolWr g v } else { h with poolRd := SMap.set (fun _ => 0) h.poolRd g v }
def Hub.policer (h : Hub) (k : Nat) : Policer := SMap.get (fun _ => Policer.off) h.tm.pol k
def Hub.putPolicer (h : Hub) (k : Nat) (v : Policer) : Hub :=
  { h with tm := { h.tm with pol := SMap.set (fun _ => Policer.off) h.tm.pol k v } }
def Hub.shaper (h : Hub) (k : Nat) : Shaper := SMap.get (fun _ => Shaper.off) h.tm.shp k
def Hub.putShaper (h : Hub) (k : Nat) (v : Shaper) : Hub :=
  { h with tm := { h.tm with shp := SMap.set (fun _ => Shaper.off) h.tm.shp k v } }
def Hub.gframe (h : Hub) (k : Nat) : GFrame := SMap.get (fun _ => GFrame.empty) h.tm.frames k
def Hub.putGframe (h : Hub) (k : Nat) (v : GFrame) : Hub :=
  { h with tm := { h.tm with frames := SMap.set (fun _ => GFrame.empty) h.tm.frames k v } }
def Hub.gate (h : Hub) (l : Nat) : GateList := SMap.get (fun _ => GateList.idle) h.tm.lists l
def Hub.putGate (h : Hub) (l : Nat) (v : GateList) : Hub :=
  { h with tm := { h.tm with lists := SMap.set (fun _ => GateList.idle) h.tm.lists l v } }
def Hub.way (h : Hub) (k : Nat) : Way := SMap.get (fun _ => Way.invalid) h.cache.ways k
def Hub.putWay (h : Hub) (k : Nat) (v : Way) : Hub :=
  { h with cache := { h.cache with ways := SMap.set (fun _ => Way.invalid) h.cache.ways k v } }
def Hub.pslab (h : Hub) (k : Nat) : PSlab := SMap.get (fun _ => PSlab.absent) h.amap.phys k
def Hub.putPslab (h : Hub) (k : Nat) (v : PSlab) : Hub :=
  { h with amap := { h.amap with phys := SMap.set (fun _ => PSlab.absent) h.amap.phys k v } }
def Hub.lslab (h : Hub) (k : Nat) : LSlab := SMap.get (fun _ => LSlab.unused) h.amap.logical k
def Hub.putLslab (h : Hub) (k : Nat) (v : LSlab) : Hub :=
  { h with amap := { h.amap with logical := SMap.set (fun _ => LSlab.unused) h.amap.logical k v } }
def Hub.part (h : Hub) (p : Nat) : PartCfg := SMap.get (fun _ => PartCfg.off) h.amap.parts p
def Hub.putPart (h : Hub) (p : Nat) (v : PartCfg) : Hub :=
  { h with amap := { h.amap with parts := SMap.set (fun _ => PartCfg.off) h.amap.parts p v } }
def Hub.peerWin (h : Hub) (i : Nat) : Window := SMap.get (fun _ => Window.off) h.amap.peerWin i
def Hub.hostWin (h : Hub) (i : Nat) : Window := SMap.get (fun _ => Window.off) h.amap.hostWin i
def Hub.trick (h : Hub) (i : Nat) : Trick := SMap.get (fun _ => Trick.free) h.tricks i
def Hub.putTrick (h : Hub) (i : Nat) (v : Trick) : Hub := { h with tricks := SMap.set (fun _ => Trick.free) h.tricks i v }
def Hub.pc (h : Hub) (i : Nat) : Pc := SMap.get (fun _ => Pc.untrained) h.pcs i
def Hub.putPc (h : Hub) (i : Nat) (v : Pc) : Hub := { h with pcs := SMap.set (fun _ => Pc.untrained) h.pcs i v }
def Hub.stack (h : Hub) (i : Nat) : Stack := SMap.get (fun _ => Stack.absent) h.stk i
def Hub.putStack (h : Hub) (i : Nat) (v : Stack) : Hub := { h with stk := SMap.set (fun _ => Stack.absent) h.stk i v }
def Hub.dmaCh (h : Hub) (i : Nat) : Dma := SMap.get (fun _ => Dma.off) h.dma i
def Hub.putDma (h : Hub) (i : Nat) (v : Dma) : Hub := { h with dma := SMap.set (fun _ => Dma.off) h.dma i v }
def Hub.hmmIf (h : Hub) (i : Nat) : Hmm := SMap.get (fun _ => Hmm.off) h.hmm i
def Hub.putHmm (h : Hub) (i : Nat) (v : Hmm) : Hub := { h with hmm := SMap.set (fun _ => Hmm.off) h.hmm i v }
def Hub.farPort (h : Hub) (i : Nat) : FarPort := SMap.get (fun _ => FarPort.down) h.far.ports i
def Hub.putFarPort (h : Hub) (i : Nat) (v : FarPort) : Hub :=
  { h with far := { h.far with ports := SMap.set (fun _ => FarPort.down) h.far.ports i v } }
def Hub.pair (h : Hub) (i : Nat) : Pair := SMap.get (fun _ => Pair.empty) h.far.pairs i
def Hub.putPair (h : Hub) (i : Nat) (v : Pair) : Hub :=
  { h with far := { h.far with pairs := SMap.set (fun _ => Pair.empty) h.far.pairs i v } }
def Hub.exp (h : Hub) (i : Nat) : ExportCfg := SMap.get (fun _ => ExportCfg.off) h.far.exps i
def Hub.source (h : Hub) (i : Nat) : Source := SMap.get (fun _ => Source.unread) h.therm.sources i
def Hub.putSource (h : Hub) (i : Nat) (v : Source) : Hub :=
  { h with therm := { h.therm with sources := SMap.set (fun _ => Source.unread) h.therm.sources i v } }
def Hub.table (h : Hub) (p : Nat) : PageTable := SMap.get (fun _ => PageTable.unbuilt) h.pages.tables p
def Hub.putTable (h : Hub) (p : Nat) (v : PageTable) : Hub :=
  { h with pages := { h.pages with tables := SMap.set (fun _ => PageTable.unbuilt) h.pages.tables p v } }
def Hub.keySlot (h : Hub) (p : Nat) : Option KeySlot := SMap.get (fun _ => none) h.sec.slots p
def Hub.putKeySlot (h : Hub) (p : Nat) (v : Option KeySlot) : Hub :=
  { h with sec := { h.sec with slots := SMap.set (fun _ => none) h.sec.slots p v } }

/-! Interrupts (R484, R485, R96) -/

/-- MSI_ROUTE of a page after either reset (R485). -/
def routeReset (p : Nat) : Word :=
  match pageClass p with
  | some .dma => putBit (BitVec.ofNat 32 (p - 0x10)) 31 true
  | _ => 0

/-- A page raises its MSI vector: a message is sent when the route is enabled, and merged into a waiting one (R96). -/
def Hub.msi (h : Hub) (p : Nat) : Hub :=
  let r := SMap.get routeReset h.irq.route p
  let v := bitsNat r 0 6
  if bit r 31 && (SMap.get (fun _ => none) h.irq.waiting v).isNone then
    { h with irq := { h.irq with
        waiting := SMap.set (fun _ => none) h.irq.waiting v (some (SMap.get (fun _ => 0) h.irq.owner v)) } }
  else h

/-- A cause bit of PAGE_IRQ_STATUS is set (R484). -/
def Hub.raise (h : Hub) (p n : Nat) : Hub :=
  let s := h.rd p 0x10
  let h' := h.wr p 0x10 (putBit s n true)
  if !bit s n && bit (h.rd p 0x14) n then h'.msi p else h'

/-- A page is pending while PAGE_IRQ_STATUS AND PAGE_IRQ_ENABLE is non-zero (R484). -/
def Hub.pagePending (h : Hub) (p : Nat) : Bool := decide (h.rd p 0x10 &&& h.rd p 0x14 ≠ 0)

/-- Pages that can be pending: those with PAGE_CAP.IRQ_TOP above 0 (R473). -/
def irqPages : List Nat := List.range 0x50 ++ (List.range 8).map pStk

/-- HUB_IRQ_N is asserted (R95, R484). -/
def Hub.irqPin (h : Hub) : Bool := irqPages.any h.pagePending

/-! The journal's queues (R459, R461) -/

def le16 (v : Nat) : List Byte := leBytes 2 v
def le32 (v : Nat) : List Byte := leBytes 4 v
def le64 (v : Nat) : List Byte := leBytes 8 v

/-- Flash address of the copy of entry n in half x (R458). -/
def journalCopy (n x : Nat) : Nat := 0x2000000 + 0x800000 * (x % 2) + 64 * (n % 131072)

def Hub.flashByte (h : Hub) (a : Nat) : Byte := SMap.get (fun _ => 0xFF) h.flash a
def Hub.flashBytes (h : Hub) (a n : Nat) : List Byte := (List.range n).map (fun i => h.flashByte (a + i))
def Hub.putFlash (h : Hub) (a : Nat) (bs : List Byte) : Hub :=
  { h with flash := (bs.zipIdx).foldl (fun m b => SMap.set (fun _ => 0xFF) m (a + b.2) b.1) h.flash }
/-- The n bytes from a erased (R458: erased flash reads 0xFF). -/
def Hub.eraseFlash (h : Hub) (a n : Nat) : Hub :=
  { h with flash := SMap.dropIf (fun k => a ≤ k && k < a + n) h.flash }

/-- A journal sector is erased in both halves (R460). -/
def Hub.sectorErased (h : Hub) (s : Nat) : Bool :=
  !h.flash.any (fun e => [0, 1].any (fun x =>
    0x2000000 + 0x800000 * x + 65536 * s ≤ e.1 && e.1 < 0x2000000 + 0x800000 * x + 65536 * (s + 1)))

/-- Sector of the journal that entry n lies in. -/
def journalSector (n : Nat) : Nat := n % 131072 / 1024

/-- Both sectors after the head's are erased (R460). -/
def Hub.twoErased (h : Hub) : Bool :=
  let s := journalSector h.journal.seq
  h.sectorErased ((s + 1) % 128) && h.sectorErased ((s + 2) % 128)

/-- The writer holds as many C, H and K entries as it can (R461). -/
def Hub.journalFull (h : Hub) : Bool := decide (32 ≤ h.journal.queue.length)

/-- An event whose entry finds the queue full waits before its effect: nothing happens yet (R461) (DEDUCED, log 15). -/
def Hub.withRoom (h : Hub) (f : Hub → Hub) : Hub :=
  let g := f h
  if h.journalFull ∧ h.journal.queue.length < g.journal.queue.length then h else g

/-- An H, C or K entry is submitted: never dropped (R461). -/
def Hub.submit (h : Hub) (typ : Nat) (critical : Bool) (payload : List Byte) : Hub :=
  let e : JEntry := ⟨BitVec.ofNat 16 typ, if critical then 1 else 4, false, payload⟩
  { h with journal := { h.journal with queue := h.journal.queue ++ [e] } }

/-- O entries are dropped: queue full, fewer than two erased sectors ahead, or FILTER.ORDINARY_OFF (R461). -/
def Hub.dropsOrdinary (h : Hub) : Bool :=
  decide (256 ≤ h.journal.ordinary.length) || !h.twoErased || bit (h.rd pJournal 0x800) 0

/-- An O entry is submitted (R461). -/
def Hub.submitO (h : Hub) (typ : Nat) (flags : Byte) (payload : List Byte) : Hub :=
  if h.dropsOrdinary then h.bump pJournal 0x6C 0 32 1
  else { h with journal := { h.journal with ordinary := h.journal.ordinary ++ [⟨BitVec.ofNat 16 typ, flags, true, payload⟩] } }

/-! Global counters (R444 to R449) -/

/-- One occurrence of a global event: code, amount, segment, stack, the partition that caused it, and the record of the
line operation for sampling (R445, R450). -/
structure PerfEvt where
  code : Nat
  amt : Nat
  seg : Option Nat
  stack : Option Nat
  part : Option (BitVec 6)
  sample : Option Sample
  deriving DecidableEq, Repr

/-- The hub is past S0 (R444). -/
def Hub.pastS0 (h : Hub) : Bool := decide (1 ≤ h.boot.ended)

/-- SELi counts the event (R444, R445). -/
def selCounts (sel : Word) (e : PerfEvt) : Bool :=
  let scope := bitsNat sel 8 4
  bit sel 31 && decide (bitsNat sel 0 8 = e.code) && decide (e.code ≠ 0) &&
  (scope == 0 || (e.seg == some (scope - 1) && decide (1 ≤ scope ∧ scope ≤ 4)) ||
    (e.stack == some (scope - 8) && decide (8 ≤ scope))) &&
  (!bit sel 18 || e.part == some (BitVec.ofNat 6 (bitsNat sel 12 6)))

/-- A record is pushed into the sample FIFO of 16 (R449). -/
def Hub.pushSample (h : Hub) (i : Nat) (s : Sample) : Hub :=
  if 16 ≤ h.perf.fifo.length then h.bump pPerf 0x68 0 32 1
  else
    let s' : Sample := { s with info := putBit (putBits s.info 22 6 i) 31 true }
    let h1 := { h with perf := { h.perf with fifo := h.perf.fifo ++ [s'] } }
    if h.perf.fifo = [] then h1.raise pPerf 2 else h1

/-- Counter i counts an event: overflow, freeze, arming and capture (R448, R449). -/
def Hub.countOne (h : Hub) (e : PerfEvt) (i : Nat) : Hub :=
  let sel := h.rd pPerf (0x100 + 16 * i)
  if sel = 0 ∨ h.fld pPerf 0x44 0 1 = 0 ∨ !selCounts sel e then h
  else
    let v := SMap.get (fun _ => 0) h.perf.cnt i + e.amt
    let ovf : Bool := decide (2 ^ 48 ≤ v)
    let v' := if ovf then (if bit sel 19 then 2 ^ 48 - 2 ^ bitsNat sel 20 5 else 0) else v
    let h1 := { h with perf := { h.perf with cnt := SMap.set (fun _ => 0) h.perf.cnt i v' } }
    let h2 := if ovf then
        let a := if i < 32 then 0x4C else 0x50
        let h' := (h1.wr pPerf a (putBit (h1.rd pPerf a) (i % 32) true)).raise pPerf 1
        let h' := if h'.fld pPerf 0x800 0 1 = 1 then h'.wrFld pPerf 0x44 0 1 0 else h'
        if bit sel 19 then { h' with perf := { h'.perf with armed := putBit h'.perf.armed i true } } else h'
      else h1
    match bit h2.perf.armed i, e.sample with
    | true, some s => ({ h2 with perf := { h2.perf with armed := putBit h2.perf.armed i false } }).pushSample i s
    | _, _ => h2

/-- An event occurs (R444). -/
def Hub.count (h : Hub) (e : PerfEvt) : Hub :=
  if h.pastS0 then (List.range 64).foldl (fun h i => h.countOne e i) h else h

/-! Sources and samples -/

/-- The segment of a source (R23, R274, R316). -/
def Src.seg : Src → Nat
  | .port p => p.toNat / 8
  | .dma c => c.toNat / 16
  | .remote n => n % 4
  | .dump => 0
  | .kitty => 0

/-- SRC and SRC_KIND of R450. -/
def Src.code : Src → Nat
  | .port p => p.toNat
  | .dma c => c.toNat + 64
  | .remote n => n % 4 + 128
  | .dump => 192
  | .kitty => 192

/-- The sample record of line idx of a request (R450). -/
def sampleOf (src : Src) (hd : Header) (idx lat : Nat) : Sample :=
  let tag := match src with | .port _ => hd.tag.toNat | _ => 0
  ⟨BitVec.ofNat 64 (hd.addr.toNat / 64 * 64 + 256 * idx),
   putBits (BitVec.ofNat 32 tag) 16 6 hd.part.toNat,
   putBits (putBits (putBits (BitVec.ofNat 32 src.code) 8 4 idx) 12 4 hd.opcode.toNat) 16 16 (min lat 65535)⟩

/-- A global event of a line operation (R445) (DEDUCED, log 39). -/
def Hub.countLine (h : Hub) (code amt : Nat) (src : Src) (hd : Header) (idx lat : Nat) : Hub :=
  h.count ⟨code, amt, some src.seg, none, some hd.part, some (sampleOf src hd idx lat)⟩

/-! Credits (R70 to R73) -/

def creditFloor (wr : Bool) : Nat := if wr then 128 else 256
def creditLow (wr : Bool) : Nat := if wr then 16 else 32
def creditStep (wr : Bool) : Nat := if wr then 32 else 64
def creditCap (wr : Bool) : Nat := if wr then 384 else 768

def Port.held (p : Port) (wr : Bool) : Nat := if wr then p.wrHeld else p.rdHeld
def Port.flight (p : Port) (wr : Bool) : Nat := if wr then p.wrFlight else p.rdFlight
def Port.set (p : Port) (wr : Bool) (held flight : Nat) : Port :=
  if wr then { p with wrHeld := held, wrFlight := flight } else { p with rdHeld := held, rdFlight := flight }

/-- A port is granted n more credits: the next outbound bundles carry them (R72, R73). -/
def Port.grant (p : Port) (wr : Bool) (n : Nat) : Port :=
  if wr then { p with wrHeld := p.wrHeld + n, wrGrant := p.wrGrant + n } else { p with rdHeld := p.rdHeld + n, rdGrant := p.rdGrant + n }

/-- A request spends n credits, which bundles have carried by then: what they still have to carry is at most what is left
(R70, R73) (DESIGN CHOICE, log 15). -/
def Port.spend (p : Port) (wr : Bool) (n : Nat) : Port :=
  if wr then { p with wrHeld := p.wrHeld - n, wrFlight := p.wrFlight + n, wrGrant := min p.wrGrant (p.wrHeld - n) }
  else { p with rdHeld := p.rdHeld - n, rdFlight := p.rdFlight + n, rdGrant := min p.rdGrant (p.rdHeld - n) }

/-- The last pace window of a segment was slow: its top-up is suspended (R29, R38, R72). -/
def Hub.slowSeg (h : Hub) (g : Nat) : Bool := bit (h.rd pHub (0x110 + 4 * g)) 30

/-- Freed credits do not return: steps 1 to 5 of a trip (R433), the first 7 µs of a supply episode (R437), from WARM_PREPARE to
the reset (R417) (DEDUCED, log 33). -/
def Hub.noReturn (h : Hub) : Bool :=
  decide (h.boot.warm ≠ 0) || decide (h.therm.trip ≠ 0 ∧ h.therm.trip < 4) || (h.therm.episode && !h.therm.notReady)

/-- No credit leaves the shared pools (R433, R437, R438) (DEDUCED, log 33). -/
def Hub.noTopUp (h : Hub) : Bool := h.noReturn || h.therm.episode || h.therm.exiting

/-- Top-up of one port (R72) (DEDUCED, log 55). -/
def Hub.topUpPort (h : Hub) (wr : Bool) (p : Nat) : Hub :=
  let g := p / 8
  let q := h.port p
  let pool := h.poolOf wr g
  if h.slowSeg g ∨ h.noTopUp ∨ creditLow wr < q.held wr then h
  else
    let n := min (creditStep wr) (min pool (creditCap wr - (q.held wr + q.flight wr)))
    if n = 0 then h
    else (h.putPool wr g (pool - n)).putPort p (q.grant wr n)

/-- Top-up of every port of a segment (R72) (DEDUCED, log 55). -/
def Hub.topUp (h : Hub) (g : Nat) : Hub :=
  (List.range 8).foldl (fun h i => (h.topUpPort false (8 * g + i)).topUpPort true (8 * g + i)) h

/-- A port spends n credits (R70). -/
def Hub.spend (h : Hub) (wr : Bool) (p n : Nat) : Hub := (h.putPort p ((h.port p).spend wr n)).topUpPort wr p

def Port.owed (q : Port) (wr : Bool) : Nat := if wr then q.wrOwed else q.rdOwed
def Port.setOwed (q : Port) (wr : Bool) (n : Nat) : Port := if wr then { q with wrOwed := n } else { q with rdOwed := n }

/-- One credit returns: to the port at or below its floor, else to the shared pool (R72) (DEDUCED, log 55). -/
def Hub.giveBack (h : Hub) (wr : Bool) (p : Nat) : Hub :=
  let q := h.port p
  let f := q.flight wr - 1
  if h.noReturn then h.putPort p (q.setOwed wr (q.owed wr + 1))
  else if q.held wr + f ≤ creditFloor wr then (h.putPort p ((q.set wr (q.held wr) f).grant wr 1)).topUpPort wr p
  else ((h.putPort p (q.set wr (q.held wr) f)).putPool wr (p / 8) (h.poolOf wr (p / 8) + 1)).topUp (p / 8)

/-- The credits freed meanwhile return, and the shared pools serve again (R435, R437, R438) (DEDUCED, log 33). -/
def Hub.releaseOwed (h : Hub) : Hub :=
  let one (h : Hub) (wr : Bool) (p : Nat) : Hub :=
    let n := (h.port p).owed wr
    if n = 0 then h
    else (List.range n).foldl (fun h _ => h.giveBack wr p) (h.putPort p ((h.port p).setOwed wr 0))
  let h := (List.range 32).foldl (fun h p => one (one h false p) true p) h
  (List.range 4).foldl (fun h g => h.topUp g) h

/-- One credit of a DMA channel returns: to the channel at or below its floor of 64 or 32, else to the pool (R71, R274)
(DESIGN CHOICE, log 35). -/
def Hub.giveBackDma (h : Hub) (wr : Bool) (c : Nat) : Hub :=
  let q := h.dport c
  let f := q.flight wr - 1
  if q.held wr + f ≤ (if wr then 32 else 64) then h.putDport c (q.set wr (q.held wr + 1) f)
  else ((h.putDport c (q.set wr (q.held wr) f)).putPool wr (c / 16) (h.poolOf wr (c / 16) + 1)).topUp (c / 16)

/-! Requests and answers (R59, R63 to R65) -/

end Sys2Proof.Machine
namespace Sys2Proof

/-- Length in bytes of a request (R56). -/
def Header.len (hd : Header) : Nat := 64 * 2 ^ hd.size.toNat

/-- Line operations of a request (R59); one for SIZE 7 or an illegal OPCODE. -/
def Header.lineCount (hd : Header) : Nat :=
  if hd.size = 7 ∨ 10 ≤ hd.opcode.toNat ∨ hd.size.toNat ≤ 2 then 1 else 2 ^ (hd.size.toNat - 2)

/-- The credit type of an opcode: read for READ, write for every other (R57, R70). -/
def Header.wrCredit (hd : Header) : Bool := decide (hd.opcode ≠ 0)

end Sys2Proof
namespace Sys2Proof.Machine

def Hub.findReq (h : Hub) (id : Nat) : Option Req := h.lines.reqs.find? (fun r => r.id == id)
def Hub.putReq (h : Hub) (r : Req) : Hub :=
  { h with lines := { h.lines with reqs := h.lines.reqs.map (fun q => if q.id = r.id then r else q) } }
def Hub.dropReq (h : Hub) (id : Nat) : Hub :=
  { h with lines := { h.lines with reqs := h.lines.reqs.filter (fun q => q.id ≠ id) } }

/-- A fresh number for a request, line operation, fetch or frame. -/
def Hub.fresh (h : Hub) : Nat × Hub := (h.lines.next, { h with lines := { h.lines with next := h.lines.next + 1 } })

/-- Activity of the present millisecond: entry i of ⟨port flits, slice sectors, column accesses, activates, refreshes⟩ (R426)
(DESIGN CHOICE, log 53). -/
def Hub.act (h : Hub) (i n : Nat) : Hub := { h with therm := { h.therm with act := h.therm.act.set i (h.therm.act.getD i 0 + n) } }

/-- A response header enters a port's outbound channel (R63, R64) (DESIGN CHOICE, log 15). -/
def Hub.respond (h : Hub) (p : BitVec 5) (hd : Header) (idx code result : Nat) (data : List Sector) (credit : Bool) : Hub :=
  let q := h.port p.toNat
  let x : Response := ⟨hd.tag, BitVec.ofNat 4 idx, BitVec.ofNat 3 code, hd.opcode, BitVec.ofNat 8 result, data, credit⟩
  (h.putPort p.toNat { q with out := q.out ++ [x] }).act 0 (1 + data.length)

/-- A DMA channel receives the answer to a line of one of its requests: bytes of a read, the first failing code (R285, R296). -/
def Dma.answer (d : Dma) (r : Req) (idx code : Nat) (data : List Sector) (last : Bool) : Dma :=
  if r.id = d.fetchReq then { d with got := d.got ++ data, err := if d.err = 0 then code else d.err }
  else if r.id = d.finishReq then { d with err := if d.err = 0 then code else d.err }
  else
    let base := if idx = 0 then r.hdr.addr.toNat else r.hdr.addr.toNat / 256 * 256 + 256 * idx
    let bytes := (data.flatMap bytesOf).zipIdx
    { d with bursts := d.bursts.map (fun b =>
        if b.reqs.contains r.id then
          { b with
            src := bytes.foldl (fun m e => SMap.insert m (base + e.2) e.1) b.src
            code := if b.code = 0 then code else b.code
            reqs := if last then b.reqs.filter (fun q => q ≠ r.id) else b.reqs }
        else b) }

/-- Line idx of a request is answered: by its source the response, the credit, the record (R63, R72, R285, R316, R453), and
the global events of answers (R445). -/
def Hub.answer (h : Hub) (id idx code result : Nat) (data : List Sector) : Hub :=
  match h.findReq id with
  | none => h
  | some r =>
    let r' := { r with answered := r.answered ++ [idx] }
    let last : Bool := decide (r.lines ≤ r'.answered.length)
    let h := if last then h.dropReq id else h.putReq r'
    let lat := h.now - r.accepted
    let isRead : Bool := decide (r.hdr.opcode = 0)
    let ev (h : Hub) (k amt : Nat) : Hub := h.countLine k amt r.src r.hdr idx (if k = 0x0B ∨ k = 0x0C then lat else 0)
    let h := if code = 2 then ev h 0x08 1 else if code = 1 then (ev h 0x09 1).bump pRas 0x54 0 32 1 else if code = 4 then ev h 0x0A 1 else h
    let h := if isRead ∧ code = 0 then ev h 0x0B lat else h
    let h := if isRead ∧ h.fld pPerf 0x54 0 16 < lat then ev h 0x0C 1 else h
    match r.src with
    | .port p =>
      let h := h.respond p r.hdr idx code result data isRead
      if isRead then h else h.giveBack true p.toNat
    | .dma c =>
      let h := h.putDma c.toNat ((h.dmaCh c.toNat).answer r idx code data last)
      match r.target with
      | .host _ => h
      | _ => h.giveBackDma (!isRead) c.toNat
    | .remote ctx =>
      { h with far := { h.far with arrivals := h.far.arrivals.map (fun a =>
          if a.ctx = ctx then { a with codes := a.codes ++ [(idx, BitVec.ofNat 3 code)], data := a.data ++ [(idx, data)] } else a) } }
    | .dump =>
      let d := h.perf.dump
      let h1 := { h with perf := { h.perf with dump := { d with out := d.out.filter (fun q => q ≠ id) } } }
      let st := putBits (putBit (putBit (putBit (h.rd pPerf 0x8C) 0 false) 1 true) 2 false) 3 5 0
      if code = 0 then h1 else ({ h with perf := { h.perf with dump := Dump.idle } } : Hub).wr pPerf 0x8C st |>.raise pPerf 4
    | .kitty => h

/-- Every unanswered line of a request gets one code (R66, R94). -/
def Hub.answerAll (h : Hub) (id code : Nat) : Hub :=
  match h.findReq id with
  | none => h
  | some r => ((List.range r.lines).filter (fun i => !r.answered.contains i)).foldl (fun h i => h.answer id i code 0 []) h

/-! Reset and serving conditions -/

/-- A timed event takes place at its due time: the interval counter goes on to it when it stands before it (DESIGN CHOICE, log 3). -/
def Hub.reach (h : Hub) (t : Nat) : Hub :=
  { h with now := max h.now t, mtime := h.mtime + BitVec.ofNat 64 (max h.now t - h.now) }

/-- Either reset is asserted: the hub answers nothing (R85, R86, R469) (DEDUCED, log 49). -/
def Hub.inReset (h : Hub) : Bool := h.pins.porst || h.pins.wrst

/-- Stage S7 has ended: ports are open (R73, R398). -/
def Hub.afterS7 (h : Hub) : Bool := decide (8 ≤ h.boot.ended)

/-- A new request is answered NOT_READY without reaching traffic management: HUB_FATAL_N (R94), a thermal trip (R433, R435),
prepared for a warm reset (R417), beyond 7 µs of a supply episode (R437) (DEDUCED, log 34). -/
def Hub.closed (h : Hub) : Bool :=
  h.pins.fatal || decide (h.therm.trip ≠ 0) || decide (h.boot.warm ≠ 0) || (h.therm.episode && h.therm.notReady)

/-! Draws of the CTR_DRBG (R367) -/

/-- SEC.DRBG_STATUS.ERROR. -/
def Hub.drbgError (h : Hub) : Bool := bit (h.rd pSec 0x54) 0

/-- One generate request; reseeded first where it must be: before a key draw, or after 2^RESEED_LOG2 requests
(DEDUCED, log 47). -/
def Hub.draw (h : Hub) (reseed : Bool) : BitVec 256 × Hub :=
  let fresh : Bool := reseed || decide (2 ^ h.fld pSec 0x804 0 5 ≤ h.sec.sinceReseed)
  let h := if fresh then h.bump pSec 0x54 8 24 1 else h
  (Config.drbg h.sec.draws,
    h.setSec { h.sec with draws := h.sec.draws + 1, sinceReseed := if fresh then 1 else h.sec.sinceReseed + 1 })

/-! The stacks' stored bytes (R107, R326) -/

/-- The canonical form of the stacks' bytes: addresses rising, no byte equal to the 0 that an unlisted byte reads as (DESIGN CHOICE, log 2). -/
def Memory.wf (m : List Host.Cell) : Bool := SMap.wf (fun _ => 0) m

/-- Row, bank group, bank and first column of an offset, and the column of its sector k (R118). -/
def rowOf (s : Nat) : Nat := s / 64
def bgOf (s : Nat) : Nat := (s / 4 % 4) ^^^ (rowOf s % 4)
def bankOf (s : Nat) : Nat := (s / 16 % 4) ^^^ (rowOf s / 4 % 4)
def colOf (s : Nat) : Nat := 4 * (s % 4)
def sectorCol (s k : Nat) : Nat := colOf s + k

/-- Place of byte i of the code word of a sector: slab, bank group, bank, row and column (R107, R118). -/
def memKey (ps off sector i : Nat) : Nat :=
  ((((ps * 4 + bgOf off) * 4 + bankOf off) * 65536 + rowOf off) * 16 + sectorCol off sector) * 128 + i

def Hub.memByte (h : Hub) (k : Nat) : Byte := SMap.get (fun _ => 0) h.mem k

/-- The 72 bytes stored for a sector. -/
def Hub.memCode (h : Hub) (ps off sector : Nat) : Code :=
  BitVec.ofNat 576 (leNat ((List.range 72).map (fun i => h.memByte (memKey ps off sector i))))

/-- A code word stored (DESIGN CHOICE, log 2). -/
def Hub.putCode (h : Hub) (ps off sector : Nat) (w : Code) : Hub :=
  let f (m : List Host.Cell) (b : Byte × Nat) := SMap.set (fun _ => 0) m (memKey ps off sector b.2) b.1
  { h with mem := ((leBytes 72 w.toNat).zipIdx).foldl f h.mem }

/-! Commands as changes of the hub -/

/-- A command that changes the hub and nothing else: the queue, the fuses and the trip pin stay. -/
def onHub (s : State) (f : Hub → Hub) : Host.Outcome State Fault Refusal := .next { s with hub := f s.hub }

/-- A command whose operands must make one command of the table (WellFormed). -/
def onHubIf (ok : Bool) (s : State) (f : Hub → Hub) : Host.Outcome State Fault Refusal :=
  if ok then onHub s f else .refused .illFormed

/-- An event that only a fitted stack can report (R403). -/
def onStack (s : State) (st : Nat) (f : Hub → Hub) : Host.Outcome State Fault Refusal :=
  if s.hub.pins.stackFit.getLsbD st then onHub s f else .fault .noStack

end Sys2Proof.Machine
end

