-- ==== Sys2Proof/Machine/Access.lean ====
section
/-!
DEFINITION. Who may reach a page and when (R363, R365, R411, R454, R466, R470), how a refused access is recorded (R474, R480), and
long operations: their start by a write of GO and their end (R482, R483).
-/
namespace Sys2Proof.Machine

/-- Codes of R470. -/
def initCode : Initiator → Nat
  | .mgmt => 0
  | .priv => 1
  | .part _ => 2

/-- Where an initiator's latched HI halves lie (R472). -/
def initSlot : Initiator → Nat
  | .mgmt => 0
  | .priv => 1
  | .part p => 2 + p.toNat

def initPart : Initiator → Nat
  | .part p => p.toNat
  | _ => 0

/-- Response code of a refusal (R480). -/
def reasonCode (reason : Nat) : BitVec 3 := if reason = 1 ∨ reason = 3 then 4 else if reason = 9 then 5 else 3

/-- An access answered: RDATA and CODE (R469) (DESIGN CHOICE, log 15). -/
def Hub.respondMmio (h : Hub) (v : Word) (code : BitVec 3) : Hub := { h with mmio := (v, code) }

/-- A refused access is answered and recorded in PAGE_ERR (R475, R480). -/
def Hub.refuse (h : Hub) (init : Initiator) (page off : Nat) (wr : Bool) (reason : Nat) : Hub :=
  let e := off / 4 * 4 + (if wr then 4096 else 0) + reason * 8192 + initCode init * 131072 + initPart init * 1048576
  (h.wr page 0x18 (putBit (BitVec.ofNat 32 e) 31 true)).respondMmio 0 (reasonCode reason)

/-- An access to an unassigned page (R474). -/
def Hub.refuseUnmapped (h : Hub) (init : Initiator) (page : Nat) (wr : Bool) : Hub :=
  let e := page + (if wr then 4096 else 0) + initCode init * 8192 + initPart init * 65536
  ((h.wr pHub 0x58 (putBit (BitVec.ofNat 32 e) 31 true)).raise pHub 0).respondMmio 0 5

/-- The last stage whose end opens a page to the management core; none: from S0 (R411). -/
def openStage (c : PageClass) : Option Nat :=
  match c with
  | .hub | .boot => none
  | .sec | .stk | .map | .farport | .journal | .therm => some 1
  | .che => some 3
  | .part | .pagemgr | .trick | .arith | .ras => some 4
  | .cache | .tm | .gate | .perf => some 5
  | .dma => some 5

/-- A page is open to an initiator (R411). -/
def Hub.pageOpen (h : Hub) (init : Initiator) (c : PageClass) : Bool :=
  match openStage c, init with
  | none, _ => true
  | some n, .mgmt => decide (n + 1 ≤ h.boot.ended)
  | some _, _ => h.afterS7

/-- The partition filter of a global counter names a partition (R454). -/
def Hub.counterOf (h : Hub) (off p : Nat) : Bool :=
  let sel := h.rd pPerf (0x100 + (off - 0x100) / 16 * 16)
  decide (0x100 ≤ off ∧ off < 0x500 ∧ off % 16 < 12) && bit sel 18 && decide (bitsNat sel 12 6 = p)

/-- The access may be permitted to the initiator at some stage (R363, R365, R411, R427, R454, R466). -/
def Hub.permitted (h : Hub) (init : Initiator) (c : PageClass) (page off : Nat) (wr : Bool) : Bool :=
  match init with
  | .mgmt => true
  | .priv =>
    match c with
    | .sec | .boot => !wr
    | .journal => !wr && decide (off < 0x40 ∨ (0x400 ≤ off ∧ off < 0x800))
    | .therm => wr || !(off == 0x50 || off == 0x54 || off == 0x6C)
    | _ => true
  | .part p =>
    match c with
    | .perf => !wr && h.counterOf off p.toNat
    | .dma => decide (h.fld page 0x40 0 6 = p.toNat) && !(wr && (off == 0x40 || off == 0x08))
    | _ => false

def Hub.busy (h : Hub) (page : Nat) : Bool := (SMap.get (fun _ => none) h.ops page).isSome

/-- Reasons 1 to 3 of R480: NOT_READY, INITIATOR, BUSY; a read of the header is served also while BUSY (R483). -/
def Hub.refusal (h : Hub) (init : Initiator) (c : PageClass) (page off : Nat) (wr : Bool) : Option Nat :=
  if !h.permitted init c page off wr then some 2
  else if !h.pageOpen init c then some 1
  else if h.busy page ∧ (if wr then off ≠ 0x10 ∧ off ≠ 0x14 else 0x40 ≤ off) then some 3
  else none

/-! Long operations (R482) -/

/-- Offset of OP_RESULT, and width of its INDEX field (0: none), by page class. -/
def opResultOf (c : PageClass) : Nat × Nat :=
  match c with
  | .boot => (0x80, 3)
  | .sec => (0x74, 10)
  | .part => (0x68, 8)
  | .cache => (0x68, 8)
  | .trick => (0x78, 8)
  | .pagemgr => (0x7C, 8)
  | .gate => (0x78, 8)
  | .ras => (0xA4, 11)
  | .perf => (0x94, 0)
  | .journal => (0x7C, 0)
  | .farport => (0x78, 10)
  | .dma => (0x8C, 0)
  | .stk => (0x74, 8)
  | _ => (0, 0)

def Hub.opOf (h : Hub) (page : Nat) : Option LongOp := SMap.get (fun _ => none) h.ops page
def Hub.putLongOp (h : Hub) (page : Nat) (o : Option LongOp) : Hub := { h with ops := SMap.set (fun _ => none) h.ops page o }

/-- A long operation begins: BUSY, OPCODE; FAULT is cleared (R482). -/
def Hub.beginOp (h : Hub) (page opcode index : Nat) : Hub :=
  let h := h.wr page 0x1C (BitVec.ofNat 32 opcode)
  (h.wrFld page 0x0C 2 1 0).putLongOp page (some ⟨opcode, 0, index, false⟩)

/-- A long operation ends: OP_RESULT, then BUSY, GO and OPCODE, FAULT, then OP_DONE (R482). -/
def Hub.endOp (h : Hub) (page code : Nat) : Hub :=
  match h.opOf page, pageClass page with
  | some o, some c =>
    let (off, w) := opResultOf c
    let v := code + 256 * o.opcode + 65536 * (o.index % 2 ^ w)
    let h := (h.wr page off (BitVec.ofNat 32 v)).putLongOp page none
    (h.wrFld page 0x0C 2 1 (if code = 0 then 0 else 1)).raise page 0
  | _, _ => h

/-- The running operation of a page waits for something other than LONG_OP_END (DEDUCED, log 37). -/
def Hub.opWaits (h : Hub) (page : Nat) (code : Nat) : Hub :=
  match h.opOf page with
  | some o => h.putLongOp page (some { o with code := code, waits := true })
  | none => h

/-- CODE of an operation that has been accepted and waits to begin; no page's OP_RESULT uses it (DEDUCED, log 37). -/
def notBegun : Nat := 15

/-- A write of PAGE_OP with GO = 1 and an opcode of the page's table: refused, or the operation begins and f is what it does
at once. -/
def Hub.go (h : Hub) (init : Initiator) (page opcode : Nat) (index : Hub → Nat) (f : Hub → Hub) : Hub :=
  if h.inReset then h
  else match pageClass page with
    | none => h.refuseUnmapped init page true
    | some c =>
      let hostOp : Bool := !(init matches .mgmt)
      if c matches .part then
        if hostOp ∧ (opcode = 1 ∨ opcode = 4) ∧ h.permitted init c page 0x1C true ∧ h.fld pSec 0x44 0 1 = 0 then
          h.refuse init page 0x1C true 2
        else match h.refusal init c page 0x1C true with
          | some r => h.refuse init page 0x1C true r
          | none => f ((h.respondMmio 0 0).beginOp page opcode (index h))
      else match h.refusal init c page 0x1C true with
        | some r => h.refuse init page 0x1C true r
        | none =>
          if (c matches .dma) ∧ !h.afterS7 then h.refuse init page 0x1C true 1
          else f ((h.respondMmio 0 0).beginOp page opcode (index h))

end Sys2Proof.Machine
end

