-- ==== Sys2Proof/Machine/Crypto.lean ====
section
/-!
DEFINITION. The published ciphers and digests the spec uses by name (R8): AES-256 of FIPS 197, SHA-384 of FIPS 180-4 and ECDSA P-384 of
FIPS 186. A block or key of 16 or 32 bytes has byte i at bits [8i+7:8i]; so has a digest of 48 bytes.
-/
namespace Sys2Proof.Machine

/-! AES-256 (FIPS 197) -/

/-- Byte i of a number. -/
def nthByte (x i : Nat) : Nat := (x >>> (8 * i)) % 256

/-- A number from its bytes, the first one lowest. -/
def ofBytesNat (bs : List Nat) : Nat := bs.foldr (fun b a => b + 256 * a) 0

/-- The S-box, 32 entries a word. -/
def sboxTable : List Nat :=
   [0xc072a49cafa2d4adf04759fa7dc982ca76abd7fe2b670130c56f6bf27b777c63,
    0x75b227ebe28012079a059618c323c7041531d871f1e5a534ccf73f362693fdb7,
    0xcf584c4a39becb6a5bb1fc20ed00d153842fe329b3d63b52a05a6e1b1a2c8309,
    0xd2f3ff1021dab6bcf5389d928f40a351a89f3c507f02f94585334d43fbaaefd0,
    0xdb0b5ede14b8ee4688902a22dc4f816073195d643d7ea7c41744975fec130ccd,
    0x08ae7a65eaf4566ca94ed58d6d37c8e779e4959162acd3c25c2406490a3a32e0,
    0x9e1dc186b95735610ef6034866b53e708a8bbd4b1f74dde8c6b4a61c2e2578ba,
    0x16bb54b00f2d99416842e6bf0d89a18cdf2855cee9871e9b948ed9691198f8e1]

/-- The inverse S-box, 32 entries a word. -/
def invSboxTable : List Nat :=
   [0xcbe9dec444438e3487ff2f9b8239e37cfbd7f3819ea340bf38a53630d56a0952,
    0x25d18b6d49a25b76b224d92866a12e084ec3fa420b954cee3d23c2a632947b54,
    0x849d8da75746155edab9edfd5048706c92b6655dcc5ca4d41698688664f6f872,
    0x6b8a130103bdafc1020f3fca8f1e2cd00645b3b80558e4f70ad3bc8c00abd890,
    0x6edf751ce837f9e28535ade72274ac9673e6b4f0cecff297eadc674f4111913a,
    0xf45acd78fec0db9a2079d2c64b3e56fc1bbe18aa0e62b76f89c5291d711af147,
    0xef9cc9939f7ae52d0d4ab519a97f51605fec8027591012b131c7078833a8dd1f,
    0x7d0c2155631469e126d677ba7e042b17619953833cbbebc8b0f52aae4d3be0a0]

def sbox (x : Nat) : Nat := nthByte (sboxTable.getD (x / 32) 0) (x % 32)
def invSbox (x : Nat) : Nat := nthByte (invSboxTable.getD (x / 32) 0) (x % 32)

/-- Product by x in the field of AES. -/
def xtime (a : Nat) : Nat := if a < 128 then 2 * a else (2 * a) ^^^ 0x11B

/-- Product in the field of AES; the second factor below 16. -/
def fieldMul (a b : Nat) : Nat :=
  let a2 := xtime a
  let a4 := xtime a2
  let a8 := xtime a4
  (if b.testBit 0 then a else 0) ^^^ (if b.testBit 1 then a2 else 0) ^^^ (if b.testBit 2 then a4 else 0) ^^^
    (if b.testBit 3 then a8 else 0)

/-- SubBytes and ShiftRows. -/
def subShift (x : Nat) : Nat :=
  ofBytesNat ((List.range 16).map (fun i => sbox (nthByte x (i % 4 + 4 * ((i / 4 + i % 4) % 4)))))

/-- Their inverse. -/
def invSubShift (x : Nat) : Nat :=
  ofBytesNat ((List.range 16).map (fun i => invSbox (nthByte x (i % 4 + 4 * ((i / 4 + 4 - i % 4) % 4)))))

/-- Every column times a matrix whose rows are the turns of one row. -/
def mixBy (row : List Nat) (x : Nat) : Nat :=
  ofBytesNat ((List.range 16).map (fun i =>
    (List.range 4).foldl (fun a j => a ^^^ fieldMul (nthByte x (4 * (i / 4) + j)) (row.getD ((j + 4 - i % 4) % 4) 0)) 0))

def mixColumns (x : Nat) : Nat := mixBy [2, 3, 1, 1] x
def invMixColumns (x : Nat) : Nat := mixBy [14, 11, 13, 9] x

def subWord (w : Nat) : Nat := ofBytesNat ((List.range 4).map (fun i => sbox (nthByte w i)))
def rotWord (w : Nat) : Nat := w / 256 + w % 256 * 2 ^ 24

/-- The next eight words of the key schedule. -/
def nextKeys (w : List Nat) (rcon : Nat) : List Nat :=
  let g (i : Nat) : Nat := w.getD i 0
  let n0 := g 0 ^^^ subWord (rotWord (g 7)) ^^^ rcon
  let n1 := g 1 ^^^ n0
  let n2 := g 2 ^^^ n1
  let n3 := g 3 ^^^ n2
  let n4 := g 4 ^^^ subWord n3
  let n5 := g 5 ^^^ n4
  let n6 := g 6 ^^^ n5
  [n0, n1, n2, n3, n4, n5, n6, g 7 ^^^ n6]

/-- The key schedule from eight words on, one round constant for every further eight. -/
def scheduleFrom : List Nat → List Nat → List Nat
  | w, [] => w
  | w, r :: rs => w ++ scheduleFrom (nextKeys w r) rs

/-- The fifteen round keys. -/
def roundKeys (k : BitVec 256) : List Nat :=
  let ws := scheduleFrom ((List.range 8).map (fun i => bitsNat k (32 * i) 32)) [1, 2, 4, 8, 16, 32, 64]
  (List.range 15).map (fun r => (List.range 4).foldr (fun i a => ws.getD (4 * r + i) 0 + 2 ^ 32 * a) 0)

/-- AES-256 of a block. -/
def aes256 (k : BitVec 256) (x : BitVec 128) : BitVec 128 :=
  let ks := roundKeys k
  let y := ((ks.drop 1).take 13).foldl (fun y k => mixColumns (subShift y) ^^^ k) (x.toNat ^^^ ks.getD 0 0)
  BitVec.ofNat 128 (subShift y ^^^ ks.getD 14 0)

/-- Its inverse. -/
def aes256Inv (k : BitVec 256) (x : BitVec 128) : BitVec 128 :=
  let ks := (roundKeys k).reverse
  let y := ((ks.drop 1).take 13).foldl (fun y k => invMixColumns (invSubShift y ^^^ k)) (x.toNat ^^^ ks.getD 0 0)
  BitVec.ofNat 128 (invSubShift y ^^^ ks.getD 14 0)

/-! SHA-384 (FIPS 180-4) -/

def shaConst : List Nat :=
  [0x428a2f98d728ae22, 0x7137449123ef65cd, 0xb5c0fbcfec4d3b2f, 0xe9b5dba58189dbbc,
   0x3956c25bf348b538, 0x59f111f1b605d019, 0x923f82a4af194f9b, 0xab1c5ed5da6d8118,
   0xd807aa98a3030242, 0x12835b0145706fbe, 0x243185be4ee4b28c, 0x550c7dc3d5ffb4e2,
   0x72be5d74f27b896f, 0x80deb1fe3b1696b1, 0x9bdc06a725c71235, 0xc19bf174cf692694,
   0xe49b69c19ef14ad2, 0xefbe4786384f25e3, 0x0fc19dc68b8cd5b5, 0x240ca1cc77ac9c65,
   0x2de92c6f592b0275, 0x4a7484aa6ea6e483, 0x5cb0a9dcbd41fbd4, 0x76f988da831153b5,
   0x983e5152ee66dfab, 0xa831c66d2db43210, 0xb00327c898fb213f, 0xbf597fc7beef0ee4,
   0xc6e00bf33da88fc2, 0xd5a79147930aa725, 0x06ca6351e003826f, 0x142929670a0e6e70,
   0x27b70a8546d22ffc, 0x2e1b21385c26c926, 0x4d2c6dfc5ac42aed, 0x53380d139d95b3df,
   0x650a73548baf63de, 0x766a0abb3c77b2a8, 0x81c2c92e47edaee6, 0x92722c851482353b] ++
  [0xa2bfe8a14cf10364, 0xa81a664bbc423001, 0xc24b8b70d0f89791, 0xc76c51a30654be30,
   0xd192e819d6ef5218, 0xd69906245565a910, 0xf40e35855771202a, 0x106aa07032bbd1b8,
   0x19a4c116b8d2d0c8, 0x1e376c085141ab53, 0x2748774cdf8eeb99, 0x34b0bcb5e19b48a8,
   0x391c0cb3c5c95a63, 0x4ed8aa4ae3418acb, 0x5b9cca4f7763e373, 0x682e6ff3d6b2b8a3,
   0x748f82ee5defb2fc, 0x78a5636f43172f60, 0x84c87814a1f0ab72, 0x8cc702081a6439ec,
   0x90befffa23631e28, 0xa4506cebde82bde9, 0xbef9a3f7b2c67915, 0xc67178f2e372532b,
   0xca273eceea26619c, 0xd186b8c721c0c207, 0xeada7dd6cde0eb1e, 0xf57d4f7fee6ed178,
   0x06f067aa72176fba, 0x0a637dc5a2c898a6, 0x113f9804bef90dae, 0x1b710b35131c471b,
   0x28db77f523047d84, 0x32caab7b40c72493, 0x3c9ebe0a15c9bebc, 0x431d67c49c100d4c,
   0x4cc5d4becb3e42b6, 0x597f299cfc657e2a, 0x5fcb6fab3ad6faec, 0x6c44198c4a475817]

def shaStart : List Nat :=
  [0xcbbb9d5dc1059ed8, 0x629a292a367cd507, 0x9159015a3070dd17, 0x152fecd8f70e5939,
   0x67332667ffc00b31, 0x8eb44a8768581511, 0xdb0c2e0d64f98fa7, 0x47b5481dbefa4fa4]

def word64 (x : Nat) : Nat := x % 2 ^ 64
def rotr64 (x n : Nat) : Nat := (x >>> n) + (x % 2 ^ n) * 2 ^ (64 - n)

/-- Bytes as one number, first byte most significant. -/
def beNat (bs : List Byte) : Nat := bs.foldl (fun a b => 256 * a + b.toNat) 0

/-- The message schedule, newest word first. -/
def shaSchedule : Nat → List Nat → List Nat
  | 0, ws => ws
  | n + 1, ws =>
    let g (i : Nat) : Nat := ws.getD i 0
    let s0 := rotr64 (g 14) 1 ^^^ rotr64 (g 14) 8 ^^^ (g 14 >>> 7)
    let s1 := rotr64 (g 1) 19 ^^^ rotr64 (g 1) 61 ^^^ (g 1 >>> 6)
    shaSchedule n (word64 (s1 + g 6 + s0 + g 15) :: ws)

/-- One round, with constant plus schedule word. -/
def shaRound (s : List Nat) (kw : Nat) : List Nat :=
  let g (i : Nat) : Nat := s.getD i 0
  let e := g 4
  let a := g 0
  let t1 := g 7 + (rotr64 e 14 ^^^ rotr64 e 18 ^^^ rotr64 e 41) + ((e &&& g 5) ^^^ ((2 ^ 64 - 1 - e) &&& g 6)) + kw
  let t2 := (rotr64 a 28 ^^^ rotr64 a 34 ^^^ rotr64 a 39) + ((a &&& g 1) ^^^ (a &&& g 2) ^^^ (g 1 &&& g 2))
  [word64 (t1 + t2), a, g 1, g 2, word64 (g 3 + t1), e, g 5, g 6]

/-- One block of 128 bytes. -/
def shaBlock (s : List Nat) (b : List Byte) : List Nat :=
  let ws := shaSchedule 64 ((List.range 16).map (fun i => beNat ((b.drop (8 * (15 - i))).take 8)))
  let t := (List.zipWith (· + ·) shaConst ws.reverse).foldl shaRound s
  List.zipWith (fun x y => word64 (x + y)) s t

def shaBlocks : Nat → List Nat → List Byte → List Nat
  | 0, s, _ => s
  | n + 1, s, bs => shaBlocks n (shaBlock s (bs.take 128)) (bs.drop 128)

/-- SHA-384 of a byte string. -/
def sha384 (bs : List Byte) : BitVec 384 :=
  let len := bs.length
  let blocks := (len + 17 + 127) / 128
  let padded := bs ++ [0x80] ++ List.replicate (128 * blocks - len - 17) 0 ++ (leBytes 16 (8 * len)).reverse
  let s := shaBlocks blocks shaStart padded
  BitVec.ofNat 384 (leNat ((s.take 6).flatMap (fun w => (leBytes 8 w).reverse)))

/-! ECDSA P-384 (FIPS 186), on y² = x³ - 3x + b in Jacobian coordinates -/

def p384 : Nat := 2 ^ 384 - 2 ^ 128 - 2 ^ 96 + 2 ^ 32 - 1
def p384Order : Nat :=
  0xFFFFFFFFFFFFFFFFFFFFFFFFFFFFFFFFFFFFFFFFFFFFFFFFC7634D81F4372DDF581A0DB248B0A77AECEC196ACCC52973
def p384B : Nat :=
  0xB3312FA7E23EE7E4988E056BE3F82D19181D9C6EFE8141120314088F5013875AC656398D8A2ED19D2A85C8EDD3EC2AEF
def p384Gx : Nat :=
  0xAA87CA22BE8B05378EB1C71EF320AD746E1D3B628BA79B9859F741E082542A385502F25DBF55296C3A545E3872760AB7
def p384Gy : Nat :=
  0x3617DE4A96262C6F5D9E98BF9292DC29F8F41DBD289A147CE9DA3113B5F0B8C00A60B1CE1D7E819D7A431D7C90EA0E5F

/-- a to the power e modulo m, over 384 bits of e. -/
def powMod (m a e : Nat) : Nat :=
  (List.range 384).foldl (fun r i => let r := r * r % m; if e.testBit (383 - i) then r * a % m else r) 1

def invMod (m a : Nat) : Nat := powMod m a (m - 2)

/-- A point X, Y, Z; infinity where Z is 0. -/
structure Point where
  x : Nat
  y : Nat
  z : Nat
  deriving DecidableEq, Repr

def subP (a b : Nat) : Nat := (a + (p384 - b % p384)) % p384

def Point.double (q : Point) : Point :=
  let d := q.z * q.z % p384
  let g := q.y * q.y % p384
  let b := q.x * g % p384
  let a := 3 * subP q.x d * (q.x + d) % p384
  let x := subP (a * a) (8 * b)
  ⟨x, subP (a * subP (4 * b) x) (8 * g * g), 2 * q.y * q.z % p384⟩

def Point.add (q r : Point) : Point :=
  if q.z = 0 then r
  else if r.z = 0 then q
  else
    let qz := q.z * q.z % p384
    let rz := r.z * r.z % p384
    let u := q.x * rz % p384
    let s := q.y * rz * r.z % p384
    let h := subP (r.x * qz) u
    let t := subP (r.y * qz * q.z) s
    if h = 0 then (if t = 0 then q.double else ⟨1, 1, 0⟩)
    else
      let h2 := h * h % p384
      let h3 := h * h2 % p384
      let x := subP (t * t) (h3 + 2 * u * h2)
      ⟨x, subP (t * subP (u * h2) x) (s * h3), h * q.z * r.z % p384⟩

/-- k times a point. -/
def Point.times (q : Point) (k : Nat) : Point :=
  (List.range 384).foldl (fun r i => let r := r.double; if k.testBit (383 - i) then r.add q else r) ⟨1, 1, 0⟩

/-- The affine coordinates; none at infinity. -/
def Point.affine (q : Point) : Option (Nat × Nat) :=
  if q.z = 0 then none
  else
    let i := invMod p384 q.z
    some (q.x * i * i % p384, q.y * i * i * i % p384)

def p384Base : Point := ⟨p384Gx, p384Gy, 1⟩

/-- The 96 bytes X then Y of a private key's public key, big-endian. -/
def ecdsaPublic (d : BitVec 384) : List Byte :=
  match (p384Base.times (d.toNat % p384Order)).affine with
  | some (x, y) => (leBytes 48 x).reverse ++ (leBytes 48 y).reverse
  | none => List.replicate 96 0

/-- The signature r then s of a digest holds under a public key X then Y. -/
def ecdsaOk (pub : List Byte) (digest : BitVec 384) (sig : List Byte) : Bool :=
  let x := beNat (pub.take 48)
  let y := beNat (pub.drop 48)
  let r := beNat (sig.take 48)
  let s := beNat (sig.drop 48)
  let onCurve : Bool := y * y % p384 == (x * x * x + (p384 - 3) * x + p384B) % p384
  if p384 ≤ x ∨ p384 ≤ y ∨ !onCurve ∨ r = 0 ∨ p384Order ≤ r ∨ s = 0 ∨ p384Order ≤ s then false
  else
    let w := invMod p384Order s
    let z := beNat (leBytes 48 digest.toNat)
    match ((p384Base.times (z * w % p384Order)).add (Point.times ⟨x, y, 1⟩ (r * w % p384Order))).affine with
    | some (v, _) => v % p384Order == r
    | none => false

end Sys2Proof.Machine
end

