-- ==== Sys2Proof/Machine/Operands.lean ====
section
/-!
DEFINITION. Where an operand lies and how it is stored: slab geometry and the shuffle (R104 to R118), home segments (R40),
the stored code (R326, R327), the inline ciphers (R369, R371), AES-256-GCM and CRC-32C (R309, R287).
-/
namespace Sys2Proof.Machine

/-! Geometry (R104 to R108, R118) -/

/-- Lines per slab of GEOM.SLAB 0, 1, 2 (R104). -/
def slabLines (dens : Nat) : Nat := if dens = 0 then 786432 else if dens = 1 then 1048576 else 2097152
/-- Data lines per slab, D (R104, R106). -/
def dataLines (dens : Nat) : Nat := slabLines dens / 32 * 31
/-- WIN_SIZE units of 2 MiB per slab of an EXPLICIT window (R123). -/
def slabUnits (dens : Nat) : Nat := dataLines dens * 256 / 2097152

def Hub.bigD (h : Hub) : Nat := dataLines h.amap.dens

/-- Physical slab number (R107). -/
def slabNo (st ch pc sid : Nat) : Nat := st * 256 + ch * 8 + pc * 4 + sid
def slabStack (ps : Nat) : Nat := ps / 256
def slabEngine (ps : Nat) : Nat := ps / 256 * 32 + ps / 8 % 32
/-- Pseudo-channel index, engine × 2 + PC. -/
def slabPc (ps : Nat) : Nat := slabEngine ps * 2 + ps / 4 % 2
def slabSid (ps : Nat) : Nat := ps % 4

/-- Talon slab j of a stack (R108). -/
def talonSlab (st sids j : Nat) : Nat := slabNo st (31 - 4 * j) (j % 2) (sids - 1)

/-- Key of a bank within a PC: SID × 16 + bank group × 4 + bank. -/
def bankKey (ps s : Nat) : Nat := slabSid ps * 16 + bgOf s * 4 + bankOf s
/-- Offset q-units of a row of a bank: the offsets that share (bank group, bank, row) (R118). -/
def rowOffsets (bg bank row : Nat) : List Nat :=
  let q := row * 16 + ((bank ^^^ (row / 4 % 4)) % 4) * 4 + ((bg ^^^ (row % 4)) % 4)
  (List.range 4).map (fun i => 4 * q + i)

/-- Metadata line offset and word of a data offset (R106). -/
def metaOffset (d s : Nat) : Nat := d + s / 32
def metaWord (s : Nat) : Nat := s % 32

/-! Partition settings (R122) -/

def PartCfg.managed (c : PartCfg) : Bool := bit c.cfg 0
def PartCfg.quad (c : PartCfg) : Bool := bit c.cfg 1
def PartCfg.seg (c : PartCfg) : Nat := bitsNat c.cfg 2 2
def PartCfg.custom (c : PartCfg) : Bool := bit c.cfg 4
def PartCfg.inWindow (c : PartCfg) (a : Nat) : Bool := decide (c.base.toNat ≤ a ∧ a < c.base.toNat + c.units * 2097152)

def Hub.deckEntry (h : Hub) (p i : Nat) : Nat := (SMap.get (fun _ => 0) h.amap.deck (p * 4096 + i)).toNat
def Hub.setEntry (h : Hub) (i : Nat) : Nat := (SMap.get (fun _ => 0) h.amap.setTable i).toNat

/-- The shuffle: logical slab and offset of a line index of the backing space (R114). -/
def Hub.shuffle (h : Hub) (p l : Nat) : Nat × Nat :=
  let c := h.part p
  let n := max 1 c.count
  let s := l / n
  (h.setEntry ((c.first + (l % n + h.deckEntry p (s % 4096)) % n) % 2048), s)

/-- The inverse of the shuffle: the line index that a set position and offset belong to (R114, R202). -/
def Hub.unshuffle (h : Hub) (p i s : Nat) : Nat :=
  let n := max 1 (h.part p).count
  s * n + (i + n - h.deckEntry p (s % 4096) % n) % n

/-- The home slice of a line index of the partition window (R40). -/
def Hub.homeSlice (h : Hub) (p l : Nat) : Nat :=
  let c := h.part p
  let j := (l + 41 * (l / 128)) % 128
  let g := if c.quad then c.seg
    else if c.managed then l / 256 % 4
    else (h.lslab (h.shuffle p l).1).home.toNat
  128 * g + j

/-! The stored code (R326, R327) -/

/-- Product in GF(2^8) modulo x^8 + x^4 + x^3 + x^2 + 1. -/
def gfMul (a b : Nat) : Nat :=
  (List.range 8).foldl (fun r i =>
    let r2 := r * 2
    let r3 := if 256 ≤ r2 then r2 ^^^ 0x11D else r2
    if b / 2 ^ (7 - i) % 2 = 1 then r3 ^^^ a else r3) 0

def gfPow (a : Nat) : Nat → Nat
  | 0 => 1
  | n + 1 => gfMul a (gfPow a n)

/-- The inverse of a non-zero element: a^254. -/
def gfInv (a : Nat) : Nat :=
  let a2 := gfMul a a
  let a4 := gfMul a2 a2
  let a8 := gfMul a4 a4
  let a16 := gfMul a8 a8
  let a32 := gfMul a16 a16
  let a64 := gfMul a32 a32
  let a128 := gfMul a64 a64
  gfMul a128 (gfMul a64 (gfMul a32 (gfMul a16 (gfMul a8 (gfMul a4 a2)))))

/-- g(x), coefficients from x^7 down to x^0; that of x^8 is 1. -/
def rsGen : List Nat :=
  ((List.range 8).foldl (fun g i =>
    let r := gfPow 2 i
    -- g · (x + r), highest coefficient first
    (List.zipWith (fun a b => a ^^^ gfMul r b) (g ++ [0]) (0 :: g))) [1]).drop 1

/-- The eight check bytes of a sector (R326). -/
def rsCheck (data : List Nat) : List Nat :=
  let g := rsGen
  data.foldl (fun rem d =>
    let f := d ^^^ rem.headD 0
    List.zipWith (fun a b => a ^^^ gfMul f b) (rem.drop 1 ++ [0]) g) (List.replicate 8 0)

def natBytes (n v : Nat) : List Nat := (leBytes n v).map (fun b => b.toNat)
def bytesNat (bs : List Nat) : Nat := bs.foldr (fun b a => b + 256 * a) 0

/-- A sector as its code word. -/
def rsEncode (x : Sector) : Code :=
  let d := natBytes 64 x.toNat
  BitVec.ofNat 576 (bytesNat (d ++ rsCheck d))

/-- Syndrome r of a received word of 72 symbols. -/
def rsSyndrome (w : List Nat) (r : Nat) : Nat :=
  let x := gfPow 2 r
  w.foldl (fun a c => gfMul a x ^^^ c) 0

/-- Power of x of symbol i, as α^(71 - i). -/
def rsLoc (i : Nat) : Nat := gfPow 2 (71 - i)

/-- Error locator coefficients [σ1 … σv] for v errors from the syndromes; none where the system is singular. -/
def rsLocator (s : Nat → Nat) : Nat → Option (List Nat)
  | 1 => if s 0 = 0 then none else some [gfMul (s 1) (gfInv (s 0))]
  | 2 =>
    let det := gfMul (s 1) (s 1) ^^^ gfMul (s 0) (s 2)
    if det = 0 then none else
      let i := gfInv det
      some [gfMul i (gfMul (s 1) (s 2) ^^^ gfMul (s 0) (s 3)), gfMul i (gfMul (s 2) (s 2) ^^^ gfMul (s 1) (s 3))]
  | 3 =>
    let m3 (a b c d e f g h k : Nat) : Nat :=
      gfMul a (gfMul e k ^^^ gfMul f h) ^^^ gfMul b (gfMul d k ^^^ gfMul f g) ^^^ gfMul c (gfMul d h ^^^ gfMul e g)
    let det := m3 (s 0) (s 1) (s 2) (s 1) (s 2) (s 3) (s 2) (s 3) (s 4)
    if det = 0 then none else
      let i := gfInv det
      let x3 := m3 (s 3) (s 1) (s 2) (s 4) (s 2) (s 3) (s 5) (s 3) (s 4)
      let x2 := m3 (s 0) (s 3) (s 2) (s 1) (s 4) (s 3) (s 2) (s 5) (s 4)
      let x1 := m3 (s 0) (s 1) (s 3) (s 1) (s 2) (s 4) (s 2) (s 3) (s 5)
      some [gfMul i x1, gfMul i x2, gfMul i x3]
  | _ => none

/-- The symbols at which the locator has a root: σ(X^-1) = 0. -/
def rsRoots (sig : List Nat) : List Nat :=
  (List.range 72).filter (fun i =>
    let y := gfInv (rsLoc i)
    (sig.foldr (fun c a => gfMul y (a ^^^ c)) 0) ^^^ 1 == 0)

/-- Error values at up to three places, from the first syndromes (a Vandermonde system solved by elimination). -/
def rsValues (s : Nat → Nat) : List Nat → List Nat
  | [_] => [s 0]
  | [a, b] =>
    let xa := rsLoc a
    let xb := rsLoc b
    let eb := gfMul (s 1 ^^^ gfMul xa (s 0)) (gfInv (xa ^^^ xb))
    [s 0 ^^^ eb, eb]
  | [a, b, c] =>
    let xa := rsLoc a
    let xb := rsLoc b
    let xc := rsLoc c
    let t1 := s 1 ^^^ gfMul xa (s 0)
    let t2 := s 2 ^^^ gfMul xa (s 1)
    let ec := gfMul (t2 ^^^ gfMul xb t1) (gfInv (gfMul (xa ^^^ xc) (xb ^^^ xc)))
    let eb := gfMul (t1 ^^^ gfMul ec (xa ^^^ xc)) (gfInv (xa ^^^ xb))
    [s 0 ^^^ eb ^^^ ec, eb, ec]
  | _ => []

/-- How a received word is judged (R327). -/
inductive Judged where
  | clean
  | corrected
  | uncorrectable
  deriving DecidableEq, Repr

def isCodeWord (w : List Nat) : Bool := (List.range 8).all (fun r => rsSyndrome w r == 0)

/-- A received word judged: the outcome and the sector used (R327, R333: zeros where uncorrectable). -/
def rsDecode (c : Code) : Judged × Sector :=
  let w := natBytes 72 c.toNat
  let sector (w : List Nat) : Sector := BitVec.ofNat 512 (bytesNat (w.take 64))
  if isCodeWord w then (.clean, sector w)
  else
    let syn := (List.range 8).map (rsSyndrome w)
    let s (i : Nat) : Nat := syn.getD i 0
    let attempt (v : Nat) : Option (List Nat) :=
      match rsLocator s v with
      | none => none
      | some sig =>
        let roots := rsRoots sig
        if roots.length ≠ v then none
        else
          let fix := (roots.zip (rsValues s roots)).foldl (fun w e => w.set e.1 (w.getD e.1 0 ^^^ e.2)) w
          if isCodeWord fix then some fix else none
    match attempt 1, attempt 2, attempt 3 with
    | some x, _, _ => (.corrected, sector x)
    | none, some x, _ => (.corrected, sector x)
    | none, none, some x => (.corrected, sector x)
    | none, none, none => (.uncorrectable, 0)

/-- A word as it is received: what was stored with the symbol errors listed for it. -/
def received (w : Code) (errs : Flips) (i : Nat) : Code := (errs.filter (fun e => e.1 == i)).foldl (fun w e => w ^^^ e.2) w

/-- A unit of the cache die read with the symbols it holds wrong (R328, R338). -/
def judgeUnit (x : Sector) (errs : Flips) (i : Nat) : Judged × Sector :=
  if errs.any (fun e => e.1 == i) then rsDecode (received (rsEncode x) errs i) else (.clean, x)

/-! Ciphers (R369, R371, R309); blocks are 16 bytes, byte i at bits [8i+7:8i] -/

/-- The tweak T of a sector (R369). -/
def xtsTweak (slab off sector : Nat) : BitVec 128 := BitVec.ofNat 128 (sector % 4 + 4 * (off % 4194304) + 16777216 * (slab % 2048))

/-- Multiplication of an XTS tweak by α. -/
def xtsNext (t : BitVec 128) : BitVec 128 := (t <<< 1) ^^^ (if t.msb then 0x87 else 0)

/-- AES-256-XTS over one sector of four blocks; `dec` undoes it. -/
def xts (k : KeySlot) (dec : Bool) (t : BitVec 128) (x : Sector) : Sector :=
  let t0 := aes256 k.k2 t
  let step (a : BitVec 128 × Sector) (j : Nat) : BitVec 128 × Sector :=
    let b : BitVec 128 := x.extractLsb' (128 * j) 128
    let c := (if dec then aes256Inv k.k1 (b ^^^ a.1) else aes256 k.k1 (b ^^^ a.1)) ^^^ a.1
    (xtsNext a.1, putBits a.2 (128 * j) 128 c.toNat)
  ((List.range 4).foldl step (t0, 0)).2

/-- The sector tag (R371). -/
def sectorTag (k : KeySlot) (t : BitVec 128) (c : Sector) : BitVec 64 :=
  let x := (List.range 4).foldl (fun x j => aes256 k.km (x ^^^ c.extractLsb' (128 * j) 128)) (aes256 k.km t)
  x.setWidth 64

def block (bs : List Byte) : BitVec 128 := BitVec.ofNat 128 (leNat bs)
def beBytes (n v : Nat) : List Byte := (leBytes n v).reverse

/-- Product in the field of GHASH, first byte most significant. -/
def ghashMul (x y : Nat) : Nat :=
  ((List.range 128).foldl (fun (a : Nat × Nat) i =>
    let z := if x / 2 ^ (127 - i) % 2 = 1 then a.1 ^^^ a.2 else a.1
    let v := if a.2 % 2 = 1 then (a.2 / 2) ^^^ (0xE1 * 2 ^ 120) else a.2 / 2
    (z, v)) (0, y)).1

/-- Blocks of 16 bytes, the last one filled with zeros. -/
def chunks16 : Nat → List Byte → List (List Byte)
  | 0, _ => []
  | _, [] => []
  | n + 1, bs => ((bs.take 16) ++ List.replicate (16 - (bs.take 16).length) 0) :: chunks16 n (bs.drop 16)

def ghash (hk : Nat) (aad ct : List Byte) : Nat :=
  let bl := chunks16 aad.length aad ++ chunks16 ct.length ct ++ [beBytes 8 (8 * aad.length) ++ beBytes 8 (8 * ct.length)]
  bl.foldl (fun y b => ghashMul (y ^^^ beNat b) hk) 0

/-- AES-256 of a block of bytes. -/
def aesBytes (k : BitVec 256) (bs : List Byte) : List Byte := leBytes 16 (aes256 k (block bs)).toNat

/-- The key stream of GCM from block counter 2. -/
def gcmCrypt (k : BitVec 256) (nonce : List Byte) (x : List Byte) : List Byte :=
  let bl := chunks16 x.length x
  ((bl.zipIdx).flatMap (fun b =>
    List.zipWith (fun p q => p ^^^ q) b.1 (aesBytes k (nonce ++ beBytes 4 (b.2 + 2))))).take x.length

/-- The 16-byte tag of GCM. -/
def gcmTag (k : BitVec 256) (nonce aad ct : List Byte) : List Byte :=
  let hk := beNat (aesBytes k (List.replicate 16 0))
  let s := beBytes 16 (ghash hk aad ct)
  List.zipWith (fun p q => p ^^^ q) s (aesBytes k (nonce ++ beBytes 4 1))

/-- One byte into a reflected CRC-32C. -/
def crcByte (c : BitVec 32) (b : Byte) : BitVec 32 :=
  (List.range 8).foldl (fun c _ => (c >>> 1) ^^^ (if c.getLsbD 0 then 0x82F63B78 else 0)) (c ^^^ b.setWidth 32)

/-- CRC-32C continued over bytes, from and to the final form (R287). -/
def crcOn (c : Word) (bs : List Byte) : Word := (bs.foldl crcByte (~~~c)) ^^^ 0xFFFFFFFF
def crc32c (bs : List Byte) : Word := crcOn 0 bs

/-! The metadata word (R329) -/

def Meta.zero : Meta := ⟨0, false, false⟩
def Meta.ofWord (w : BitVec 64) : Meta := ⟨w.setWidth 56, w.getLsbD 56, w.getLsbD 57⟩
def Meta.word (m : Meta) : BitVec 64 :=
  BitVec.ofNat 64 (m.mac.toNat + (if m.poison then 2 ^ 56 else 0) + (if m.void then 2 ^ 57 else 0))

end Sys2Proof.Machine
end

