-- ==== Sys2Proof/Machine/Journal.lean ====
section
/-!
DEFINITION. The journal in the flash: an entry's bytes (R459), valid copies and present entries (R460), the head found at S0, an
entry written (R458), checkpoints (R462) and the replay at S4 (R463, R406).
-/
namespace Sys2Proof.Machine

/-! Entries (R459, R460) -/

/-- A list of bytes cut or filled with zeros to n. -/
def padTo (n : Nat) (bs : List Byte) : List Byte := (bs ++ List.replicate n 0).take n

/-- UPTIME: ms since the last reset release, saturating. -/
def Hub.uptime (h : Hub) : Nat := min (2 ^ 32 - 1) ((h.now - h.boot.released) / 100000)

/-- The 64 bytes of entry n (DEDUCED, log 25). -/
def Hub.entryBytes (h : Hub) (e : JEntry) (n : Nat) : List Byte :=
  let b := le64 n ++ bytesOf e.typ ++ [e.flags, 0] ++ le32 h.journal.boot.toNat ++ le32 h.uptime ++
    le32 (h.tm.epoch.toNat % 2 ^ 32) ++ padTo 36 e.payload
  b ++ bytesOf (crc32c b)

def entrySeq (b : List Byte) : Nat := leNat (b.take 8)
def entryType (b : List Byte) : Nat := leNat ((b.drop 8).take 2)
def entryBoot (b : List Byte) : Nat := leNat ((b.drop 12).take 4)
def entryPayload (b : List Byte) : List Byte := (b.drop 0x18).take 36

/-- A copy is valid in its slot. -/
def copyOk (b : List Byte) (slot : Nat) : Bool :=
  decide (entrySeq b % 131072 = slot) && crc32c (b.take 60) == BitVec.ofNat 32 (leNat (b.drop 60))

/-- The copy in a half of the journal, where valid. -/
def Hub.copyAt (h : Hub) (half slot : Nat) : Option (List Byte) :=
  let b := h.flashBytes (0x2000000 + 0x800000 * half + 64 * slot) 64
  if copyOk b slot then some b else none

/-- Equal neighbours once. -/
def runs : List Nat → List Nat
  | a :: b :: t => if a = b then runs (b :: t) else a :: runs (b :: t)
  | l => l

/-- Slots of a half that hold anything. -/
def Hub.journalSlots (h : Hub) (half : Nat) : List Nat :=
  let a := 0x2000000 + 0x800000 * half
  runs ((h.flash.filter (fun e => decide (a ≤ e.1 ∧ e.1 < a + 0x800000))).map (fun e => (e.1 - a) / 64))

/-- Insertion into a list of entries rising by SEQ; an entry already there stays. -/
def insertEntry (b : List Byte) : List (List Byte) → List (List Byte)
  | [] => [b]
  | c :: cs =>
    if entrySeq b < entrySeq c then b :: c :: cs else if entrySeq b = entrySeq c then c :: cs else c :: insertEntry b cs

/-- The present entries, rising by SEQ (R460). -/
def Hub.entries (h : Hub) : List (List Byte) :=
  let of (half : Nat) : List (List Byte) := (h.journalSlots half).filterMap (fun s => h.copyAt half s)
  (of 0 ++ of 1).foldl (fun l b => insertEntry b l) []

/-- The head is found at S0: next SEQ, BOOT, and ACK so that older entries raise no alert (R460, R464). -/
def Hub.findHead (h : Hub) : Hub :=
  match h.entries.getLast? with
  | none => h.setJournal { h.journal with seq := 0, boot := 0, head := none, ack := none, ackLo := 0 }
  | some b =>
    let n := entrySeq b
    h.setJournal { h.journal with seq := n + 1, boot := BitVec.ofNat 32 (entryBoot b + 1), head := some n, ack := some n, ackLo := BitVec.ofNat 32 n }

/-! Writing (R458, R461) -/

/-- Both copies' places of the next entry are erased. -/
def Hub.slotFree (h : Hub) : Bool :=
  [0, 1].all (fun x => (h.flashBytes (journalCopy h.journal.seq x) 64).all (fun b => b == 0xFF))

/-- Entry e is written under the next SEQ and committed: both copies, HEAD, CRIT, the window of the last 16 (R458, R464, R465). -/
def Hub.writeEntry (h : Hub) (e : JEntry) : Hub :=
  let n := h.journal.seq
  let b := h.entryBytes e n
  let h := (h.putFlash (journalCopy n n) b).putFlash (journalCopy n (n + 1)) b
  let recent := (b.zipIdx).foldl (fun m x => SMap.set (fun _ => 0) m (64 * (n % 16) + x.2) x.1) h.journal.recent
  let crit : Bool := bit e.flags 0
  let h := h.setJournal { h.journal with
    seq := n + 1, head := some n, recent := recent, crit := if crit then some n else h.journal.crit }
  if crit then h.raise pJournal 1 else h

/-- A read-back failed: that copy is torn; a first one that fails keeps the second from being programmed, and a second one leaves the
first valid. The entry is written again under the next SEQ (R458) (DEDUCED, log 25). -/
def Hub.tearEntry (h : Hub) (e : JEntry) (found : ReadBack) : Hub :=
  let n := h.journal.seq
  let torn := (List.range 64).map (fun i => Config.tornByte n i)
  let h := if found = .firstBad then h.putFlash (journalCopy n n) torn
    else (h.putFlash (journalCopy n n) (h.entryBytes e n)).putFlash (journalCopy n (n + 1)) torn
  (h.setJournal { h.journal with seq := n + 1 }).bump pJournal 0x70 0 32 1

/-- What a reset does to entries not committed: O, H and K entries are lost, C entries, whose effect has taken place, have been
committed (R461, R467) (DEDUCED, log 25). -/
def Hub.journalAtReset (h : Hub) : Hub :=
  let isC (e : JEntry) : Bool := bit e.flags 0 && decide (0x10 ≤ e.typ.toNat)
  (h.journal.queue.filter isC).foldl (fun h e => if h.slotFree then h.writeEntry e else h) h

/-! Checkpoints (R462) -/

/-- Slab words that restate a physical slab: re-admitted, then out of service, waiting, or the source of a migration in progress or of
an abandoned one (R353, R462) (DEDUCED, log 26). -/
def Hub.slabWords (h : Hub) (ps : Nat) : List Nat :=
  let v := h.pslab ps
  let prev := match v.prev with
    | some k => k.toNat
    | none => 0
  let word (kind p : Nat) : Nat := ps + kind * 4096 + p * 65536
  (if v.readmitted then [word 2 prev] else []) ++
  (if v.st = 4 ∨ (v.st = 5 ∧ v.prev.isSome ∧ !v.readmitted) then [word 1 prev] else []) ++
  (if h.ras.pending.any (fun e => e.1 == ps) then [word 3 v.logical.toNat] else []) ++
  (if h.ras.migs.any (fun m => m.a == ps && m.phase != 0) ∨ h.ras.abandoned.contains ps then [word 4 v.logical.toNat] else [])

/-- Records of nine words each. -/
def records : Nat → List Nat → List (List Byte)
  | 0, _ => []
  | _, [] => []
  | f + 1, ws => padRecord (ws.take 9) :: records f (ws.drop 9)
where
  padRecord (ws : List Nat) : List Byte := (ws ++ List.replicate 9 0xFFFFFFFF).take 9 |>.flatMap le32

/-- The checkpoint of the present state, in the order it is written (DEDUCED, log 25). -/
def Hub.checkpoint (h : Hub) : List JEntry :=
  let reps := h.ras.table.map (fun e => e.1 + e.2.1 * 2048 + e.2.2.1 * 8192 + e.2.2.2 * 65536)
  let slabs := (h.amap.phys.map (·.1)).flatMap (fun ps => h.slabWords ps)
  let r := (records 4096 reps).map (fun p => (0x41, p)) ++ (records 4096 slabs).map (fun p => (0x42, p))
  let crc := crc32c (r.flatMap (·.2))
  let k (t : Nat) (p : List Byte) : JEntry := ⟨BitVec.ofNat 16 t, 4, false, p⟩
  k 0x40 (le32 r.length ++ le32 h.journal.boot.toNat) :: r.map (fun x => k x.1 x.2) ++ [k 0x43 (le32 r.length ++ bytesOf crc)]

/-! Replay (R463, R406) -/

/-- What the journal says of a physical slab: KIND 1 RETIRED, 3 PENDING, 4 source of a migration (0: none of these), the
logical number that goes with it, and a re-admission with its PREV. -/
structure SlabPast where
  kind : Nat
  prev : Nat
  readmitted : Option Nat
  deriving DecidableEq, Repr

def SlabPast.clean : SlabPast := ⟨0, 0, none⟩

/-- State of a replay: repair rows, slabs, entries ignored. -/
structure Replay where
  rows : List (Nat × Nat × Nat × Nat)
  slabs : SMap SlabPast
  ignored : Nat
  deriving DecidableEq, Repr

def Replay.past (r : Replay) (ps : Nat) : SlabPast := SMap.get (fun _ => SlabPast.clean) r.slabs ps
def Replay.put (r : Replay) (ps : Nat) (v : SlabPast) : Replay :=
  { r with slabs := SMap.set (fun _ => SlabPast.clean) r.slabs ps v }
def Replay.row (r : Replay) (w : Nat) : Replay :=
  let x := (w % 2048, w / 2048 % 4, w / 8192 % 4, w / 65536 % 32768)
  if r.rows.contains x then r else { r with rows := r.rows ++ [x] }
/-- The slab is re-admitted: its rows leave the table. -/
def Replay.readmit (r : Replay) (ps prev : Nat) : Replay :=
  ({ r with rows := r.rows.filter (fun x => x.1 ≠ ps) } : Replay).put ps ⟨0, prev, some prev⟩

/-- 16-bit word i of a payload, and 32-bit word i. -/
def half16 (p : List Byte) (i : Nat) : Nat := leNat ((p.drop (2 * i)).take 2)
def word32 (p : List Byte) (i : Nat) : Nat := leNat ((p.drop (4 * i)).take 4)

/-- One entry is applied; `absent` says which physical slabs are ABSENT at this bring-up. -/
def Replay.apply (absent : Nat → Bool) (r : Replay) (b : List Byte) : Replay :=
  let p := entryPayload b
  let x := half16 p 0
  let y := half16 p 1
  let z := half16 p 2
  let skip : Replay := { r with ignored := r.ignored + 1 }
  match entryType b with
  | 2 => if absent (word32 p 0 % 2048) then skip else r.row (word32 p 0)
  | 3 => if absent y ∨ absent z then skip else r.put y { r.past y with kind := 4, prev := x }
  | 4 => if absent y ∨ absent z then skip else r.put y { r.past y with kind := 1, prev := x }
  | 5 =>
    if absent y ∨ absent z then skip
    else (r.put z { r.past z with kind := 1, prev := x }).put y { r.past y with kind := 4, prev := x }
  | 6 => if absent x then skip else r.put x { r.past x with kind := 3, prev := y }
  | 7 => if absent x then skip else r.readmit x y
  | _ => r

/-- One word of a checkpoint's slab record. -/
def Replay.slabWord (absent : Nat → Bool) (r : Replay) (w : Nat) : Replay :=
  let ps := w % 2048
  let kind := w / 4096 % 8
  let prev := w / 65536 % 2048
  if w = 0xFFFFFFFF then r
  else if absent ps then { r with ignored := r.ignored + 1 }
  else if kind = 2 then r.put ps ⟨0, prev, some prev⟩
  else r.put ps { r.past ps with kind := kind, prev := prev }

/-- One record of a checkpoint. -/
def Replay.record (absent : Nat → Bool) (r : Replay) (b : List Byte) : Replay :=
  let ws := (List.range 9).map (fun i => word32 (entryPayload b) i)
  if entryType b = 0x41 then
    ws.foldl (fun r w =>
      if w = 0xFFFFFFFF then r else if absent (w % 2048) then { r with ignored := r.ignored + 1 } else r.row w) r
  else ws.foldl (fun r w => r.slabWord absent w) r

/-- The records of the checkpoint that ends at an entry, and the SEQ of its CKPT_BEGIN; none where it is not complete. -/
def checkpointAt (es : List (List Byte)) (fin : List Byte) : Option (Nat × List (List Byte)) :=
  let below := es.filter (fun b => decide (entrySeq b < entrySeq fin))
  match (below.filter (fun b => entryType b == 0x40)).getLast? with
  | none => none
  | some beg =>
    let rs := below.filter (fun b => decide (entrySeq beg < entrySeq b) && (entryType b == 0x41 || entryType b == 0x42))
    let m := word32 (entryPayload beg) 0
    if rs.length = m ∧ word32 (entryPayload fin) 0 = m ∧
        word32 (entryPayload fin) 1 = (crc32c (rs.flatMap entryPayload)).toNat then some (entrySeq beg, rs)
    else none

/-- Missing numbers in a rising list. -/
def gaps : List Nat → Nat
  | a :: b :: t => (b - a - 1) + gaps (b :: t)
  | _ => 0

/-- The replay: its result, whether a checkpoint was used, and the SEQs missing (DEDUCED, log 26). -/
def replay (absent : Nat → Bool) (es : List (List Byte)) : Replay × Bool × Nat :=
  let start : Replay := ⟨[], [], 0⟩
  let ends := (es.filter (fun b => entryType b == 0x43)).reverse
  match ends.findSome? (fun b => checkpointAt es b) with
  | some (n, rs) =>
    let above := es.filter (fun b => decide (n ≤ entrySeq b))
    let r := rs.foldl (fun r b => r.record absent b) start
    (above.foldl (fun r b => r.apply absent b) r, true, gaps (above.map entrySeq))
  | none => (es.foldl (fun r b => r.apply absent b) start, false, gaps (es.map entrySeq))

end Sys2Proof.Machine
end

