-- ==== Sys2Proof/Machine/Flags.lean ====
section
/-!
DEFINITION. The eight number formats, exact values, rounding, the update of a reduction and block scales (R153 to R170).
The counts a reduction leaves on the ARITH page (saturated elements, NaN elements, draws) are computed here.
-/
namespace Sys2Proof.Machine

/-- An exact value: NaN, an infinity, or (-1)^neg × m × 2^e (R154, R155). -/
inductive Num where
  | nan
  | inf (neg : Bool)
  | fin (neg : Bool) (m : Nat) (e : Int)
  deriving DecidableEq, Repr

/-- A number format (R153, R154): width, exponent and mantissa bits, bias, encoding of the largest finite magnitude,
infinity, the NaN the hub writes; INT32 apart. -/
structure Fmt where
  w : Nat
  eb : Nat
  mb : Nat
  bias : Nat
  maxEnc : Nat
  hasInf : Bool
  nan : Option Nat
  isInt : Bool
  deriving DecidableEq, Repr

/-- The format of a code (R153). -/
def fmtOf (c : Nat) : Fmt :=
  match c with
  | 0 => ⟨32, 8, 23, 127, 0x7F7FFFFF, true, some 0x7FC00000, false⟩
  | 1 => ⟨16, 8, 7, 127, 0x7F7F, true, some 0x7FC0, false⟩
  | 2 => ⟨16, 5, 10, 15, 0x7BFF, true, some 0x7E00, false⟩
  | 3 => ⟨8, 4, 3, 7, 0x7E, false, some 0x7F, false⟩
  | 4 => ⟨8, 5, 2, 15, 0x7B, true, some 0x7E, false⟩
  | 5 => ⟨6, 3, 2, 3, 0x1F, false, none, false⟩
  | 6 => ⟨4, 2, 1, 1, 0x7, false, none, false⟩
  | _ => ⟨32, 0, 31, 0, 0x7FFFFFFF, false, none, true⟩

/-- The value of an element (R154). -/
def decodeNum (f : Fmt) (x : Nat) : Num :=
  if f.isInt then
    if x < 2 ^ 31 then .fin false x 0 else .fin true (2 ^ 32 - x) 0
  else
    let neg := decide (x / 2 ^ (f.w - 1) % 2 = 1)
    let mag := x % 2 ^ (f.w - 1)
    let e := mag / 2 ^ f.mb
    let m := mag % 2 ^ f.mb
    if f.maxEnc < mag then (if f.hasInf ∧ m = 0 then .inf neg else .nan)
    else if e = 0 then .fin neg m (1 - (f.bias : Int) - f.mb)
    else .fin neg (2 ^ f.mb + m) ((e : Int) - f.bias - f.mb)

/-- A value times a power of two (R155). -/
def Num.scale (k : Int) : Num → Num
  | .fin n m e => .fin n m (e + k)
  | v => v

/-- An element under a block scale byte X: 2^(X - 127), NaN at 0xFF (R155). -/
def scaled (x : Nat) (v : Num) : Num := if x = 255 then .nan else v.scale ((x : Int) - 127)

/-- The signed integers of two dyadics over one common exponent. -/
def aligned (n1 : Bool) (m1 : Nat) (e1 : Int) (n2 : Bool) (m2 : Nat) (e2 : Int) : Int × Int × Int :=
  let e := min e1 e2
  let a : Int := (m1 * 2 ^ (e1 - e).toNat : Nat)
  let b : Int := (m2 * 2 ^ (e2 - e).toNat : Nat)
  (if n1 then -a else a, if n2 then -b else b, e)

/-- The exact sum (R166). -/
def Num.add : Num → Num → Num
  | .nan, _ => .nan
  | _, .nan => .nan
  | .inf a, .inf b => if a = b then .inf a else .nan
  | .inf a, .fin _ _ _ => .inf a
  | .fin _ _ _, .inf b => .inf b
  | .fin n1 m1 e1, .fin n2 m2 e2 =>
    let (a, b, e) := aligned n1 m1 e1 n2 m2 e2
    let s := a + b
    if s = 0 then .fin (n1 && n2 && decide (m1 = 0) && decide (m2 = 0)) 0 0
    else .fin (decide (s < 0)) s.natAbs e

/-- Order of two values that are no NaN, with -0 below +0 (R166). -/
def Num.lt : Num → Num → Bool
  | .inf a, .inf b => a && !b
  | .inf a, .fin _ _ _ => a
  | .fin _ _ _, .inf b => !b
  | .fin n1 m1 e1, .fin n2 m2 e2 =>
    let (a, b, _) := aligned n1 m1 e1 n2 m2 e2
    decide (a < b) || (decide (a = 0) && decide (b = 0) && n1 && !n2)
  | _, _ => false

/-- op(t, o) of ROP: 0 ADD, 1 MIN, 2 MAX (R165, R166). -/
def reduceOp (rop : Nat) (t o : Num) : Num :=
  if t = .nan ∨ o = .nan then .nan
  else if rop = 0 then t.add o
  else if rop = 1 then (if o.lt t then o else t)
  else (if t.lt o then o else t)

/-- What a rounding wrote: the element's bits, and whether a finite result was replaced (counted in SAT_CNT) or a NaN written. -/
structure Rounded where
  enc : Nat
  sat : Bool
  nan : Bool
  deriving DecidableEq, Repr

/-- Rounding of m × 2^-k to an integer: to nearest even, or up by the draw u (R167, R169). -/
def roundShift (m k : Nat) (u : Option Nat) : Nat :=
  let n := m / 2 ^ k
  let r := m % 2 ^ k
  match u with
  | some u => if 65536 ≤ r * 65536 / 2 ^ k + u then n + 1 else n
  | none => if 2 ^ k < 2 * r ∨ (2 ^ k = 2 * r ∧ n % 2 = 1) then n + 1 else n

/-- rnd(v, f) with the writing of NaN and infinities (R154, R166 to R168, R170). -/
def roundNum (f : Fmt) (infOnOvf : Bool) (u : Option Nat) (v : Num) : Rounded :=
  let signed (neg : Bool) (mag : Nat) : Nat :=
    if f.isInt then (if neg then (2 ^ 32 - mag) % 2 ^ 32 else mag) else mag + (if neg then 2 ^ (f.w - 1) else 0)
  match v with
  | .nan => match f.nan with
    | some x => ⟨x, false, true⟩
    | none => ⟨0, false, true⟩
  | .inf neg =>
    if f.hasInf then ⟨signed neg (f.maxEnc + 1), false, false⟩
    else ⟨signed neg (if f.isInt ∧ neg then 2 ^ 31 else f.maxEnc), true, false⟩
  | .fin neg m x =>
    if m = 0 then ⟨if f.isInt then 0 else signed neg 0, false, false⟩
    else if f.isInt then
      let n := if 0 ≤ x then m * 2 ^ x.toNat else roundShift m (-x).toNat u
      let lim := if neg then 2 ^ 31 else 2 ^ 31 - 1
      if lim < n then ⟨signed neg lim, true, false⟩ else ⟨signed neg n, false, false⟩
    else
      let e0 : Int := (Nat.log2 m : Int) + x
      let e : Int := max e0 (1 - (f.bias : Int))
      let k : Int := x - e + f.mb
      let n := if 0 ≤ k then m * 2 ^ k.toNat else roundShift m (-k).toNat u
      let mag := (e + f.bias - 1).toNat * 2 ^ f.mb + n
      if f.maxEnc < mag then ⟨signed neg (if infOnOvf ∧ f.hasInf then f.maxEnc + 1 else f.maxEnc), true, false⟩
      else ⟨signed neg mag, false, false⟩

/-! Packing (R156, R162) -/

/-- n bits from bit lo of a payload. -/
def field {w : Nat} (x : BitVec w) (lo n : Nat) : Nat := bitsNat x lo n

/-- Bit position of element i of a packed element line (R156). -/
def elemBit (fmt i : Nat) : Nat :=
  if fmt = 5 then 24 * (i / 4) + 6 * (i % 4) else (fmtOf fmt).w * i

/-- Elements per element line of a block-scaled format (R156). -/
def lineElems (fmt : Nat) : Nat := if fmt = 5 then 320 else if fmt = 6 then 512 else 256

/-! The REDUCE update (R160 to R169) -/

/-- Target format code of a REDUCE (R160). -/
def targetFmt (fmt tgt : Nat) : Nat := if tgt = 1 then 0 else if tgt = 2 then 1 else fmt

/-- The legal pairings (R161). -/
def pairingLegal (fmt tgt mxs size : Nat) : Bool :=
  let base : List Nat := match fmt with
    | 0 => [0, 1]
    | 1 => [0, 1, 2]
    | 2 => [0, 1]
    | 3 => if mxs = 1 then [1, 2] else [0, 1, 2]
    | 4 => if mxs = 1 then [1, 2] else [0, 1, 2]
    | 5 => [1, 2]
    | 6 => [1, 2]
    | _ => [0]
  base.contains tgt && decide (mxs = 0 ∨ fmt = 3 ∨ fmt = 4) && decide ((fmt ≠ 5 ∧ fmt ≠ 6 ∧ mxs = 0) ∨ 2 ≤ size)

/-- Operand value j of a line's payload (R162). -/
def operandValue (fmt tf mxs : Nat) (payload : Line) (j : Nat) : Num :=
  let f := fmtOf fmt
  if fmt = 5 ∨ fmt = 6 ∨ mxs = 1 then
    scaled (field payload (8 * (192 + j / 32)) 8) (decodeNum f (field payload (elemBit fmt j) f.w))
  else if fmt = tf then decodeNum f (field payload (f.w * j) f.w)
  else decodeNum f (field payload (f.w * j) f.w)

/-- What an update leaves: the line, elements saturated, elements written as NaN, draws taken (R165 to R169). -/
structure Updated where
  line : Line
  sats : Nat
  nans : Nat
  draws : Nat
  deriving DecidableEq, Repr

/-- One element of an update. -/
def updateElem (fmt tf mxs rop : Nat) (infOnOvf sr : Bool) (draw0 base : Nat) (en : BitVec 256) (payload : Line)
    (a : Updated) (j : Nat) : Updated :=
  let f := fmtOf tf
  let w := f.w / 8
  let pos := base + w * j
  if bit en pos then
    let u := if sr && decide (rop = 0) && !f.isInt then some (Config.srDraw (draw0 + a.draws)).toNat else none
    let t := decodeNum f (field a.line (8 * pos) f.w)
    let r := roundNum f infOnOvf u (reduceOp rop t (operandValue fmt tf mxs payload j))
    ⟨putBits a.line (8 * pos) f.w r.enc, a.sats + r.sat.toNat, a.nans + r.nan.toNat, a.draws + u.isSome.toNat⟩
  else a

/-- The update of a line: elements counted from byte `base` over `len` bytes, enabled by `en` (R162, R163, R165). -/
def updateLine (fmt tf mxs rop : Nat) (infOnOvf sr : Bool) (draw0 base len : Nat) (en : BitVec 256) (payload target : Line) :
    Updated :=
  (List.range (len / ((fmtOf tf).w / 8))).foldl
    (updateElem fmt tf mxs rop infOnOvf sr draw0 base en payload) ⟨target, 0, 0, 0⟩

/-- The identity of ROP in a format, the target of a void line (R171). -/
def identityElem (tf rop : Nat) : Nat :=
  let f := fmtOf tf
  if rop = 0 then 0
  else if f.isInt then (if rop = 1 then 2 ^ 31 - 1 else 2 ^ 31)
  else
    let mag := if f.hasInf then f.maxEnc + 1 else f.maxEnc
    if rop = 1 then mag else mag + 2 ^ (f.w - 1)

/-- A void line as the target of a reduction: the identity in enabled elements, zeros elsewhere (R171). -/
def identityLine (tf rop base len : Nat) (en : BitVec 256) : Line :=
  let w := (fmtOf tf).w / 8
  (List.range (len / w)).foldl
    (fun l j => if bit en (base + w * j) then putBits l (8 * (base + w * j)) (8 * w) (identityElem tf rop) else l) 0

/-- A REDUCE with BYTE_EN that enables an element in part (R163). -/
def partialElem (tf base len : Nat) (en : BitVec 256) : Bool :=
  let w := (fmtOf tf).w / 8
  (List.range (len / w)).any (fun j =>
    (List.range w).any (fun i => bit en (base + w * j + i) != bit en (base + w * j)))

/-! Conversion and block scales (R159, R170, R286) -/

/-- Magnitudes compared. -/
def absLe (m1 : Nat) (e1 : Int) (m2 : Nat) (e2 : Int) : Bool :=
  let (a, b, _) := aligned false m1 e1 false m2 e2
  decide (a ≤ b)

/-- The largest finite magnitude of a block (R159). -/
def amax (vs : List Num) : Nat × Int :=
  vs.foldl (fun a v => match v with
    | .fin _ m e => if absLe a.1 a.2 m e then (m, e) else a
    | _ => a) (0, 0)

/-- emax of R159. -/
def emaxOf (fmt : Nat) : Int := if fmt = 6 then 2 else if fmt = 5 then 4 else if fmt = 3 then 8 else 15

/-- The scale byte chosen for a block (R159). -/
def chooseScale (fmt : Nat) (vs : List Num) : Nat :=
  if vs.any (fun v => v = .nan) then 255
  else
    let (m, e) := amax vs
    if m = 0 then 127
    else (max 0 (min 254 ((Nat.log2 m : Int) + e - emaxOf fmt + 127))).toNat

/-- An element of a block: an infinity becomes the largest finite value, a finite overflow follows INF_ON_OVF (R159, R167). -/
def blockElem (fmt x : Nat) (infOnOvf : Bool) (v : Num) : Nat :=
  let f := fmtOf fmt
  match v with
  | .inf neg => f.maxEnc + (if neg then 2 ^ (f.w - 1) else 0)
  | v => (roundNum f infOnOvf none (v.scale (127 - (x : Int)))).enc

/-- The elements of a block under its scale (R159). -/
def blockElems (fmt x : Nat) (infOnOvf : Bool) (vs : List Num) : List Nat :=
  if x = 255 then vs.map (fun _ => 0) else vs.map (blockElem fmt x infOnOvf)

/-- Conversion of one value into a format that is not block-scaled (R167, R170). -/
def convertElem (fmt : Nat) (infOnOvf : Bool) (v : Num) : Nat := (roundNum (fmtOf fmt) infOnOvf none v).enc

end Sys2Proof.Machine
end

