-- ==== Sys2Proof/Machine/Stackio.lean ====
section
/-!
DEFINITION. What lies between the home slices and the stacks: where a line's data lies (R114, R204, R352), region and chunk
state (R339 to R341), metadata words (R329, R331), the queues of the channel engines (R222, R223), stack writes, and what RAS
does on an error (R333, R346, R349 to R354).
-/
namespace Sys2Proof.Machine

/-! Page tables (R203 to R207) -/

def fwdKey (p w : Nat) : Nat := p * 67108864 + w

/-- A forward entry (R204). -/
def Hub.fwd (h : Hub) (p w : Nat) : BitVec 64 := SMap.get (fun _ => 0) h.pages.fwd (fwdKey p w)
def Hub.putFwd (h : Hub) (p w : Nat) (v : BitVec 64) : Hub :=
  { h with pages := { h.pages with fwd := SMap.set (fun _ => 0) h.pages.fwd (fwdKey p w) v } }
/-- A reverse entry (R207). -/
def Hub.rev (h : Hub) (p b : Nat) : BitVec 64 := SMap.get (fun _ => 0) h.pages.rev (fwdKey p b)
def Hub.putRev (h : Hub) (p b : Nat) (v : BitVec 64) : Hub :=
  { h with pages := { h.pages with rev := SMap.set (fun _ => 0) h.pages.rev (fwdKey p b) v } }

def fwdPage (e : BitVec 64) : Nat := bitsNat e 0 24
def fwdState (e : BitVec 64) : Nat := bitsNat e 24 3
def fwdVoids (e : BitVec 64) : Nat := bitsNat e 27 9
def mkFwd (page st voids : Nat) : BitVec 64 := BitVec.ofNat 64 (page % 2 ^ 24 + st * 2 ^ 24 + voids * 2 ^ 27)
def revState (e : BitVec 64) : Nat := bitsNat e 28 2
def mkRev (w st : Nat) : BitVec 64 := BitVec.ofNat 64 (w % 2 ^ 26 + st * 2 ^ 28)

/-- State of the window page of a line; ALLOCATED for an EXPLICIT partition (R205). -/
def Hub.pageState (h : Hub) (p l : Nat) : Nat := if (h.part p).managed then fwdState (h.fwd p (l / 256)) else 1

/-- The move that runs on a page, if one does (R212). -/
def Hub.moveOf (h : Hub) (p w : Nat) : Option PageMove :=
  (List.range 4).findSome? (fun g => match SMap.get (fun _ => none) h.pages.moves g with
    | some m => if m.part.toNat = p ∧ m.page = w then some m else none
    | none => none)

/-- The backing line of a window line (R115, R206, R212) (DEDUCED, log 56). -/
def Hub.backing (h : Hub) (p l : Nat) : Option Nat :=
  if !(h.part p).managed then some l
  else
    let e := h.fwd p (l / 256)
    if fwdState e = 1 then some (fwdPage e * 256 + l % 256)
    else if fwdState e = 2 then
      match h.moveOf p (l / 256) with
      | some m => some ((if l % 256 < m.mw then m.dst else m.src) * 256 + l % 256)
      | none => some (fwdPage e * 256 + l % 256)
    else none

/-- Logical slab and offset of a window line (R114, R115). -/
def Hub.place (h : Hub) (p l : Nat) : Option (Nat × Nat) := (h.backing p l).map (h.shuffle p)

/-! Regions and chunks (R339 to R341) -/

inductive ChunkState where
  | unfilled
  | pending
  | filled
  deriving DecidableEq, Repr

def regionKey (slab off : Nat) : Nat := slab * 256 + off / 8192
def chunkOf (off : Nat) : Nat := off % 8192 / 128

def Hub.chunkMap (h : Hub) (slab off : Nat) : BitVec 64 := SMap.get (fun _ => 0) h.ras.filled (regionKey slab off)
def Hub.isPending (h : Hub) (slab off : Nat) : Bool :=
  h.ras.pendChunks.any (fun c => c.slab == slab && c.region == off / 8192 && c.chunk == chunkOf off)

/-- State of the chunk of an offset; metadata offsets are always written (R339). -/
def Hub.chunkState (h : Hub) (slab off : Nat) : ChunkState :=
  if h.bigD ≤ off ∨ bit (h.chunkMap slab off) (chunkOf off) then .filled
  else if h.isPending slab off then .pending
  else .unfilled

/-- State of the chunk of a window line; a page that is not allocated has none (R340). -/
def Hub.lineChunk (h : Hub) (p l : Nat) : ChunkState :=
  match h.place p l with
  | some (k, s) => h.chunkState k s
  | none => .unfilled

/-- PENDING chunks of a segment (R342). -/
def Hub.pendingIn (h : Hub) (g : BitVec 2) : Nat := (h.ras.pendChunks.filter (fun c => c.seg == g)).length

/-! Steering (R120, R352) -/

/-- The migration of a logical slab that is MOVING. -/
def Hub.migOf (h : Hub) (k : Nat) : Option Migration := h.ras.migs.find? (fun m => m.k == k && m.phase != 0)

/-- The physical slab a fetch of an offset goes to. -/
def Hub.steer (h : Hub) (k s : Nat) : Nat :=
  match h.migOf k with
  | some m => if s < m.wm ∧ m.phase ≠ 3 then m.b else m.a
  | none => (h.lslab k).phys.toNat

/-- The physical slabs a stack write goes to. -/
def Hub.targets (h : Hub) (k : Nat) : List Nat :=
  match h.migOf k with
  | some m => [m.a, m.b]
  | none => [(h.lslab k).phys.toNat]

/-! Engine counters (R446, R447) -/

/-- PERF_SELn of an engine counts an event of a PC. -/
def engSelCounts (sel : Word) (ev pc : Nat) (part : Option (BitVec 6)) : Bool :=
  bit sel 31 && decide (bitsNat sel 0 5 = ev) && decide (ev ≠ 0) &&
  decide (bitsNat sel 5 2 = 2 ∨ bitsNat sel 5 2 = pc) &&
  (!bit sel 13 || part == some (BitVec.ofNat 6 (bitsNat sel 7 6)))

/-- An event of a pseudo-channel in the engine counters, which wrap. -/
def Hub.engCount (h : Hub) (pcIdx ev amt : Nat) (part : Option (BitVec 6)) : Hub :=
  if h.fld pPerf 0x44 0 1 = 0 then h
  else (List.range 4).foldl (fun h n =>
    if engSelCounts (h.rd (pChe (pcIdx / 2)) (0xC0 + 4 * n)) ev (pcIdx % 2) part then
      let k := pcIdx / 2 * 4 + n
      { h with perf := { h.perf with
          eng := SMap.set (fun _ => 0) h.perf.eng k (SMap.get (fun _ => 0) h.perf.eng k + BitVec.ofNat 32 amt) } }
    else h) h

/-! The queues of a channel engine (R222, R223) -/

def Hub.findFetch (h : Hub) (id : Nat) : Option Fetch := h.lines.fetches.find? (fun f => f.id == id)
def Hub.putFetch (h : Hub) (f : Fetch) : Hub :=
  { h with lines := { h.lines with fetches := h.lines.fetches.map (fun g => if g.id = f.id then f else g) } }
def Hub.dropFetch (h : Hub) (id : Nat) : Hub :=
  { h with lines := { h.lines with fetches := h.lines.fetches.filter (fun g => g.id ≠ id) } }

/-- A code word reaches its fetch. -/
def Hub.capture (h : Hub) (id sector : Nat) (w : Code) : Hub :=
  match h.findFetch id with
  | none => h
  | some f => h.putFetch { f with got := putBit f.got sector true, words := f.words ++ [(sector, w)] }

/-- The newest queued write of a sector. -/
def Pc.queuedWrite (c : Pc) (ps off sector : Nat) : Option WrEntry :=
  (c.wr.filter (fun w => w.ps == ps && w.off == off && w.sector == sector)).getLast?

/-- What the stack holds for a sector once the queued writes to it are applied. -/
def Hub.storedCode (h : Hub) (ps off sector : Nat) : Code :=
  match (h.pc (slabPc ps)).queuedWrite ps off sector with
  | some w => w.word
  | none => h.memCode ps off sector

/-- Places of the queue an entry takes (R222); what lies behind them is a handshake that the boundary FIFO holds (R33). -/
def RdEntry.places (e : RdEntry) : Nat := if e.narrow then 32 else 64

/-- The entries within the 64 places of the read queue and the 32 of the narrow queue (R222, R33). -/
def Pc.queued (c : Pc) : List RdEntry :=
  let n := (c.rd.filter (fun e => !e.narrow)).take 64
  let m := (c.rd.filter (fun e => e.narrow)).take 32
  c.rd.filter (fun e => n.contains e || m.contains e)

/-- Reads that have come to a place enter their queue now: their age counts from here (R225). -/
def Pc.takePlaces (c : Pc) (now : Nat) : Pc :=
  let q := c.queued
  { c with rd := c.rd.map (fun e => if e.entered.isNone && q.contains e then { e with entered := some now } else e) }

/-- A read enters a queue, or is answered from the write queue (R223) (DESIGN CHOICE, log 15). -/
def Hub.pushRead (h : Hub) (e : RdEntry) : Hub :=
  let i := slabPc e.ps
  let c := h.pc i
  match c.queuedWrite e.ps e.off e.sector with
  | some w => ((h.capture e.fetch e.sector w.word).bump (pChe (i / 2)) 0x58 0 16 1).engCount i 17 1 e.part
  | none => h.putPc i (({ c with rd := c.rd ++ [{ e with seq := c.seq, entered := none }], seq := c.seq + 1 } : Pc).takePlaces h.now)

/-- A write enters the write queue, or replaces a queued one in place (R223) (DESIGN CHOICE, log 15). -/
def Hub.pushWrite (h : Hub) (ps off sector : Nat) (w : Code) (part : Option (BitVec 6)) : Hub :=
  let i := slabPc ps
  let c := h.pc i
  if (c.queuedWrite ps off sector).isSome then
    (h.putPc i { c with wr := c.wr.map (fun x =>
      if x.ps = ps ∧ x.off = off ∧ x.sector = sector then { x with word := w } else x) }).bump (pChe (i / 2)) 0x58 16 16 1
  else h.putPc i { c with wr := c.wr ++ [⟨ps, off, sector, w, c.seq, part, false⟩], seq := c.seq + 1 }

/-- The level of background reads on the stack of a slab (R224). -/
def Hub.bgLevel (h : Hub) (ps : Nat) : Nat := h.fld (pStk (slabStack ps)) 0x804 8 3

/-- A fetch starts: its reads enter the queues of the PC of its slab (R222, R224). -/
def Hub.openFetch (h : Hub) (f : Fetch) : Nat × Hub :=
  let (id, h) := h.fresh
  let h := h.setLines { h.lines with fetches := h.lines.fetches ++ [{ f with id := id, got := 0, words := [] }] }
  (id, ((List.range 4).filter (fun i => bit f.want i)).foldl (fun h i =>
    h.pushRead ⟨id, i, f.ps, f.off, decide (f.kind = .narrow), f.level, f.trump, none, 0, f.cause, f.shaper, false, none⟩) h)

/-- A fetch of no request: at the background level of its stack (R224). -/
def Hub.bgFetch (h : Hub) (kind : FetchKind) (p : BitVec 6) (l ps s k : Nat) (want : BitVec 4) : Nat × Hub :=
  h.openFetch ⟨0, kind, p, l, ps, s, k, want, 0, [], 0, h.bgLevel ps, false, none, none⟩

/-- Every command of a PC that is queued or to be issued again is carried out, in the order in which they entered. -/
def Hub.drainPc (h : Hub) (i : Nat) : Hub :=
  let c := h.pc i
  let read (h : Hub) (r : RdEntry) : Hub := h.capture r.fetch r.sector (r.again.getD (h.memCode r.ps r.off r.sector))
  let write (h : Hub) (w : WrEntry) : Hub := h.putCode w.ps w.off w.sector w.word
  let all : List (Nat × (RdEntry ⊕ WrEntry)) := c.rd.map (fun e => (e.seq, Sum.inl e)) ++ c.wr.map (fun e => (e.seq, Sum.inr e))
  let h := h.putPc i { c with rd := [], wr := [], reissue := [], recover := 0 }
  let h := c.reissue.foldl (fun h e => e.wr.toList.foldl write (e.rd.toList.foldl read h)) h
  (all.mergeSort (fun a b => decide (a.1 ≤ b.1))).foldl (fun h e => match e.2 with
    | .inl r => read h r
    | .inr w => write h w) h

/-! The partition that owns a logical slab (R126 OWNED) -/

def Hub.slabOwner (h : Hub) (k : Nat) : Option Nat :=
  (List.range 64).find? (fun p =>
    let c := h.part p
    c.enabled && (List.range c.count).any (fun i => h.setEntry (c.first + i) == k))

/-- The owner of a logical slab and the slab's place in its set. -/
def Hub.slabSeat (h : Hub) (k : Nat) : Option (Nat × Nat) :=
  (h.slabOwner k).bind (fun p =>
    ((List.range (h.part p).count).find? (fun i => h.setEntry ((h.part p).first + i) == k)).map (fun i => (p, i)))

/-- The window line of an offset, from its slab's seat (R202, R207, R345). -/
def Hub.seatLine (h : Hub) (p i s : Nat) : Option (Nat × Nat) :=
  let b := h.unshuffle p i s
  if !(h.part p).managed then some (p, b)
  else
    let e := h.rev p (b / 256)
    if revState e = 2 ∨ revState e = 3 then some (p, bitsNat e 0 26 * 256 + b % 256) else none

/-- The window line that an offset of a logical slab belongs to (R202, R345). -/
def Hub.windowLine (h : Hub) (k s : Nat) : Option (Nat × Nat) := (h.slabSeat k).bind (fun e => h.seatLine e.1 e.2 s)

/-! Encrypted stores -/

/-- The key slot of a partition; zeros stand for an empty slot, which no access reaches (R366). -/
def Hub.keys (h : Hub) (p : Nat) : KeySlot := (h.keySlot p).getD ⟨0, 0, 0⟩

def Hub.encrypt (h : Hub) (p k s sector : Nat) (x : Sector) : Sector := xts (h.keys p) false (xtsTweak k s sector) x
def Hub.decrypt (h : Hub) (p k s sector : Nat) (x : Sector) : Sector := xts (h.keys p) true (xtsTweak k s sector) x
def Hub.tagOf (h : Hub) (p k s sector : Nat) (c : Sector) : BitVec 64 := sectorTag (h.keys p) (xtsTweak k s sector) c

/-- The MAC of a whole line of plaintext at its place (R330) (DEDUCED, log 43). -/
def Hub.lineMac (h : Hub) (p k s : Nat) (x : Line) : BitVec 56 :=
  ((List.range 4).foldl (fun a i => a ^^^ h.tagOf p k s i (h.encrypt p k s i (x.sector i))) (0 : BitVec 64)).setWidth 56

/-- The MAC of a line as its sectors are stored, uncorrectable ones as zeros (R330). -/
def Hub.storedMac (h : Hub) (p k s : Nat) : BitVec 56 :=
  ((List.range 4).foldl (fun a i => a ^^^ h.tagOf p k s i (rsDecode (h.storedCode (h.steer k s) s i)).2) (0 : BitVec 64)).setWidth 56

/-! Metadata (R106, R129, R329, R331) -/

/-- The metadata line offset and the sector of it that hold a data offset's word (R106, R329). -/
def Hub.metaPlace (h : Hub) (s : Nat) : Nat × Nat := (metaOffset h.bigD s, metaWord s / 8)

/-- The first data offset whose word lies in a sector of a metadata line. -/
def Hub.metaBase (h : Hub) (off i : Nat) : Nat := (off - h.bigD) * 32 + 8 * i

/-- The metadata sector that covers an offset, as the stack and the write queue hold it. -/
def Hub.metaSector (h : Hub) (ps s : Nat) : Sector :=
  (rsDecode (h.storedCode ps (h.metaPlace s).1 (h.metaPlace s).2)).2

/-- The word of an offset in a metadata sector. -/
def wordIn (x : Sector) (s : Nat) : Meta := Meta.ofWord (x.extractLsb' (64 * (s % 8)) 64)
def putWord (x : Sector) (s : Nat) (m : Meta) : Sector := putBits x (64 * (s % 8)) 64 m.word.toNat

def Hub.metaAt (h : Hub) (ps s : Nat) : Meta := wordIn (h.metaSector ps s) s

/-- The word of an offset in the metadata cache of its slice (R331). -/
def Hub.findWord (h : Hub) (k s : Nat) : Option MetaWord := h.cache.words.find? (fun w => w.slab == k && w.off == s)

def Hub.setWords (h : Hub) (ws : List MetaWord) : Hub := h.setCache { h.cache with words := ws }

/-- The metadata word of a logical offset: cached, else zero in a chunk that is not written yet (R341), else as stored. -/
def Hub.metaOf (h : Hub) (k s : Nat) : Meta :=
  match h.findWord k s with
  | some w => w.word
  | none => if h.chunkState k s = .filled then h.metaAt (h.steer k s) s else Meta.zero

/-- A line that a way, a buffer entry or a line operation holds: its word stays in the metadata cache. -/
def Hub.lineUsed (h : Hub) (p l : Nat) : Bool :=
  h.cache.ways.any (fun e : Nat × Way => e.2.part.toNat == p && e.2.line == l) ||
  h.cache.wb.any (fun e => e.part.toNat == p && e.line == l) ||
  h.lines.ordered.any (fun o => o.part.toNat == p && o.line == l)

/-- Words that one slice's metadata cache has room for (R129). -/
def sliceWords : Nat := 32768

/-- A word enters its slice's metadata cache; where that is full, the oldest clean word of an unused line leaves
(DESIGN CHOICE, log 57). -/
def Hub.enterWord (h : Hub) (w : MetaWord) : Hub :=
  let slice (k s : Nat) : Option Nat := (h.windowLine k s).map (fun e => h.homeSlice e.1 e.2)
  if h.cache.words.length < sliceWords then h.setWords (h.cache.words ++ [w])
  else
    let mine := h.cache.words.filter (fun x => slice x.slab x.off == slice w.slab w.off)
    let idle (x : MetaWord) : Bool := !x.dirty && (match h.windowLine x.slab x.off with
      | some e => !h.lineUsed e.1 e.2
      | none => true)
    let ws := if mine.length < sliceWords then h.cache.words
      else match mine.find? idle with
        | some x => h.cache.words.filter (fun y => y != x)
        | none => h.cache.words
    h.setWords (ws ++ [w])

/-- Cached words that pass a test leave the metadata caches. -/
def Hub.dropWords (h : Hub) (f : MetaWord → Bool) : Hub := h.setWords (h.cache.words.filter (fun w => !f w))

/-- The integrity unit begins the read-modify-write of the sector that holds an offset's word (R331). -/
def Hub.startRmw (h : Hub) (k s : Nat) : Hub :=
  let m := h.metaPlace s
  let want : BitVec 4 := putBit 0 m.2 true
  if h.lines.fetches.any (fun f => f.kind == .rmw && f.slab == k && f.off == m.1 && f.want == want) then h
  else (h.bgFetch .rmw 0 0 (h.steer k s) m.1 k want).2

/-- A word as its slice's metadata cache holds it from now on, changed and not yet written. -/
def Hub.cacheWord (h : Hub) (k s : Nat) (m : Meta) : Hub :=
  match h.findWord k s with
  | some _ => h.setWords (h.cache.words.map (fun w => if w.slab = k ∧ w.off = s then { w with word := m, dirty := true } else w))
  | none => h.enterWord ⟨k, s, m, true, 0⟩

/-- A word changes: its slice's metadata cache holds the change until the integrity unit has written it (R331). -/
def Hub.putMeta (h : Hub) (k s : Nat) (m : Meta) : Hub :=
  let h := h.cacheWord k s m
  if h.chunkState k s = .filled then h.startRmw k s else h

/-- The word of an offset is at hand: cached, or known without a fetch (R341). -/
def Hub.wordAt (h : Hub) (k s : Nat) : Bool := (h.findWord k s).isSome || decide (h.chunkState k s ≠ .filled)

/-- The metadata word of a window line; zero where it has no place. -/
def Hub.lineMeta (h : Hub) (p l : Nat) : Meta :=
  match h.place p l with
  | some (k, s) => h.metaOf k s
  | none => Meta.zero

def Hub.putLineMeta (h : Hub) (p l : Nat) (m : Meta) : Hub :=
  match h.place p l with
  | some (k, s) => h.putMeta k s m
  | none => h

/-- A line becomes poisoned (R333). -/
def Hub.poisonLine (h : Hub) (p l : Nat) : Hub :=
  let m := h.lineMeta p l
  if m.poison then h else h.putLineMeta p l { m with poison := true }

/-- The word of a line is at hand. -/
def Hub.wordKnown (h : Hub) (p l : Nat) : Bool :=
  match h.place p l with
  | some (k, s) => h.wordAt k s
  | none => true

/-- A chunk's bit is set; the changes of its words that wait are written (R342). -/
def Hub.setFilled (h : Hub) (slab off : Nat) : Hub :=
  let m := putBit (h.chunkMap slab off) (chunkOf off) true
  let mine (w : MetaWord) : Bool := w.dirty && w.slab == slab && w.off / 128 == off / 128
  let h : Hub := { h with ras := { h.ras with
      filled := SMap.set (fun _ => 0) h.ras.filled (regionKey slab off) m
      pendChunks := h.ras.pendChunks.filter
        (fun c => !(c.slab == slab && c.region == off / 8192 && c.chunk == chunkOf off)) } }
  (h.cache.words.filter mine).foldl (fun h w => h.startRmw slab w.off) h

/-- A whole line written to its place with the matching MAC, its POISON and VOID as given. -/
def Hub.storeLine (h : Hub) (p k s : Nat) (x : Line) (poison void : Bool) : Hub :=
  let h' := (h.targets k).foldl (fun h ps =>
    (List.range 4).foldl (fun h i => h.pushWrite ps s i (rsEncode (h.encrypt p k s i (x.sector i))) none) h) h
  h'.putMeta k s ⟨h.lineMac p k s x, poison, void⟩

/-! RAS: talon, retirement, abandonment, repair (R110, R346, R349 to R354) -/

/-- Slabs in state TALON (R126). -/
def Hub.talonFree (h : Hub) : Nat := (h.amap.phys.filter (fun e => e.2.st == 2)).length

/-- A physical slab changes state; TALON_EMPTY when the last TALON slab leaves (R127). -/
def Hub.setPslab (h : Hub) (ps : Nat) (v : PSlab) : Hub :=
  let h' := h.putPslab ps v
  if (h.pslab ps).st = 2 ∧ v.st ≠ 2 ∧ h'.talonFree = 0 then h'.raise pMap 0 else h'

/-- The stacks in the order of R110 for a slab being replaced. -/
def talonOrder (st : Nat) : List Nat :=
  let o := if st % 2 = 0 then st + 1 else st - 1
  [st, o] ++ (List.range 8).filter (fun i => i ≠ st ∧ i ≠ o)

/-- The channel is in DRIFT or OFFLINE, under a slice or self-refresh too (R236, R237). -/
def Pc.leaving (c : Pc) : Bool :=
  let st := if c.st = 2 ∨ c.st = 6 then c.prior else c.st
  decide (st = 3 ∨ st = 4)

/-- The talon slab for logical slab k replacing physical slab a (R110); those already taken by a waiting retirement excepted. -/
def Hub.pickTalon (h : Hub) (k a : Nat) : Option Nat :=
  let ok (ps : Nat) : Bool :=
    let v := h.pslab ps
    v.st == 2 && v.prev != some (BitVec.ofNat 11 k) && !(h.pc (slabPc ps)).leaving && !h.ras.migs.any (fun m => m.b == ps)
  (talonOrder (slabStack a)).findSome? (fun st => ((List.range 256).map (fun i => st * 256 + i)).find? ok)

/-- The slab waits for retirement already: MOVING, in a migration, pending or about to be (R350, R354). -/
def Hub.retiring (h : Hub) (ps : Nat) : Bool :=
  h.ras.migs.any (fun m => m.a == ps) || h.ras.pending.any (fun e => e.1 == ps) || h.ras.pendingSoon.any (fun e => e.1 == ps)

/-- Step 1 and the submission of step 2 of a retirement, or the pending list (R351, R354) (DEDUCED, log 50). -/
def Hub.startRetire (h : Hub) (ps cause : Nat) : Hub :=
  let v := h.pslab ps
  let k := v.logical.toNat
  if v.st ≠ 1 ∨ h.retiring ps then h
  else
    let room : Bool := decide (h.ras.pending.length + h.ras.pendingSoon.length < 64)
    let wait (h : Hub) : Hub :=
      (h.setRas { h.ras with pendingSoon := h.ras.pendingSoon ++ [(ps, k, cause)] }).submit 6 true
        (le16 ps ++ le16 k ++ [BitVec.ofNat 8 cause])
    match h.pickTalon k ps with
    | none =>
      let h := (h.bump pRas 0x68 0 32 1).raise pRas 5
      if room then wait h else h
    | some b =>
      if h.fld pRas 0x800 8 3 ≤ h.ras.migs.length then
        if room then wait h else if cause = 3 then h else h.bump pRas 0x68 0 32 1
      else
        (h.setRas { h.ras with migs := h.ras.migs ++ [⟨k, ps, b, 0, 0, [], cause, 0⟩] }).submit 3 true
          (le16 k ++ le16 ps ++ le16 b ++ [BitVec.ofNat 8 cause])

/-- The slabs of a channel listed to be retired one after another: the next one that can be is retired (R234, R236, R350)
(DEDUCED, log 50). -/
def Hub.retireMore (h : Hub) (engine : Nat) : Hub :=
  (h.ras.retireNext.filter (fun e => slabEngine e.1 == engine)).foldl (fun h e =>
    if h.ras.migs.any (fun m => slabEngine m.a == engine) ∨ h.ras.pending.any (fun x => slabEngine x.1 == engine) ∨
        h.ras.pendingSoon.any (fun x => slabEngine x.1 == engine) then h
    else (h.setRas { h.ras with retireNext := h.ras.retireNext.filter (fun x => x != e) }).startRetire e.1 e.2) h

/-! Internal tricks (R201) -/

/-- An internal trick ends: its locks and its reads are gone. -/
def Hub.endItrick (h : Hub) (t : ITrick) : Hub :=
  let h := h.setLines { h.lines with
    ordered := h.lines.ordered.filter (fun o => o.kind != .ilock t.ctx)
    fetches := h.lines.fetches.filter (fun f => !t.reads.contains f.id) }
  h.setPages { h.pages with itricks := h.pages.itricks.filter (fun x => x.ctx != t.ctx) }

/-- The reservations of lines end (R201). -/
def Hub.unreserve (h : Hub) (ls : List (Nat × Nat)) : Hub :=
  h.setLines { h.lines with
    reserved := h.lines.reserved.filter (fun e => !ls.any (fun x => x.1 == e.1.toNat && x.2 == e.2)) }

/-- The window lines of a migration's present batch (R202). -/
def Hub.migLines (h : Hub) (m : Migration) : List (Nat × Nat) :=
  (List.range 16).filterMap (fun i => h.windowLine m.k (m.wm + i))

/-- The internal trick of a migration, if its locks are placed. -/
def Hub.migTrick (h : Hub) (m : Migration) : Option ITrick :=
  h.pages.itricks.find? (fun t => t.move.isNone && t.target == m.b)

/-- Parity errors of a PC within the last 1 s, 0 to 3 (R234, R242). -/
def Hub.recentParity (h : Hub) (i : Nat) : Nat :=
  min 3 ((h.pc i).parity.filter (fun t => decide (h.now < t + 100000000))).length

/-- A migration is abandoned: the ABANDON entry is submitted; its commit returns k to A (R353). -/
def Hub.abandon (h : Hub) (b : Nat) : Hub :=
  match h.ras.migs.find? (fun m => m.b == b && (m.phase == 1 || m.phase == 2)) with
  | none => h
  | some m =>
    let h := match h.migTrick m with
      | some t => h.endItrick t
      | none => h
    let h := h.unreserve (h.migLines m)
    (h.setRas { h.ras with migs := h.ras.migs.map (fun x => if x.b = b then { x with phase := 3 } else x) }).submit 5 true
      (le16 m.k ++ le16 m.a ++ le16 m.b)

/-- Repairs queued or running on a stack (R346). -/
def Hub.repairsOf (h : Hub) (st : Nat) : List Repair := h.ras.repairs.filter (fun r => slabStack r.ps == st)

/-- The first repair of a stack commits its REPAIR entry (R346 step 2) (DEDUCED, log 50). -/
def Hub.kickRepair (h : Hub) (st : Nat) : Hub :=
  match h.repairsOf st with
  | r :: _ =>
    if r.phase ≠ 0 ∨ h.therm.episode then h
    else (h.setRas { h.ras with repairs := h.ras.repairs.map (fun x => if x = r then { x with phase := 1 } else x) }).submit
      2 true (le32 (r.ps + r.bg * 2048 + r.bank * 8192 + r.row * 65536))
  | [] => h

/-- A repair of a row is requested (R346, R349). -/
def Hub.requestRepair (h : Hub) (ps off : Nat) : Hub :=
  let v := h.pslab ps
  let bg := bgOf off
  let bank := bankOf off
  let row := rowOf off
  if v.st ≠ 1 then h
  else if h.ras.table.contains (ps, bg, bank, row) ∨ 4096 ≤ h.ras.table.length ∨ v.slow then h.startRetire ps 0
  else if h.ras.repairs.any (fun r => r.ps == ps && r.bg == bg && r.bank == bank && r.row == row) then h
  else if 16 ≤ (h.repairsOf (slabStack ps)).length then h
  else (h.setRas { h.ras with repairs := h.ras.repairs ++ [⟨ps, bg, bank, row, 0⟩] }).kickRepair (slabStack ps)

/-- A sector corrected on a physical slab (R333). -/
def Hub.reportCe (h : Hub) (ps n : Nat) : Hub :=
  let v := h.pslab ps
  (h.bump pRas 0x48 0 32 n).putPslab ps { v with ce := satAdd 65535 v.ce n }

/-- An uncorrectable sector, of data or of metadata: counters, LAST_UE, the repair of its row or the abandonment of a target
(R333, R346, R352) (DEDUCED, log 44). -/
def Hub.noteUe (h : Hub) (ps off sector source : Nat) : Hub :=
  let v := h.pslab ps
  let h := (h.bump pRas 0x4C 0 32 1).putPslab ps { v with ue := satAdd 255 v.ue 1 }
  let h := h.wr pRas 0x70 (putBit (putBits (putBits (BitVec.ofNat 32 ps) 12 2 sector) 16 3 source) 31 true)
  let h := h.wr pRas 0x74 (BitVec.ofNat 32 off)
  if v.st = 3 then h.abandon ps else h.requestRepair ps off

/-- An uncorrectable sector of data raises UE too (R333). -/
def Hub.reportUe (h : Hub) (ps off sector source : Nat) : Hub := (h.raise pRas 1).noteUe ps off sector source

/-- A MAC mismatch: counter, cause bit, critical journal entry (R333). -/
def Hub.reportMac (h : Hub) (ps off : Nat) : Hub :=
  ((h.bump pRas 0x50 0 32 1).raise pRas 2).submit 0x10 true (le16 ps ++ le32 off)

/-- Migrations whose target passes a test are abandoned: its PC or channel is being left (R353). -/
def Hub.abandonWhere (h : Hub) (on : Nat → Bool) : Hub :=
  (h.ras.migs.filter (fun m => on m.b)).foldl (fun h m => h.abandon m.b) h

/-- The words of a metadata sector are known anew: cached ones as changed, the others as given, and the sector is written to every
slab that a write goes to (R331, R352). -/
def Hub.writeWords (h : Hub) (k off i : Nat) (x : Sector) : Hub :=
  let base := h.metaBase off i
  let x := (List.range 8).foldl (fun x j => match h.findWord k (base + j) with
    | some w => putWord x (base + j) w.word
    | none => x) x
  let h := h.setWords (h.cache.words.map (fun w =>
    if w.slab = k ∧ base ≤ w.off ∧ w.off < base + 8 then { w with dirty := false } else w))
  (h.targets k).foldl (fun h t => h.pushWrite t off i (rsEncode x) none) h

/-- The metadata sector of an offset is UNCORRECTABLE: its eight lines are poisoned and a new sector is written, with the MACs of
what is stored where no cache holds a word (R333) (DEDUCED, log 43). -/
def Hub.reportMetaUe (h : Hub) (k off i : Nat) (ps source : Nat) : Hub :=
  let base := h.metaBase off i
  let x : Sector := (List.range 8).foldl (fun x j =>
    let mac := match h.windowLine k (base + j) with
      | some e => h.storedMac e.1 k (base + j)
      | none => 0
    putWord x (base + j) ⟨mac, true, false⟩) 0
  let h := h.setWords (h.cache.words.map (fun w =>
    if w.slab = k ∧ base ≤ w.off ∧ w.off < base + 8 then { w with word := { w.word with poison := true } } else w))
  (h.writeWords k off i x).noteUe ps off i source

end Sys2Proof.Machine
end

