-- ==== Sys2Proof/Machine/Lines.lean ====
section
/-!
DEFINITION. The home slices: sets and ways (R128 to R132), replacement (R137, R139, R145), eviction and the write-back buffer
(R136, R175), and how a line operation is served once it is first of its line (R134, R135, R140 to R142, R147, R172, R335,
R336, R341). `settle` serves every operation that can be served, in order of order instants (R42).
-/
namespace Sys2Proof.Machine

/-! Sets and ways -/

/-- The set number of a line (R130). -/
def Hub.setNo (h : Hub) (p l : Nat) : Nat :=
  let c := h.part p
  let x := if c.managed && !c.quad then l / 1024 * 2 + l / 128 % 2 else l / 128
  (x + 331 * p) % 4096

/-- The set of a line within the whole cache: slice × 4096 + set. -/
def Hub.setIdx (h : Hub) (p l : Nat) : Nat := h.homeSlice p l * 4096 + h.setNo p l

def Hub.homeSeg (h : Hub) (p l : Nat) : Nat := h.homeSlice p l / 128

def wayKeys (set : Nat) : List Nat := (List.range 16).map (fun w => set * 16 + w)

/-- The way that holds a line (R131). -/
def Hub.findWay (h : Hub) (p l : Nat) : Option Nat :=
  (wayKeys (h.setIdx p l)).find? (fun k => let w := h.way k; w.st != .invalid && w.part.toNat == p && w.line == l)

/-- The write-back buffer entry of a line (DEDUCED, log 17). -/
def Hub.findWb (h : Hub) (p l : Nat) : Option WbEntry := h.cache.wb.find? (fun e => e.part.toNat == p && e.line == l)

def Hub.putWb (h : Hub) (e : WbEntry) : Hub :=
  h.setCache { h.cache with wb := h.cache.wb.map (fun x => if x.part = e.part ∧ x.line = e.line then e else x) }
def Hub.dropWb (h : Hub) (p l : Nat) : Hub :=
  h.setCache { h.cache with wb := h.cache.wb.filter (fun x => !(x.part.toNat == p && x.line == l)) }

/-- Unreserved ways of a set: 16 - k of them (R143). -/
def Hub.openWays (h : Hub) (set : Nat) : List Nat := (wayKeys set).take (16 - h.cache.k)

/-- The lines of a set's unreserved ways from most to least recent. -/
def Hub.recency (h : Hub) (set : Nat) : List Nat :=
  let ks := (h.openWays set).filter (fun k => (h.way k).st != .invalid)
  ks.mergeSort (fun a b => decide ((h.way a).rank.toNat ≤ (h.way b).rank.toNat))

def Hub.rerank (h : Hub) (ks : List Nat) : Hub :=
  ks.zipIdx.foldl (fun h k => h.putWay k.1 { h.way k.1 with rank := BitVec.ofNat 4 k.2 }) h

/-- Lines a set may protect (R137). -/
def Hub.protectLimit (h : Hub) : Nat := min (h.fld pCache 0x800 0 4) (15 - h.cache.k)

/-- Protection within P: the least recent protected lines lose it (R137). -/
def Hub.protect (h : Hub) (set k : Nat) : Hub :=
  let lim := h.protectLimit
  if lim = 0 then h
  else
    let others := (h.recency set).filter (fun x => x != k && (h.way x).prot)
    let h := (others.drop (lim - 1)).foldl (fun h x => h.putWay x { h.way x with prot := false }) h
    h.putWay k { h.way k with prot := true }

/-- A line placed in the recency order as its hint directs (R137, R146). -/
def Hub.touch (h : Hub) (k hint : Nat) (insert : Bool) : Hub :=
  let w := h.way k
  if w.pin then h
  else
    let set := k / 16
    let others := (h.recency set).filter (fun x => x != k)
    let order := if hint = 2 then others ++ [k] else k :: others
    let h := if insert ∨ hint = 2 then h.putWay k { w with prot := false } else h
    let h := h.rerank order
    if hint = 1 then h.protect set k else h

/-! Kitty windows (R144, R145) -/

/-- The enabled kitty window of a line. -/
def Hub.kittyOf (h : Hub) (p l : Nat) : Option Nat :=
  let a := (h.part p).base.toNat + 256 * l
  (List.range 16).find? (fun i =>
    let w := SMap.get (fun _ => KittyWin.off) h.cache.kitty i
    bit w.ctrl 31 && bitsNat w.ctrl 0 6 == p && decide (w.base ≤ a ∧ a < w.base + w.units * 65536))

/-! Reads of the slices (R328, R338) -/

def Hub.noteCacheUe (h : Hub) : Hub := (h.bump pRas 0x5C 0 32 1).raise pRas 6
def Hub.noteCacheCe (h : Hub) : Hub := h.bump pRas 0x58 0 32 1

/-- One sector of a way is read: a corrected unit is rewritten, an uncorrectable one is absent where it was clean, zeros under
POISON where it was dirty (R338). -/
def Hub.readUnit (h : Hub) (k i : Nat) : Hub :=
  let w := h.way k
  let j := judgeUnit (w.data.sector i) w.flaw i
  let w' := { w with flaw := w.flaw.filter (fun e => e.1 != i) }
  match j.1 with
  | .clean => h.putWay k w'
  | .corrected => h.noteCacheCe.putWay k { w' with data := w.data.putSector i j.2 }
  | .uncorrectable =>
    if bit w.m i then (h.noteCacheUe.putWay k { w' with data := w.data.putSector i 0 }).poisonLine w.part.toNat w.line
    else h.noteCacheUe.putWay k { w' with v := putBit w.v i false }

/-- Sectors of a way are read. -/
def Hub.readWay (h : Hub) (k : Nat) (mask : BitVec 4) : Hub :=
  ((List.range 4).filter (fun i => bit mask i && bit (h.way k).v i && (h.way k).flaw.any (fun e => e.1 == i))).foldl
    (fun h i => h.readUnit k i) h

/-- Sectors of a write-back buffer entry are read; all it holds is dirty (R338). -/
def Hub.readWb (h : Hub) (p l : Nat) (mask : BitVec 4) : Hub :=
  (List.range 4).foldl (fun h i => match h.findWb p l with
    | none => h
    | some e =>
      if !(bit mask i && bit e.m i && e.flaw.any (fun x => x.1 == i)) then h
      else
        let j := judgeUnit (e.data.sector i) e.flaw i
        let e' := { e with flaw := e.flaw.filter (fun x => x.1 != i), data := e.data.putSector i j.2 }
        match j.1 with
        | .clean => h.putWb e'
        | .corrected => h.noteCacheCe.putWb e'
        | .uncorrectable => (h.noteCacheUe.putWb e').poisonLine p l) h

/-- The unit of a metadata cache that holds a word is read: where it is lost, unchanged words are fetched again, and the lines of
changed ones are poisoned (R338) (DEDUCED, log 43). -/
def Hub.readWord (h : Hub) (k s : Nat) : Hub :=
  match h.findWord k s with
  | none => h
  | some w =>
    if w.flaw = 0 then h
    else
      let fixed (h : Hub) : Hub :=
        h.setWords (h.cache.words.map (fun x => if x.slab = k ∧ x.off = s then { x with flaw := 0 } else x))
      match (rsDecode w.flaw).1 with
      | .clean => fixed h
      | .corrected => fixed h.noteCacheCe
      | .uncorrectable =>
        let mine (x : MetaWord) : Bool := x.slab == k && x.off / 8 == s / 8
        let lost := h.cache.words.filter (fun x => mine x && x.dirty)
        let h := h.noteCacheUe.dropWords mine
        lost.foldl (fun h x =>
          let mac := match h.windowLine k x.off with
            | some e => h.storedMac e.1 k x.off
            | none => 0
          h.putMeta k x.off ⟨mac, true, false⟩) h

/-- The metadata unit of a line is read. -/
def Hub.readLineWord (h : Hub) (p l : Nat) : Hub :=
  match h.place p l with
  | some (k, s) => h.readWord k s
  | none => h

/-! Eviction (R136, R332) -/

/-- The tags of the clean valid sectors of a line (R332) (DEDUCED, log 43). -/
def Hub.cleanTags (h : Hub) (p l : Nat) (mask : BitVec 4) (x : Line) : List (Nat × BitVec 64) :=
  match h.place p l with
  | none => []
  | some (k, s) => ((List.range 4).filter (bit mask)).map (fun i => (i, h.tagOf p k s i (h.encrypt p k s i (x.sector i))))

/-- Entries in use in a segment's write-back buffer. -/
def Hub.wbUsed (h : Hub) (g : Nat) : Nat := (h.cache.wb.filter (fun e => e.seg.toNat == g)).length

/-- The integrity unit's read of the sectors of a line whose tags a write-back needs (R332). -/
def Hub.tagFetch (h : Hub) (p l : Nat) : Option Fetch :=
  h.lines.fetches.find? (fun f => f.kind == .tags && f.part.toNat == p && f.line == l)

/-- The stored sectors whose tags a write-back needs are asked for, unless they are under way (R222, R332). -/
def Hub.askTags (h : Hub) (p l : Nat) (want : BitVec 4) : Hub :=
  match h.place p l with
  | none => h
  | some (k, s) =>
    if want = 0 then h
    else match h.tagFetch p l with
      | some f => if want &&& ~~~f.want = 0 then h
          else ((h.dropFetch f.id).bgFetch .tags (BitVec.ofNat 6 p) l (h.steer k s) s k want).2
      | none => (h.bgFetch .tags (BitVec.ofNat 6 p) l (h.steer k s) s k want).2

/-- What was read for a write-back that is not made serves no other. -/
def Hub.dropTags (h : Hub) (p l : Nat) : Hub :=
  match h.tagFetch p l with
  | some f => h.dropFetch f.id
  | none => h

/-- The tags that a write-back needs have been read. -/
def Hub.tagsReady (h : Hub) (p l : Nat) (want : BitVec 4) : Bool :=
  decide (want = 0) || (match h.tagFetch p l with
    | some f => decide (want &&& ~~~f.got = 0)
    | none => false)

/-- A line leaves its way: a trick whose phase one had confirmed it will vote REGATHER (R194). -/
def Hub.noteEvicted (h : Hub) (p l : Nat) : Hub :=
  { h with tricks := h.tricks.map (fun e : Nat × Trick =>
      if e.2.st = 2 ∧ e.2.phase = 2 ∧ e.2.part.toNat = p then (e.1, { e.2 with lost := l :: e.2.lost }) else e) }

/-- The sectors of a line that a write-back neither carries nor knows the tags of. -/
def WbEntry.absent (e : WbEntry) : BitVec 4 :=
  e.tags.foldl (fun m t => putBit m t.1 false) (~~~e.m)

/-- A way is freed: dirty sectors move into the write-back buffer, and what their MAC needs of the stack is asked for; none where
no entry is free (R136, R332). -/
def Hub.evict (h : Hub) (k : Nat) : Option Hub :=
  let w0 := h.way k
  let g := k / 16 / 4096 / 128
  if w0.st = .invalid then some (h.putWay k Way.invalid)
  else if w0.m ≠ 0 ∧ 1024 ≤ h.wbUsed g then none
  else
    let h := h.readWay k w0.v
    let w := h.way k
    let p := w.part.toNat
    let h := (h.putWay k Way.invalid).noteEvicted p w.line
    if w.m = 0 then some h
    else
      let e : WbEntry := ⟨w.part, w.line, BitVec.ofNat 2 g, w.m, w.data, h.cleanTags p w.line (w.v &&& ~~~w.m) w.data, false, []⟩
      some ((h.setCache { h.cache with wb := h.cache.wb ++ [e] }).askTags p w.line e.absent)

/-! Victims and allocation (R139, R145) -/

/-- The way is the victim that a waiting allocation has chosen (R139). -/
def Hub.isChosen (h : Hub) (k : Nat) : Bool := h.cache.chosen.any (fun e => e.1 == k)

def Hub.setChosen (h : Hub) (v : List (Nat × Nat × Nat)) : Hub := h.setCache { h.cache with chosen := v }

/-- The choice made for a line is given up. -/
def Hub.unchoose (h : Hub) (p l : Nat) : Hub := h.setChosen (h.cache.chosen.filter (fun e => !(e.2.1 == p && e.2.2 == l)))

/-- Unreserved ways that may be taken (R139). -/
def Hub.candidates (h : Hub) (set : Nat) : List Nat :=
  (h.openWays set).filter (fun k =>
    let w := h.way k
    w.st != .reducing && w.st != .locked && w.st != .filling && !w.held && !h.isChosen k)

/-- The victim of a set, when one can be taken now (R139) (DEDUCED, log 40). -/
def Hub.victim (h : Hub) (set : Nat) : Option Nat :=
  let cand := h.candidates set
  match cand.find? (fun k => (h.way k).st == .invalid) with
  | some k => some k
  | none =>
    let order := (h.recency set).filter (fun k => cand.contains k)
    match (order.filter (fun k => !(h.way k).prot)).getLast? with
    | some k => some k
    | none => order.getLast?

/-- The victim chosen for a line before, or one chosen now. -/
def Hub.victimFor (h : Hub) (p l : Nat) : Option Nat :=
  match h.cache.chosen.find? (fun e => e.2.1 == p && e.2.2 == l) with
  | some e => if (h.way e.1).held then h.victim (h.setIdx p l) else some e.1
  | none => h.victim (h.setIdx p l)

/-- A way allocated for a line, empty and VALID, holding what the write-back buffer held of it; none where the allocation waits,
for a candidate or, with its victim chosen, for a buffer entry (R136, R139, R145, DEDUCED, log 17). -/
def Hub.allocate (h : Hub) (p l hint : Nat) : Option Nat × Hub :=
  let set := h.setIdx p l
  let base : Way := ⟨.valid, BitVec.ofNat 6 p, l / 524288, 0, 0, 0, false, false, 0, 0, false, l, 0, []⟩
  let fillIn (h : Hub) (k : Nat) (w : Way) : Hub :=
    match h.findWb p l with
    | some e => ((h.putWay k { w with v := e.m, m := e.m, data := e.data, flaw := e.flaw }).dropWb p l).dropTags p l
    | none => h.putWay k w
  let plain (h : Hub) (hint : Nat) : Option Nat × Hub :=
    match h.victimFor p l with
    | none => (none, h)
    | some k =>
      match h.evict k with
      | none =>
        (none, if h.cache.chosen.contains (k, p, l) then h
          else (h.unchoose p l).setChosen ((h.unchoose p l).cache.chosen ++ [(k, p, l)]))
      | some h => (some k, ((fillIn (h.unchoose p l) k base).touch k hint true))
  match h.kittyOf p l with
  | none => plain h hint
  | some i =>
    let mask := bitsNat (SMap.get (fun _ => KittyWin.off) h.cache.kitty i).ctrl 16 12
    match ((List.range 12).filter (fun b => mask / 2 ^ b % 2 == 1)).find? (fun b => (h.way (set * 16 + 4 + b)).st == .invalid) with
    | some b => (some (set * 16 + 4 + b), fillIn h (set * 16 + 4 + b) { base with pin := true, kw := BitVec.ofNat 4 i })
    | none => match plain h 0 with
      | (some k, h) => (some k, (h.bump pCache 0x70 0 32 1).raise pCache 1)
      | r => r

/-! Line operations -/

def Hub.putOp (h : Hub) (o : LineOp) : Hub :=
  h.setLines { h.lines with ordered := h.lines.ordered.map (fun x => if x.id = o.id then o else x) }
def Hub.dropOp (h : Hub) (id : Nat) : Hub :=
  h.setLines { h.lines with ordered := h.lines.ordered.filter (fun x => x.id ≠ id) }

/-- The sectors of a line operation. -/
def LineOp.sectors (o : LineOp) : BitVec 4 := touchedSectors o.en

/-- The requested sectors of a line, in address order (R63). -/
def sectorsOf (x : Line) (mask : BitVec 4) : List Sector :=
  ((List.range 4).filter (fun i => bit mask i)).map (fun i => x.sector i)

/-- The shaper that a request of a source passed (R256). -/
def shaperOf (src : Src) (cls : BitVec 3) : Option Nat :=
  match src with
  | .port p => some (p.toNat / 2 * 8 + cls.toNat)
  | .dma c => some (c.toNat / 4 * 8 + cls.toNat)
  | .remote _ | .dump | .kitty => none

/-- What a fetch is made for: its source, the request's header, and the level where the source gives none (R224, R256). -/
structure Cause where
  src : Src
  hdr : Header
  level : Nat

def LineOp.cause (o : LineOp) : Cause := ⟨o.src, o.hdr, o.level⟩
def Req.cause (r : Req) : Cause := ⟨r.src, r.hdr, 0⟩
/-- A fetch of the hub's own for a partition: at the background level (R224). -/
def ownCause (part : BitVec 6) : Cause := ⟨.kitty, ⟨0, 0, false, false, 1, part, 0, 0, false, 0, 0, 0, 0, 0, 0, 0, 0, 0⟩, 0⟩

/-- The level at which reads that a request causes enter the channel engines of a slab (R224). -/
def Hub.levelOf (h : Hub) (c : Cause) (ps : Nat) (narrow : Bool) : Nat :=
  match c.src with
  | .port p =>
    if narrow then h.fld (pChe (slabEngine ps)) 0x4C 0 4
    else h.fld (pStk (slabStack ps)) (0x48 + 4 * (p.toNat / 8)) (4 * (p.toNat % 8)) 3
  | .kitty => h.bgLevel ps
  | .dma _ | .remote _ | .dump => c.level

/-- A fetch of sectors of an offset of a physical slab for a request (R222, R224). -/
def Hub.fetchOf (h : Hub) (kind : FetchKind) (p l ps k off : Nat) (want : BitVec 4) (c : Cause) (op : Nat) : Nat × Hub :=
  h.openFetch ⟨0, kind, BitVec.ofNat 6 p, l, ps, off, k, want, 0, [], op, h.levelOf c ps (decide (kind = .narrow)),
    c.hdr.trump && decide (c.hdr.opcode = 0), some c.hdr.part, shaperOf c.src c.hdr.cls⟩

/-- A fetch of absent sectors of a line starts. -/
def Hub.startFetch (h : Hub) (kind : FetchKind) (p l : Nat) (want : BitVec 4) (c : Cause) (op : Nat) : Nat × Hub :=
  match h.place p l with
  | none => (0, h)
  | some (k, s) => h.fetchOf kind p l (h.steer k s) k s want c op

def Hub.fetchFor (h : Hub) (kind : FetchKind) (o : LineOp) (want : BitVec 4) : Hub :=
  let (id, h) := h.startFetch kind o.part.toNat o.line want o.cause o.id
  h.putOp { o with fetch := id, wantWay := false }

/-- The metadata sector that holds the word of an offset is fetched, unless it is on its way (R129, R331). -/
def Hub.fetchWordAt (h : Hub) (p l k s : Nat) (c : Cause) : Nat × Hub :=
  let m := h.metaPlace s
  match h.lines.fetches.find? (fun f => f.kind == .word && f.slab == k && f.off == m.1 && bit f.want m.2) with
  | some f => (f.id, h)
  | none => h.fetchOf .word p l (h.steer k s) k m.1 (putBit 0 m.2 true) c 0

def Hub.fetchWord (h : Hub) (p l : Nat) (c : Cause) : Nat × Hub :=
  match h.place p l with
  | none => (0, h)
  | some (k, s) => h.fetchWordAt p l k s c

/-- The operation's own fetch is still under way. -/
def Hub.fetching (h : Hub) (o : LineOp) : Bool := (h.findFetch o.fetch).isSome

/-! Void lines (R140 to R142, R205, R211) -/

/-- Backing pages listed for a partition, ascending. -/
def Hub.listedPages (h : Hub) (p : Nat) : List (Nat × BitVec 64) :=
  (h.pages.rev.filter (fun e => p * 67108864 ≤ e.1 && e.1 < (p + 1) * 67108864)).map (fun e => (e.1 - p * 67108864, e.2))

/-- Backing pages in use, zeroed and dirty (R216). -/
def Hub.pageCounts (h : Hub) (p : Nat) : Nat × Nat × Nat :=
  let l := h.listedPages p
  let zeroed := (l.filter (fun e => revState e.2 == 1)).length
  let used := (l.filter (fun e => revState e.2 == 2 || revState e.2 == 3)).length
  (used, zeroed, (h.table p).p - used - zeroed)

def Hub.pageLow (h : Hub) (p : Nat) : Bool :=
  let (_, z, d) := h.pageCounts p
  (h.table p).built && decide (z + d < (SMap.get (fun _ => (0 : BitVec 24)) h.pages.low p).toNat)

/-- STATUS.LOW judged again; its rise raises LOW (R218). -/
def Hub.noteLow (h : Hub) (p : Nat) : Hub :=
  let now := h.pageLow p
  let was := bit h.pages.lowSeen p
  let h := h.setPages { h.pages with lowSeen := putBit h.pages.lowSeen p now }
  if now && !was then h.raise pPagemgr 2 else h

/-- A backing page returns to the pool as FREE_DIRTY (R210, R211, R212). -/
def Hub.freeDirty (h : Hub) (p b : Nat) : Hub := h.putRev p b 0

/-- The window lines of a page move's present batch (R212). -/
def PageMove.lines (m : PageMove) : List (Nat × Nat) := (List.range 16).map (fun i => (m.part.toNat, 256 * m.page + m.mw + i))

/-- The internal trick of a segment's page move, if its locks are placed. -/
def Hub.moveTrick (h : Hub) (g : Nat) : Option ITrick := h.pages.itricks.find? (fun t => t.move == some g)

/-- The move of a page is abandoned: its locks and reservations end, the target becomes FREE_DIRTY, the page ALLOCATED where it was
(R210 step 1). -/
def Hub.abandonMove (h : Hub) (p w : Nat) : Hub :=
  match h.moveOf p w with
  | none => h
  | some m =>
    let e := h.fwd p w
    let h := ((h.pages.itricks.filter (fun t => t.move.isSome && t.lines == m.lines)).foldl (fun h t => h.endItrick t) h).unreserve
      m.lines
    let h := (h.freeDirty p m.dst).putFwd p w (mkFwd m.src 1 (fwdVoids e))
    (h.setPages { h.pages with moves := h.pages.moves.filter (fun x => x.2 != some m) }).noteLow p

/-- A write or reduction of a page is past its order instant and not yet served. -/
def Hub.pageWritten (h : Hub) (p w : Nat) : Bool :=
  h.lines.ordered.any (fun o => (o.kind == .write || o.kind == .reduce) && o.part.toNat == p && o.line / 256 == w)

/-- VOIDS changes by one; at 256 the page becomes FOLDED and its backing page FREE_DIRTY, unless a write ordered before is still to
be applied to it (R211). -/
def Hub.voidCount (h : Hub) (p l : Nat) (up : Bool) : Hub :=
  if !(h.part p).managed then h
  else
    let w := l / 256
    let e := h.fwd p w
    let n := if up then fwdVoids e + 1 else fwdVoids e - 1
    if up ∧ 256 ≤ n ∧ !h.pageWritten p w then
      let h := h.abandonMove p w
      let e := h.fwd p w
      ((h.freeDirty p (fwdPage e)).putFwd p w (mkFwd 0 3 256)).noteLow p
    else h.putFwd p w (mkFwd (fwdPage e) (fwdState e) n)

/-- A fetch that brings sectors of a line into the cache die, or tags for its write-back. -/
def FetchKind.fills : FetchKind → Bool
  | .fill | .merge | .reduce | .wb | .clear | .tags => true
  | .narrow | .word | .rmw | .copy | .repair | .scrub => false

/-- A line is dropped from the cache die and the write-back buffer, with the fetches made for it. -/
def Hub.dropLine (h : Hub) (p l : Nat) : Hub :=
  let h := match h.findWay p l with
    | some k => h.putWay k Way.invalid
    | none => h
  (h.setLines { h.lines with
    fetches := h.lines.fetches.filter (fun f => !(f.kind.fills && f.part.toNat == p && f.line == l)) }).dropWb p l

/-- Step 3 of a FOLD: the line becomes void, its poison is cleared (R140, R141). -/
def Hub.makeVoid (h : Hub) (p l : Nat) : Hub :=
  let m := h.lineMeta p l
  let h := h.dropLine p l
  if m.void then h
  else (h.putLineMeta p l { m with void := true, poison := false }).voidCount p l true

/-- A write or reduction clears a line's void bit (R142, R211). -/
def Hub.clearVoid (h : Hub) (p l : Nat) : Hub :=
  let m := h.lineMeta p l
  if m.void then (h.putLineMeta p l { m with void := false }).voidCount p l false else h

/-! PENDING chunks (R341, R342) -/

/-- A line is in no way and in no buffer entry. -/
def Hub.lineAbsent (h : Hub) (p l : Nat) : Bool := (h.findWay p l).isNone && (h.findWb p l).isNone

/-- The fill of a chunk: zeros to each sector of every line that is not present, and the metadata sectors of the chunk, with the
matching MAC for those lines (R342) (DEDUCED, log 43). -/
def Hub.feedChunk (h : Hub) (k base : Nat) : Hub :=
  match h.slabSeat k with
  | none => h
  | some (p, i) =>
    let absent (s : Nat) : Bool := match h.seatLine p i s with
      | some (q, l) => h.lineAbsent q l
      | none => true
    let offs := (List.range 128).map (fun j => base + j)
    let void (s : Nat) : Bool := (h.metaOf k s).void
    let word (s : Nat) : Meta := if absent s then ⟨h.lineMac p k s 0, false, void s⟩ else Meta.zero
    let sector (s : Nat) : Sector := (List.range 8).foldl (fun x j => putWord x (s + j) (word (s + j))) 0
    let h := (offs.filter absent).foldl (fun h s => (h.targets k).foldl (fun h ps =>
      (List.range 4).foldl (fun h c => h.pushWrite ps s c (rsEncode (h.encrypt p k s c 0)) none) h) h) h
    ((List.range 16).map (fun j => base + 8 * j)).foldl (fun h s => (h.targets k).foldl (fun h ps =>
      h.pushWrite ps (h.metaPlace s).1 (h.metaPlace s).2 (rsEncode (sector s)) none) h) h

/-- A chunk becomes PENDING: what an earlier tenancy left in the metadata caches is gone, its fill begins (R341, R342). -/
def Hub.makePending (h : Hub) (slab off : Nat) : Hub :=
  let c : PendChunk := ⟨slab, off / 8192, chunkOf off, (h.lslab slab).home, h.now⟩
  let h := (h.setRas { h.ras with pendChunks := h.ras.pendChunks ++ [c] }).dropWords
    (fun w => w.slab == slab && w.off / 128 == off / 128)
  h.feedChunk slab (off / 128 * 128)

/-! Serving (none: the operation waits) -/

/-- A read is answered; a FOLD then takes effect (R63, R140). A read of the hub's own is answered to nobody (R149). -/
def Hub.finishRead (h : Hub) (o : LineOp) (code : Nat) (data : List Sector) (fold : Bool) : Hub :=
  let h := (h.dropOp o.id).act 1 data.length
  let h := if fold then h.makeVoid o.part.toNat o.line else h
  if o.src = .kitty then h
  else (if code = 2 then h.bump pCache 0x74 0 32 1 else h).answer o.req o.idx code 0 data

def Hub.evRead (h : Hub) (o : LineOp) (code : Nat) : Hub := if o.src = .kitty then h else h.countLine code 1 o.src o.hdr o.idx 0

/-- An allocation must wait, `h'` being what it leaves: the first wait is counted, for a buffer entry (R445) or, where no way may be
taken, for a REDUCING or LOCKED one (R139, R175); later only a new choice of victim is news. -/
def Hub.waitWay (h h' : Hub) (o : LineOp) : Option Hub :=
  if o.wantWay then (if h'.cache.chosen = h.cache.chosen then none else some h')
  else
    let set := h'.setIdx o.part.toNat o.line
    let pinned := (h'.openWays set).any (fun k => (h'.way k).st == .reducing || (h'.way k).st == .locked)
    let h' := if (h'.victimFor o.part.toNat o.line).isSome then
        h'.count ⟨0x0E, 1, some o.src.seg, none, some o.hdr.part, none⟩
      else if pinned then h'.bump pArith 0x64 0 32 1 else h'
    some (h'.putOp { o with wantWay := true })

/-- A way filled with a whole line of given data, all sectors valid; a lock on it stays (DEDUCED, log 17). -/
def Hub.fillWay (h : Hub) (k : Nat) (x : Line) (dirty : Bool) : Hub :=
  let w := h.way k
  h.putWay k { w with
    st := if w.st = .locked then .locked else .valid, v := 15, m := if dirty then 15 else 0, data := x, flaw := [] }

/-- The way of a line enters FILLING and the fetch of absent sectors starts. -/
def Hub.fillFor (h : Hub) (kind : FetchKind) (o : LineOp) (k : Nat) (want : BitVec 4) : Hub :=
  (h.putWay k { h.way k with st := .filling }).fetchFor kind o want

/-- A READ, first of its line (R134, R140, R141, R147, R335, R341). -/
def Hub.serveRead (h : Hub) (o : LineOp) : Option Hub :=
  let p := o.part.toNat
  let l := o.line
  let fold : Bool := decide (o.hdr.hint = 3)
  let req := o.sectors
  if h.pageState p l = 3 then some (h.finishRead o 2 [] false)
  else if h.lineChunk p l = .unfilled then some ((h.evRead o 7).finishRead o 0 (sectorsOf 0 req) false)
  else if h.lineChunk p l = .pending ∧ h.lineAbsent p l then none
  else
    let m := h.lineMeta p l
    if m.void then some (h.finishRead o 2 [] false)
    else if m.poison then some (h.finishRead o 1 [] fold)
    else
      let own : Bool := decide (o.fetch ≠ 0)
      let hit (h : Hub) : Hub := if own then h else h.evRead o 2
      let narrow : Bool := o.hdr.narrow && bit (h.rd pCache 0x44) 0
      let want (v : BitVec 4) : BitVec 4 := if bit (h.rd pCache 0x804) 0 then ~~~v else req &&& ~~~v
      let miss (_ : Unit) : Option Hub :=
        if narrow then some ((h.evRead o 4).fetchFor .narrow o req)
        else match h.allocate p l o.hdr.hint.toNat with
          | (none, h') => h.waitWay h' o
          | (some k, h) => some ((h.evRead o 3).fillFor .fill o k (want (h.way k).v))
      match h.findWay p l, h.findWb p l with
      | some k, _ =>
        let w := h.way k
        if w.st = .filling then none
        else if req &&& w.v = req then
          let h := if own then h else (hit h).touch k o.hdr.hint.toNat false
          some (h.finishRead o 0 (sectorsOf w.data req) fold)
        else if narrow then some ((h.evRead o 4).fetchFor .narrow o req)
        else some ((h.evRead o 3).fillFor .fill o k (want w.v))
      | none, some e =>
        if req &&& e.m = req then some ((hit h).finishRead o 0 (sectorsOf e.data req) fold)
        else if e.busy then none
        else miss ()
      | none, none => miss ()

/-- A line that a first write makes valid and dirty as a whole (R142, R341): true once it is. -/
def Hub.writeFresh (h : Hub) (p l hint : Nat) (x : Line) : Bool × Hub :=
  match h.findWay p l with
  | some k => (true, (h.fillWay k x true).touch k hint false)
  | none =>
    match h.allocate p l hint with
    | (none, h) => (false, h)
    | (some k, h) => (true, h.fillWay k x true)

/-- What a write finds it still has to do. -/
inductive WriteStep where
  | wait
  /-- No way can be taken now. -/
  | noWay (h : Hub)
  /-- Absent sectors of a part-written line to be fetched first: into the way, or into the buffer entry. -/
  | fetch (kind : FetchKind) (want : BitVec 4) (h : Hub)
  | done (h : Hub)

/-- Symbols held wrong in sectors that are written anew are gone. -/
def rewritten (x : Flips) (mask : BitVec 4) : Flips := x.filter (fun e => !bit mask e.1)

/-- Bytes written to a line at its home slice (R135, R136, R142, R196, R335, R337, R341); `own`: a fetch of this write has brought
the sectors. -/
def Hub.writeLine (h : Hub) (p l hint : Nat) (en : BitVec 256) (x : Line) (own : Bool) : WriteStep :=
  let full : Bool := decide (en = BitVec.allOnes 256)
  let ch := h.lineChunk p l
  let m := h.lineMeta p l
  if ch = .unfilled then
    match h.place p l with
    | none => .wait
    | some (k, s) =>
      match h.writeFresh p l hint (Line.merge 0 en x) with
      | (false, h) => .noWay h
      | (true, h) => .done (h.makePending k s)
  else if ch = .pending ∧ h.lineAbsent p l then .wait
  else if m.void then
    match h.writeFresh p l hint (Line.merge 0 en x) with
    | (false, h) => .noWay h
    | (true, h) => .done (h.clearVoid p l)
  else
    let unpoison (h : Hub) : Hub := if full ∧ m.poison then h.putLineMeta p l { m with poison := false } else h
    let touched := touchedSectors en
    let need := touched &&& ~~~(fullSectors en)
    let put (h : Hub) (k : Nat) (insert : Bool) : Hub :=
      let w := h.way k
      let h := h.putWay k { w with
        v := w.v ||| touched, m := w.m ||| touched, data := Line.merge w.data en x, flaw := rewritten w.flaw touched }
      unpoison (if own ∨ insert then h else h.touch k hint false)
    match h.findWay p l, h.findWb p l with
    | some k, _ =>
      let w := h.way k
      if w.st = .filling then .wait
      else if need &&& ~~~w.v = 0 then .done (put h k false)
      else .fetch .merge (need &&& ~~~w.v) (h.putWay k { w with st := .filling })
    | none, some e =>
      if e.busy then .wait
      else if need &&& ~~~e.m = 0 then
        .done (unpoison (h.putWb { e with
          m := e.m ||| touched, data := Line.merge e.data en x, flaw := rewritten e.flaw touched }))
      else .fetch .wb (need &&& ~~~e.m) (h.putWb { e with busy := true })
    | none, none =>
      match h.allocate p l hint with
      | (none, h) => .noWay h
      | (some k, h) =>
        if need = 0 then .done (put h k true)
        else .fetch .merge need (h.putWay k { h.way k with st := .filling })

/-- A WRITE, first of its line; it was acknowledged at its order instant (R47, R135). -/
def Hub.serveWrite (h : Hub) (o : LineOp) : Option Hub :=
  match h.writeLine o.part.toNat o.line o.hdr.hint.toNat o.en o.data (decide (o.fetch ≠ 0)) with
  | .wait => none
  | .noWay h' => h.waitWay h' o
  | .fetch kind want h => some (h.fetchFor kind o want)
  | .done h => some ((h.dropOp o.id).act 1 (sectorsOf 0 o.sectors).length)

/-- Target format, first byte and length of a reduction's line (R160, R162). -/
def LineOp.redFmt (o : LineOp) : Nat := targetFmt o.hdr.fmt.toNat (bitsNat o.hdr.mod 0 2)
def LineOp.redBase (o : LineOp) : Nat := if o.hdr.size.toNat < 2 then o.hdr.addr.toNat % 256 else 0
def LineOp.redLen (o : LineOp) : Nat := min 256 o.hdr.len

/-- A reduction dropped or cut short (R174, R181, R182). -/
def Hub.reportDrop (h : Hub) (p l : Nat) : Hub :=
  let h := (h.bump pArith 0x68 0 32 1).wr pArith 0x6C (BitVec.ofNat 32 l)
  (h.wr pArith 0x70 (putBit (putBits (BitVec.ofNat 32 (l / 2 ^ 32 % 256)) 16 6 p) 31 true)).raise pArith 0

/-- The way of a line enters REDUCING (R172). -/
def Hub.enterReducing (h : Hub) (p l : Nat) : Hub :=
  match h.findWay p l with
  | some k => h.putWay k { h.way k with st := .reducing }
  | none => h

/-- A REDUCE, first of its line: the target is made present and the line enters REDUCING (R171, R172, R174, R175). -/
def Hub.serveReduce (h : Hub) (o : LineOp) : Option Hub :=
  let p := o.part.toNat
  let l := o.line
  let hint := o.hdr.hint.toNat
  let ch := h.lineChunk p l
  let m := h.lineMeta p l
  let req := o.sectors
  let already : Bool := match h.findWay p l with
    | some k => (h.way k).st == .reducing
    | none => false
  if already then none
  else if ch = .unfilled then
    match h.place p l with
    | none => none
    | some (k, s) =>
      match h.writeFresh p l hint 0 with
      | (false, h') => h.waitWay h' o
      | (true, h) => some ((h.makePending k s).enterReducing p l)
  else if ch = .pending ∧ h.lineAbsent p l then none
  else if m.void then
    match h.writeFresh p l hint (identityLine o.redFmt o.hdr.rop.toNat o.redBase o.redLen o.en) with
    | (false, h') => h.waitWay h' o
    | (true, h) => some ((h.clearVoid p l).enterReducing p l)
  else if m.poison ∧ o.fetch = 0 then some ((h.reportDrop p l).dropOp o.id)
  else match h.findWay p l, h.findWb p l with
    | some k, _ =>
      let w := h.way k
      if w.st = .filling then none
      else if req &&& ~~~w.v = 0 then
        some ((if o.fetch = 0 then h.touch k hint false else h).enterReducing p l)
      else some (h.fillFor .reduce o k (req &&& ~~~w.v))
    | none, some e =>
      if e.busy then none
      else if req &&& ~~~e.m = 0 then some (h.putWb { e with busy := true })
      else some ((h.putWb { e with busy := true }).fetchFor .wb o (req &&& ~~~e.m))
    | none, none =>
      match h.allocate p l hint with
      | (none, h') => h.waitWay h' o
      | (some k, h) => some (h.fillFor .reduce o k (req &&& ~~~(h.way k).v))

/-- A CLEAR_POISON, first of its line (R336). -/
def Hub.serveClear (h : Hub) (o : LineOp) : Option Hub :=
  let p := o.part.toNat
  let l := o.line
  let m := h.lineMeta p l
  let ch := h.lineChunk p l
  if ch = .unfilled then some (h.dropOp o.id)
  else if ch = .pending ∧ h.lineAbsent p l then none
  else if m.void ∨ !m.poison then some (h.dropOp o.id)
  else
    let finish (h : Hub) : Hub := (h.putLineMeta p l { h.lineMeta p l with poison := false }).dropOp o.id
    match h.findWay p l, h.findWb p l with
    | some k, _ =>
      let w := h.way k
      if w.st = .filling then none
      else if w.v = 15 then some (finish (h.putWay k { w with m := 15 }))
      else some (h.fillFor .clear o k (~~~w.v))
    | none, some e =>
      if e.m = 15 then some (finish h)
      else if e.busy then none
      else some ((h.putWb { e with busy := true }).fetchFor .wb o (~~~e.m))
    | none, none =>
      match h.allocate p l 0 with
      | (none, h') => h.waitWay h' o
      | (some k, h) => some (h.fillFor .clear o k (~~~(h.way k).v))

/-! Locks of tricks (R191, R192, R194, R195) -/

/-- Bytes 0 to 7 of a line as one number (R191). -/
def lineValue (x : Line) : BitVec 64 := x.setWidth 64

/-- The vote of a condition on a line that has been locked (R191). -/
def condHolds (unfilled void : Bool) (x : Line) (c : Cond) : Bool :=
  if void then c.ne
  else
    let v : BitVec 64 := if unfilled then 0 else lineValue x
    if c.ne then v != c.operand else v == c.operand

/-- The lowest failing condition of a trick on a line, numbered in staging order. -/
def failing (conds : List Cond) (line : Nat) (holds : Cond → Bool) : Option Nat :=
  (conds.zipIdx).findSome? (fun c => if c.1.line = line ∧ !holds c.1 then some c.2 else none)

/-- A lock reaches its line, first of the line: the line enters LOCKED, or its absence votes REGATHER (R192, R194). -/
def Hub.serveLock (h : Hub) (o : LineOp) (slot : Nat) : Option Hub :=
  let t := h.trick slot
  let p := o.part.toNat
  let l := o.line
  if t.votes.any (fun v => v.1 == l) then none
  else
    let vote (h : Hub) (v : Vote) : Hub := h.putTrick slot { t with votes := t.votes ++ [(l, v)] }
    match h.findWay p l with
    | none => some (vote h .regather)
    | some k =>
      let w := h.way k
      if w.st = .filling ∨ w.st = .reducing then none
      else if t.lost.contains l ∨ h.isChosen k ∨ w.v ≠ 15 then some (vote h .regather)
      else
        let m := h.lineMeta p l
        let unfilled : Bool := decide (h.lineChunk p l = .unfilled)
        let compared := t.conds.any (fun c => c.line == l)
        let h := h.putWay k { w with st := .locked, since := h.now }
        if compared ∧ m.poison ∧ !unfilled then some (vote h .poisoned)
        else match failing t.conds l (condHolds unfilled (m.void && !unfilled) w.data) with
          | some n => some (vote h (.fails n))
          | none => some (vote h .holds)

/-! Every operation of a line -/

/-- The sectors that an operation reads of its line in the slice (R338): those of a read or reduction, those that a write merges
into, all four for a lock or CLEAR_POISON. -/
def LineOp.reads (o : LineOp) : BitVec 4 :=
  match o.kind with
  | .read | .reduce => o.sectors
  | .write => o.sectors &&& ~~~(fullSectors o.en)
  | .clearPoison | .lock _ | .ilock _ | .hold => 15

/-- The units of the slice that an operation reads are checked (R338). -/
def Hub.readUnits (h : Hub) (p l : Nat) (mask : BitVec 4) : Hub :=
  let h := match h.findWay p l with
    | some k => h.readWay k mask
    | none => h
  h.readWb p l mask

/-- The victim that an allocation waits for takes no operation until its data has moved (R139, R175). -/
def Hub.chosenLine (h : Hub) (o : LineOp) : Bool :=
  match h.findWay o.part.toNat o.line, o.kind with
  | _, .lock _ => false
  | some k, _ => h.isChosen k
  | none, _ => false

/-- One operation tried: its line's metadata word must be at hand (R331), and what it reads is checked (R338). -/
def Hub.serve (h : Hub) (o : LineOp) : Option Hub :=
  let p := o.part.toNat
  let l := o.line
  if o.kind == .hold || (o.kind matches .ilock _) || h.fetching o || h.chosenLine o then none
  else
    let h := h.readLineWord p l
    if !h.wordKnown p l then
      let (id, h) := h.fetchWord p l o.cause
      some (h.putOp { o with fetch := id })
    else
      let h := h.readUnits p l o.reads
      match o.kind with
      | .read => h.serveRead o
      | .write => h.serveWrite o
      | .reduce => h.serveReduce o
      | .clearPoison => h.serveClear o
      | .lock s => h.serveLock o s.toNat
      | .ilock _ | .hold => none

/-- The first unfinished operation of a line (R42). -/
def Hub.lineFirst (h : Hub) (part : BitVec 6) (l : Nat) : Option LineOp :=
  h.lines.ordered.find? (fun x => x.part == part && x.line == l)

/-- No earlier operation of its line is unfinished (R42). -/
def Hub.firstOfLine (h : Hub) (o : LineOp) : Bool :=
  match h.lineFirst o.part o.line with
  | some x => x.id == o.id
  | none => false

/-- The operations that wait for what has arrived for a line are served, in their order, before any other (R139). -/
def Hub.settleLineN (h : Hub) (part : BitVec 6) (l : Nat) : Nat → Hub
  | 0 => h
  | n + 1 =>
    match h.lineFirst part l with
    | none => h
    | some o =>
      if o.wantWay then h
      else match h.serve o with
        | some h' => h'.settleLineN part l n
        | none => h

/-- One pass over the ordered operations, those waiting for a way first (R139); true when something was served. -/
def Hub.servePass (h : Hub) : Hub × Bool :=
  let ids := (h.lines.ordered.filter (·.wantWay) ++ h.lines.ordered.filter (fun o => !o.wantWay)).map (·.id)
  ids.foldl (fun (a : Hub × Bool) id =>
    match a.1.lines.ordered.find? (fun o => o.id == id) with
    | none => a
    | some o =>
      if a.1.firstOfLine o then
        match a.1.serve o with
        | some h' => (h', true)
        | none => a
      else a) (h, false)

/-- Passes until nothing more can be served. -/
def Hub.settleN (h : Hub) : Nat → Hub
  | 0 => h
  | n + 1 =>
    match h.servePass with
    | (h', true) => h'.settleN n
    | (_, false) => h

/-- Every operation that can be served is served. -/
def Hub.settle (h : Hub) : Hub := h.settleN (4 * h.lines.ordered.length + 4)

/-- Every operation that can be served is served, those of one line first. -/
def Hub.settleLine (h : Hub) (part : BitVec 6) (l : Nat) : Hub :=
  (h.settleLineN part l (4 * h.lines.ordered.length + 4)).settle

end Sys2Proof.Machine
end

