-- ==== Sys2Proof/Machine/Tricks.lean ====
section
/-!
DEFINITION. What the coordinators of tricks and the translation units do (chapter 6): staging (R184 to R191), the gathering,
locking, voting and commit of a trick (R192 to R199), page allocation and release (R205 to R211).
-/
namespace Sys2Proof.Machine

/-- Line index of a request in its partition window. -/
def Req.line (r : Req) : Nat :=
  match r.target with
  | .local l => l
  | _ => 0

/-- Enabled bytes of a single-line request, in their places in the line (R58). -/
def lineEnOf (hd : Header) : BitVec 256 :=
  BitVec.ofNat 256 ((hd.byteEn.toNat % 2 ^ min 256 hd.len) <<< (hd.addr.toNat % 256))

/-- Flits in their places in the line. -/
def lineData (hd : Header) (flits : List Sector) : Line :=
  BitVec.ofNat 2048 ((flits.zipIdx.foldl (fun a f => a + f.1.toNat <<< (512 * f.2)) 0) <<< (8 * (hd.addr.toNat % 256)))

/-! Gathering (R193) -/

/-- A line absent from the cache die is allocated, and its four sectors are fetched unless it holds zeros; its metadata word first,
where it is not at hand; nothing where no way is free now. -/
def Hub.gather (h : Hub) (p l : Nat) (c : Cause) : Hub :=
  let fill (h : Hub) (k : Nat) (want : BitVec 4) : Hub :=
    ((h.putWay k { h.way k with st := .filling }).startFetch .fill p l want c 0).2
  let h := h.readLineWord p l
  if !h.wordKnown p l then (h.fetchWord p l c).2
  else
    let h := h.readUnits p l 15
    match h.findWay p l with
    | some k =>
      let w := h.way k
      if w.st ≠ .valid ∨ w.v = 15 then h else fill h k (~~~w.v)
    | none =>
      let busy : Bool := match h.findWb p l with
        | some e => e.busy
        | none => h.lineChunk p l == .pending
      let holdsZeros : Bool := (h.lineChunk p l == .unfilled || (h.lineMeta p l).void) && (h.findWb p l).isNone
      if busy then h
      else match h.allocate p l 0 with
        | (none, h) => h
        | (some k, h) =>
          if holdsZeros then h.fillWay k 0 false
          else if (h.way k).v = 15 then h
          else fill h k (~~~(h.way k).v)

/-- A line is present: in a way, with no fetch into it under way. -/
def Hub.present (h : Hub) (p l : Nat) : Bool :=
  match h.findWay p l with
  | some k => (h.way k).st != .filling && (h.way k).v == 15
  | none => false

/-- The lines of a trick, staged and compared, each once. -/
def Trick.all (t : Trick) : List Nat := (t.lines.map (·.line) ++ t.conds.map (·.line)).eraseDups

/-! Results (R197, R198) -/

/-- What the fetches of a committing trick are made for (R224). -/
def Hub.trickCause (h : Hub) (t : Trick) : Cause :=
  match h.findReq t.req with
  | some r => r.cause
  | none => ownCause t.part

/-- An operation or a commit waits for room no longer (R342). -/
def Hub.leaveRoom (h : Hub) (id : Nat) : Hub := h.setLines { h.lines with room := h.lines.room.filter (fun x => x ≠ id) }

/-- A commit that ends: its result is sent, counted, and the slot becomes FREE (DEDUCED, log 45). -/
def Hub.endTrick (h : Hub) (slot : Nat) (req code result detail : Nat) : Hub :=
  let t := h.trick slot
  let h := t.all.foldl (fun h l => h.unchoose t.part.toNat l) ((h.putTrick slot Trick.free).leaveRoom req)
  let ok : Bool := decide (code = 0 ∧ result = 0)
  let off := if code ≠ 0 then 0x58 else 0x50 + 4 * result
  let h := h.bump pTrick off 0 32 1
  let h := match h.findReq req with
    | some r => h.countLine (if ok then 0x0F else 0x10) 1 r.src r.hdr 0 0
    | none => h
  h.answer req 0 code (result + 16 * detail) []

/-- The locks of a trick are released: the lines return to VALID (R192 step 6, R214 LOCK_MAX). -/
def Hub.releaseLocks (h : Hub) (slot : Nat) : Hub :=
  let t := h.trick slot
  let p := t.part.toNat
  let h := h.setLines { h.lines with ordered := h.lines.ordered.filter (fun o => o.kind != .lock (BitVec.ofNat 8 slot)) }
  (t.votes.filter (fun v => match v.2 with | .collision | .regather => false | _ => true)).foldl (fun h v =>
    match h.findWay p v.1 with
    | some k =>
      let w := h.way k
      if w.st = .locked then
        let d := min 65535 (h.now - w.since)
        let h := if h.fld pTrick 0x68 0 16 < d then h.wrFld pTrick 0x68 0 16 d else h
        h.putWay k { w with st := .valid, since := 0 }
      else h
    | none => h) h

/-! Staging (R186 to R191) -/

def Trick.owns (t : Trick) (r : Req) : Bool :=
  (match r.src with | .port p => t.port == p | _ => false) && t.part == r.hdr.part

/-- TRICK_OPEN recorded (R184, R187) (DEDUCED, log 40; DEDUCED, log 45). -/
def Hub.recordOpen (h : Hub) (r : Req) : Hub :=
  let g := r.src.seg
  match ((List.range 64).map (fun i => 64 * g + i)).find? (fun i => (h.trick i).st == 0) with
  | none => h.answer r.id 0 4 0 []
  | some i =>
    let port : BitVec 5 := match r.src with | .port p => p | _ => 0
    let t : Trick := { Trick.free with st := 1, port := port, part := r.hdr.part, opened := h.now, limit := h.fld pTrick 0x48 0 16 }
    (h.putTrick i t).answer r.id 0 0 i []

/-- TRICK_WRITE recorded (R186 to R189). -/
def Hub.recordWrite (h : Hub) (r : Req) : Hub :=
  let i := r.hdr.trickId.toNat
  let t := h.trick i
  if t.st ≠ 1 ∨ !t.owns r then h.answer r.id 0 3 0 []
  else
    let en := lineEnOf r.hdr
    let x := lineData r.hdr r.flits
    let l := r.line
    let t' := if t.tooLarge ≠ 0 then t
      else if t.lines.any (fun s => s.line == l) then
        { t with lines := t.lines.map (fun s => if s.line = l then ⟨l, s.en ||| en, Line.merge s.data en x⟩ else s) }
      else if 16 ≤ t.lines.length then { t with tooLarge := 1 }
      else { t with lines := t.lines ++ [⟨l, en, Line.merge 0 en x⟩] }
    let h := h.putTrick i t'
    let h := if h.fld pTrick 0x800 0 1 = 1 ∧ t'.tooLarge = 0 then h.gather r.hdr.part.toNat l r.cause else h
    h.answer r.id 0 0 0 []

/-- TRICK_COMPARE recorded (R186 to R191). -/
def Hub.recordCompare (h : Hub) (r : Req) : Hub :=
  let i := r.hdr.trickId.toNat
  let t := h.trick i
  if t.st ≠ 1 ∨ !t.owns r then h.answer r.id 0 3 0 []
  else
    let t' := if t.tooLarge ≠ 0 then t
      else if 4 ≤ t.conds.length then { t with tooLarge := 2 }
      else { t with conds := t.conds ++ [⟨r.line, r.hdr.operand64, bit r.hdr.mod 0⟩] }
    let h := h.putTrick i t'
    let h := if h.fld pTrick 0x800 0 1 = 1 ∧ t'.tooLarge = 0 then h.gather r.hdr.part.toNat r.line r.cause else h
    h.answer r.id 0 0 0 []

/-- TRICK_COMMIT recorded: the slot enters COMMITTING and phase one begins, or the result is known at once (R185, R189, R197). -/
def Hub.recordCommit (h : Hub) (r : Req) : Hub :=
  let i := r.hdr.trickId.toNat
  let t := h.trick i
  if !t.owns r ∨ (t.st ≠ 1 ∧ t.st ≠ 3) then h.answer r.id 0 3 0 []
  else if t.st = 3 then h.endTrick i r.id 0 2 2
  else if t.tooLarge ≠ 0 then h.endTrick i r.id 0 3 t.tooLarge
  else if t.lines = [] ∧ t.conds = [] then h.endTrick i r.id 0 0 0
  else
    let h := h.putTrick i { t with st := 2, phase := 1, req := r.id, accepted := r.accepted }
    t.all.foldl (fun h l => h.gather t.part.toNat l r.cause) h

/-- TRICK_ABORT recorded (R185, R186). -/
def Hub.recordAbort (h : Hub) (r : Req) : Hub :=
  let i := r.hdr.trickId.toNat
  let t := h.trick i
  if !t.owns r ∨ (t.st ≠ 1 ∧ t.st ≠ 3) then h.answer r.id 0 3 0 []
  else (h.putTrick i Trick.free).answer r.id 0 0 0 []

/-! Commit (R192 to R199) -/

/-- The lock of another trick holds a line, or a reservation of an internal trick does (R195, R201). -/
def Hub.lockedByOther (h : Hub) (p l slot : Nat) : Bool :=
  h.lines.ordered.any (fun o => o.part.toNat == p && o.line == l &&
    (match o.kind with | .lock s => s.toNat != slot | .ilock _ => true | _ => false)) ||
  h.lines.reserved.any (fun e => e.1.toNat == p && e.2 == l)

/-- Phase one has ended: the locks of phase two are placed (R192 step 3, R195) (DEDUCED, log 45). -/
def Hub.phaseOneDone (h : Hub) (slot : Nat) : Hub :=
  let t := h.trick slot
  let p := t.part.toNat
  if t.st ≠ 2 ∨ t.phase ≠ 1 then h
  else
    let c := h.trickCause t
    let h := t.all.foldl (fun h l => h.gather p l c) h
    if !t.all.all (fun l => h.present p l) then h
    else
      let place (h : Hub) (l : Nat) : Hub :=
        let t := h.trick slot
        if h.lockedByOther p l slot then h.putTrick slot { t with votes := t.votes ++ [(l, .collision)] }
        else
          let (id, h) := h.fresh
          h.setLines { h.lines with ordered := h.lines.ordered ++
            [⟨id, .lock (BitVec.ofNat 8 slot), .port t.port, 0, 0, t.part, l, c.hdr, 0, 0, h.now, 0, true, 0, false, 0,
              false, false⟩] }
      (t.all.foldl place (h.putTrick slot { t with phase := 2, votes := [], lost := [] })).settle

/-- A chunk with the segment that counts it (R342). -/
abbrev ChunkRef := Nat × Nat × BitVec 2

/-- The UNFILLED chunk of a line, which a write will make PENDING. -/
def Hub.newChunk (h : Hub) (p l : Nat) : Option ChunkRef :=
  if h.lineChunk p l = .unfilled then (h.place p l).map (fun e => (e.1, e.2 / 128, (h.lslab e.1).home)) else none

/-- Chunks that the written lines of a trick would make PENDING (DESIGN CHOICE, log 19). -/
def Hub.newChunks (h : Hub) (t : Trick) : List ChunkRef :=
  (t.lines.filterMap (fun s => h.newChunk t.part.toNat s.line)).eraseDups

/-- Chunks that writes past their order instant will make PENDING (R341, R342). -/
def Hub.promised (h : Hub) : List ChunkRef :=
  (h.lines.ordered.filterMap (fun o =>
    if o.kind = .write ∨ o.kind = .reduce then h.newChunk o.part.toNat o.line else none)).eraseDups

/-- The chunks that what waits for room needs: a write before its order instant, or a commit (R342). -/
def Hub.roomNeeds (h : Hub) (id : Nat) : List ChunkRef :=
  match h.lines.ready.find? (fun o => o.id == id) with
  | some o => (h.newChunk o.part.toNat o.line).toList
  | none => (h.tricks.filter (fun e : Nat × Trick => e.2.st = 2 ∧ e.2.req = id)).flatMap (fun e => h.newChunks e.2)

/-- Room for new PENDING chunks: 64 in each segment, and nobody waits for it longer (R342) (DEDUCED, log 44). -/
def Hub.roomFor (h : Hub) (id : Nat) (cs : List ChunkRef) : Bool :=
  let new := cs.filter (fun c => !h.promised.contains c)
  let before := (h.lines.room.takeWhile (fun x => x != id)).flatMap (fun x => h.roomNeeds x)
  (List.range 4).all (fun g =>
    let here (c : ChunkRef) : Bool := c.2.2.toNat == g
    !new.any here ||
      (decide (h.pendingIn (BitVec.ofNat 2 g) + (h.promised.filter here).length + (new.filter here).length ≤ 64) &&
        !before.any here))

/-- Something begins to wait for room (R342). -/
def Hub.enterRoom (h : Hub) (id : Nat) : Hub :=
  if h.lines.room.contains id then h else h.setLines { h.lines with room := h.lines.room ++ [id] }

/-- The staged bytes of a committed trick (R196). -/
def Hub.applyTrick (h : Hub) (slot : Nat) : Hub :=
  let t := h.trick slot
  t.lines.foldl (fun h s =>
    let h := match h.findReq t.req with
      | some r => h.countLine 0x05 1 r.src r.hdr 0 0
      | none => h
    match h.writeLine t.part.toNat s.line 0 s.en s.data false with
    | .done h => h
    | .wait | .noWay _ | .fetch _ _ _ => h) h

def Vote.isRegather : Vote → Bool
  | .regather => true
  | _ => false
def Vote.isPoisoned : Vote → Bool
  | .poisoned => true
  | _ => false
def Vote.isCollision : Vote → Bool
  | .collision => true
  | _ => false
def Vote.failed : Vote → Option Nat
  | .fails n => some n
  | _ => none

/-- The written lines of a trick are read in the slices before the staged bytes are merged (R338). -/
def Hub.readLocked (h : Hub) (t : Trick) : Hub :=
  t.lines.foldl (fun h s => h.readUnits t.part.toNat s.line (touchedSectors s.en &&& ~~~(fullSectors s.en))) h

/-- Every line of a trick is still wholly present. -/
def Hub.allPresent (h : Hub) (t : Trick) : Bool := t.all.all (fun l => h.present t.part.toNat l)

/-- The locks are released and both phases run once more (R194). -/
def Hub.runAgain (h : Hub) (slot : Nat) : Hub :=
  let t := h.trick slot
  let h := (h.releaseLocks slot).putTrick slot { t with phase := 1, votes := [], lost := [], regathers := 1 }
  (t.all.foldl (fun h l => h.gather t.part.toNat l (h.trickCause t)) h).settle

/-- A decision is carried out: the locks are released and the result is sent (R192 steps 5 and 6). -/
def Hub.conclude (h : Hub) (slot result detail : Nat) : Hub :=
  ((h.releaseLocks slot).endTrick slot (h.trick slot).req 0 result detail).settle

/-- All votes are in: the decision (R197) (DEDUCED, log 45). -/
def Hub.phaseTwoDone (h : Hub) (slot : Nat) : Hub :=
  let t := h.trick slot
  let vs := t.votes.map (·.2)
  let again (h : Hub) : Hub := if t.regathers ≠ 0 then h.conclude slot 2 4 else h.runAgain slot
  if t.st ≠ 2 ∨ t.phase ≠ 2 ∨ !t.all.all (fun l => t.votes.any (fun v => v.1 == l)) then h
  else if vs.any Vote.isRegather then again h
  else if vs.any Vote.isPoisoned then h.conclude slot 2 3
  else match (vs.filterMap Vote.failed).min? with
    | some n => h.conclude slot 1 (n + 1)
    | none =>
      if vs.any Vote.isCollision then h.conclude slot 1 8
      else if !h.roomFor t.req (h.newChunks t) then h.enterRoom t.req
      else
        let h := h.readLocked t
        if !h.allPresent t then again h else (h.applyTrick slot).conclude slot 0 0

/-- A commit that has not reached its commit point in 7.5 µs (R198) (DESIGN CHOICE, log 3; DEDUCED, log 45). -/
def Hub.commitTimeout (h : Hub) (slot : Nat) : Hub :=
  let t := h.trick slot
  if t.st ≠ 2 then h
  else
    let h := (h.reach (t.accepted + 750)).releaseLocks slot
    ((h.bump pHub 0x140 0 16 1).endTrick slot t.req 4 0 0).settle

/-- The open limit (R190) (DESIGN CHOICE, log 3; DEDUCED, log 45). -/
def Hub.openLimit (h : Hub) (slot : Nat) : Hub :=
  let t := h.trick slot
  if t.st ≠ 1 ∨ t.limit = 0 then h
  else
    let h := (h.reach (t.opened + 100 * t.limit)).putTrick slot { t with st := 3, lines := [], conds := [], tooLarge := 0 }
    (h.bump pTrick 0x60 0 32 1).raise pTrick 1

/-! Page allocation (R207 to R209) -/

/-- Pages of a quarter; of the whole backing in the quadrant-local case. -/
def inQuarter (quad : Bool) (q b : Nat) : Bool := quad || b % 4 == q

def Hub.pageLimit (h : Hub) (p : Nat) : Nat :=
  min (h.table p).p (SMap.get (fun _ => (0xFFFFFF : BitVec 24)) h.pages.limit p).toNat

def Hub.lowestZero (h : Hub) (p : Nat) (quad : Bool) (q lim : Nat) : Option Nat :=
  ((h.listedPages p).find? (fun e => revState e.2 == 1 && inQuarter quad q e.1 && decide (e.1 < lim))).map (·.1)

/-- The lowest page that is not listed, or listed FREE_DIRTY (DEDUCED, log 56). -/
def Hub.lowestDirty (h : Hub) (p : Nat) (quad : Bool) (q lim : Nat) : Option Nat :=
  let step := if quad then 1 else 4
  let b := (h.listedPages p).foldl (fun c e => if e.1 = c ∧ revState e.2 ≠ 0 then c + step else c) (if quad then 0 else q)
  if b < lim then some b else none

/-- A backing page written with zeros and matching metadata under the partition's key (R208); VOID in every word for a page
allocated from FOLDED. -/
def Hub.zeroPage (h : Hub) (p b : Nat) (void : Bool) : Hub :=
  (List.range 256).foldl (fun h i =>
    let (k, s) := h.shuffle p (256 * b + i)
    h.storeLine p k s 0 false void) h

/-- The void bits of a page that is already zero. -/
def Hub.voidPage (h : Hub) (p b : Nat) : Hub :=
  (List.range 256).foldl (fun h i =>
    let (k, s) := h.shuffle p (256 * b + i)
    h.putMeta k s { h.metaOf k s with void := true }) h

/-- The search of R207 (DEDUCED, log 56). -/
def Hub.findPage (h : Hub) (p g : Nat) : Option (Nat × Bool) :=
  let lim := h.pageLimit p
  let quad := (h.part p).quad
  (if quad then [0] else (List.range 4).map (fun k => (g + k) % 4)).findSome? (fun q =>
    match h.lowestZero p quad q lim with
    | some b => some (b, true)
    | none => (h.lowestDirty p quad q lim).map (fun b => (b, false)))

/-- A window page gets a backing page (R205, R207, R208); none: NO_SPACE (DEDUCED, log 56). -/
def Hub.allocPage (h : Hub) (p w : Nat) : Option Hub :=
  match h.findPage p (w % 4) with
  | none => none
  | some (b, clean) =>
    let folded : Bool := decide (fwdState (h.fwd p w) = 3)
    let h := if clean then (if folded then h.voidPage p b else h) else h.zeroPage p b folded
    let h := (h.putRev p b (mkRev w 2)).putFwd p w (mkFwd b 1 (if folded then 256 else 0))
    some (h.noteLow p)

/-! Page release (R210) -/

/-- PAGE_RELEASE leaves traffic management: holds are placed, or the page has nothing to release. -/
def Hub.startRelease (h : Hub) (r : Req) : Hub :=
  let p := r.hdr.part.toNat
  let w := r.line / 256
  if fwdState (h.fwd p w) = 0 then h.answer r.id 0 0 0 []
  else
    let h := if fwdState (h.fwd p w) = 2 then h.abandonMove p w else h
    let h := h.setPages { h.pages with releases := h.pages.releases ++ [⟨r.hdr.part, w, r.id⟩] }
    let n := h.lines.next
    h.setLines { h.lines with
      next := n + 256
      ordered := h.lines.ordered ++ (List.range 256).map (fun i =>
        ⟨n + i, .hold, r.src, r.id, 0, r.hdr.part, 256 * w + i, r.hdr, 0, 0, h.now, 0, true, 0, false, 0, false, false⟩) }

/-- The page's entry becomes UNALLOCATED, its backing page FREE_DIRTY, its lines are dropped and the holds end (R210 steps 3, 4). -/
def Hub.unmapPage (h : Hub) (rel : PageRel) (p w : Nat) : Hub :=
  let e := h.fwd p w
  let h := if fwdState e = 1 then h.freeDirty p (fwdPage e) else h
  let h := h.putFwd p w (mkFwd 0 0 0)
  let h := (List.range 256).foldl (fun h i => h.dropLine p (256 * w + i)) h
  let h := h.setLines { h.lines with ordered := h.lines.ordered.filter (fun o => !(o.kind == .hold && o.req == rel.req)) }
  let h := h.setPages { h.pages with releases := h.pages.releases.filter (fun x => x.req != rel.req) }
  h.noteLow p

/-- All holds are placed: the release takes its order instant (R210 steps 3 and 4). -/
def Hub.commitRelease (h : Hub) (p w : Nat) : Hub :=
  match h.pages.releases.find? (fun x => x.part.toNat == p && x.page == w) with
  | none => h
  | some rel =>
    let holds := h.lines.ordered.filter (fun o => o.kind == .hold && o.req == rel.req)
    if !holds.all (fun o => h.firstOfLine o) then h
    else ((h.unmapPage rel p w).answer rel.req 0 0 0 []).settle

end Sys2Proof.Machine
end

