-- ==== Sys2Proof/Machine/Repair.lean ====
section
/-!
DEFINITION. What the journal's commits let RAS do: holds of a row repair (R346, R347), the steps of a retirement (R351, R353,
R354) and of a re-admission (R356).
-/
namespace Sys2Proof.Machine

/-- The slab map changed: MAPCHG (R127, R351). -/
def Hub.mapChanged (h : Hub) : Hub := h.raise pMap 1

/-- A RETIRE operation of the RAS page that waits for a slab ends (R360). -/
def Hub.endRetireOp (h : Hub) (ps code : Nat) : Hub :=
  match h.opOf pRas with
  | some o => if o.opcode = 2 ∧ o.waits ∧ o.index = ps then h.endOp pRas code else h
  | none => h

/-- A retirement of a slab finds the talon empty and the pending list full (R354, R360). -/
def Hub.retireFull (h : Hub) (ps : Nat) : Bool :=
  (h.pickTalon (h.pslab ps).logical.toNat ps).isNone && decide (64 ≤ h.ras.pending.length + h.ras.pendingSoon.length)

/-- A RETIRE operation whose slab could neither start nor be listed, MIG_CFG.MAX being reached and the list full, tries again
(R351, R360) (DEDUCED, log 50). -/
def Hub.retireAgain (h : Hub) : Hub :=
  match h.opOf pRas with
  | some o =>
    if o.opcode ≠ 2 ∨ !o.waits ∨ h.retiring o.index ∨ (h.pslab o.index).st ≠ 1 then h
    else if h.retireFull o.index then h.endOp pRas 6
    else h.startRetire o.index 3
  | none => h

/-- The oldest pending retirement starts when a talon slab and a migration are free for it (R354, R351). -/
def Hub.startPending (h : Hub) : Hub :=
  match h.ras.pending with
  | [] => h.retireAgain
  | (ps, k, _) :: rest =>
    if (h.pickTalon k ps).isNone ∨ h.fld pRas 0x800 8 3 ≤ h.ras.migs.length then h.retireAgain
    else ((h.setRas { h.ras with pending := rest }).startRetire ps 4).retireAgain

/-- No LIVE or TARGET slab is left on an engine's channel (R236). -/
def Hub.channelEmpty (h : Hub) (engine : Nat) : Bool :=
  (List.range 8).all (fun i =>
    let st := (h.pslab (engine / 32 * 256 + engine % 32 * 8 + i)).st
    st != 1 && st != 3)

/-- Channels in DRIFT without a LIVE or TARGET slab go OFFLINE (R236 step 3). -/
def Hub.checkOffline (h : Hub) : Hub :=
  (List.range 512).foldl (fun h i =>
    let c := h.pc i
    if c.leaving ∧ h.channelEmpty (i / 2) then
      h.putPc i (if c.st = 2 ∨ c.st = 6 then { c with prior := 4 } else { c with st := 4 })
    else h) h

/-- An entry for slab a is committed after its migration was abandoned: it is no longer the source of an unfinished one (R353). -/
def Hub.abandonSettled (h : Hub) (a : Nat) : Hub := h.setRas { h.ras with abandoned := h.ras.abandoned.filter (fun x => x != a) }

/-- RETIRE_START is committed: k goes MOVING and B goes TARGET (R351 step 3), to be abandoned at once where B's channel or PC began to
be left while the entry was written (R353). -/
def Hub.commitRetireStart (h : Hub) (k a b : Nat) : Hub :=
  match h.ras.migs.find? (fun m => m.b == b && m.phase == 0) with
  | none => h
  | some _ =>
    let h := (h.setRas { h.ras with migs := h.ras.migs.map (fun x => if x.b = b then { x with phase := 1 } else x) }).abandonSettled a
    let h := h.putLslab k { h.lslab k with st := 2 }
    let v := h.pslab b
    let h := ((h.setPslab b { v with st := 3, logical := BitVec.ofNat 11 k }).mapChanged).endRetireOp a 0
    if (h.pc (slabPc b)).leaving ∨ 3 ≤ h.recentParity (slabPc b) then h.abandon b else h

/-- RETIRE_END is committed: the slab map names B (R351 steps 5 and 6). -/
def Hub.commitRetireEnd (h : Hub) (k a b : Nat) : Hub :=
  match h.ras.migs.find? (fun m => m.b == b && m.phase == 2) with
  | none => h
  | some _ =>
    let h := (h.setRas { h.ras with migs := h.ras.migs.filter (fun x => x.b != b) }).abandonSettled a
    let h := h.putLslab k { h.lslab k with st := 1, phys := BitVec.ofNat 11 b }
    let h := h.setPslab b { h.pslab b with st := 1 }
    let h := h.setPslab a { h.pslab a with st := 4, prev := some (BitVec.ofNat 11 k) }
    ((((h.bump pRas 0x64 0 32 1).raise pRas 4).mapChanged).startPending.retireMore (slabEngine a)).checkOffline

/-- ABANDON is committed: k returns to A, B goes RETIRED, the retirement starts again (R353). -/
def Hub.commitAbandon (h : Hub) (k a b : Nat) : Hub :=
  match h.ras.migs.find? (fun m => m.b == b && m.phase == 3) with
  | none => h
  | some m =>
    let h := h.setRas { h.ras with migs := h.ras.migs.filter (fun x => x.b != b), abandoned := h.ras.abandoned ++ [a] }
    let h := h.putLslab k { h.lslab k with st := 1, phys := BitVec.ofNat 11 a }
    let h := h.setPslab b { h.pslab b with st := 4, prev := some (BitVec.ofNat 11 k) }
    ((((h.bump pRas 0x6C 0 32 1).raise pRas 8).mapChanged).startRetire a m.cause).checkOffline

/-- PENDING is committed: the slab enters the list (R354) (DEDUCED, log 50). -/
def Hub.commitPending (h : Hub) (a : Nat) : Hub :=
  match h.ras.pendingSoon.find? (fun e => e.1 == a) with
  | none => h
  | some e =>
    let h := (h.setRas { h.ras with
      pendingSoon := h.ras.pendingSoon.filter (fun x => x.1 != a)
      pending := h.ras.pending ++ [e] }).abandonSettled a
    (h.endRetireOp a 5).startPending

/-- READMIT is committed: the slab becomes TALON (R356) (DEDUCED, log 51). -/
def Hub.commitReadmit (h : Hub) (ps : Nat) : Hub :=
  let h := h.setPslab ps { h.pslab ps with st := 2, readmitted := true, slow := false }
  let h := h.setRas { h.ras with table := h.ras.table.filter (fun e => e.1 != ps) }
  let h := match h.opOf pRas with
    | some o => if o.opcode = 1 ∧ o.waits then h.endOp pRas 0 else h
    | none => h
  h.startPending

/-! Holds of a row repair (R346, R347) -/

/-- The offsets of a repair's row: four lines, data or metadata (R118). -/
def Repair.offsets (r : Repair) : List Nat := rowOffsets r.bg r.bank r.row

/-- The window lines of a repair's row whose chunks are written. -/
def Hub.rowLines (h : Hub) (r : Repair) : List (Nat × Nat) :=
  let k := (h.pslab r.ps).logical.toNat
  r.offsets.filterMap (fun s => if s < h.bigD ∧ h.chunkState k s ≠ .unfilled then h.windowLine k s else none)

/-- The offsets of a repair's row that no window line reaches: metadata lines, and what no request can address. -/
def Hub.rowBare (h : Hub) (r : Repair) : List Nat :=
  let k := (h.pslab r.ps).logical.toNat
  r.offsets.filter (fun s => decide (h.bigD ≤ s) || (h.chunkState k s == .filled && (h.windowLine k s).isNone))

/-- A line is held: in a way, every sector fetched. -/
def Hub.holdLine (h : Hub) (p l : Nat) : Hub :=
  let h := h.gather p l (ownCause (BitVec.ofNat 6 p))
  match h.findWay p l with
  | some k => h.putWay k { h.way k with held := true }
  | none => h

def Hub.releaseLine (h : Hub) (p l : Nat) : Hub :=
  match h.findWay p l with
  | some k => h.putWay k { h.way k with held := false }
  | none => h

/-- What a repair has fetched of an offset of its row. -/
def Hub.repairFetch (h : Hub) (ps s : Nat) : Option Fetch :=
  h.lines.fetches.find? (fun f => f.kind == .repair && f.ps == ps && f.off == s)

/-- An offset without a window line is fetched for a repair, once. -/
def Hub.fetchBare (h : Hub) (r : Repair) (s : Nat) : Hub :=
  if (h.repairFetch r.ps s).isSome then h
  else (h.bgFetch .repair 0 0 r.ps s (h.pslab r.ps).logical.toNat 15).2

def Hub.putRepair (h : Hub) (r r' : Repair) : Hub :=
  h.setRas { h.ras with repairs := h.ras.repairs.map (fun x => if x = r then r' else x) }

/-- The bank a sequence runs on, or none (R239). -/
def Hub.setPprBank (h : Hub) (r : Repair) (on : Bool) : Hub :=
  let i := slabPc r.ps
  h.putPc i { h.pc i with pprBank := if on then some (slabSid r.ps * 16 + r.bg * 4 + r.bank) else none }

/-- Every line of a repair's row is present, and what has no line is fetched (R346 step 3). -/
def Hub.rowReady (h : Hub) (r : Repair) : Bool :=
  (h.rowLines r).all (fun e => h.present e.1 e.2) &&
  (h.rowBare r).all (fun s => match h.repairFetch r.ps s with
    | some f => f.got == f.want
    | none => false)

/-- Repairs whose entry is committed place their holds, and begin the sequence once the row is at hand; neither while a supply
episode runs (R346 steps 3 and 4, R440) (DEDUCED, log 50). -/
def Hub.advanceRepairs (h : Hub) : Hub :=
  if h.therm.episode then h
  else (h.ras.repairs.filter (fun r => r.phase == 2)).foldl (fun h r =>
    let h := (h.rowLines r).foldl (fun h e => h.holdLine e.1 e.2) h
    let h := (h.rowBare r).foldl (fun h s => h.fetchBare r s) h
    if h.rowReady r then (h.putRepair r { r with phase := 3 }).setPprBank r true else h) h

/-- REPAIR is committed: the row's lines are held (R346 step 3). -/
def Hub.commitRepair (h : Hub) (ps bg bank row : Nat) : Hub :=
  match h.ras.repairs.find? (fun r => r == ⟨ps, bg, bank, row, 1⟩) with
  | none => h
  | some r => (h.putRepair r { r with phase := 2 }).advanceRepairs

end Sys2Proof.Machine
end

