-- ==== Sys2Proof/Machine/Engines.lean ====
section
/-!
DEFINITION. The channel engines and stack controllers (chapter 7): the choice of a command slot (R226 to R230), refresh (R231),
parity recovery (R233, R234), retraining slices (R235, R236) and the training of an OFFLINE channel. Log 20 names the
choices the rules leave to the engine.
-/
namespace Sys2Proof.Machine

/-! Timing (R240) -/

/-- Byte k of TIMINGi in force, in slots. -/
def Stack.tm (s : Stack) (i k : Nat) : Nat := bitsNat (s.now.getD (i + 1) 0) (8 * k) 8
def Stack.parRec (s : Stack) : Nat := bitsNat (s.now.getD 5 0) 16 16
def Stack.rfc (s : Stack) : Nat := bitsNat (s.now.getD 6 0) 16 10
def Stack.debtMax (s : Stack) : Nat := bitsNat (s.now.getD 6 0) 26 4

def Pc.bank (c : Pc) (k : Nat) : Bank := SMap.get (fun _ => Bank.idle) c.banks k
def Pc.putBank (c : Pc) (k : Nat) (b : Bank) : Pc := { c with banks := SMap.set (fun _ => Bank.idle) c.banks k b }

/-- Bank group of a bank key. -/
def keyBg (k : Nat) : Nat := k / 4 % 4

/-- The last slot that the banks of a bank group saw of a kind of command. -/
def Pc.lastIn (c : Pc) (bg : Nat) (f : Bank → Nat) : Nat :=
  (c.banks.filter (fun e : Nat × Bank => keyBg e.1 == bg)).foldl (fun m e => max m (f e.2)) 0

/-- First slot at which the column accesses made so far let another issue: spacing and turnaround, within its bank group and
across bank groups. -/
def Stack.spacedFrom (s : Stack) (c : Pc) (k : Nat) (wr : Bool) : Nat :=
  let rd := c.lastIn (keyBg k) Bank.rd
  let wrBg := c.lastIn (keyBg k) Bank.wr
  if wr then max (max (c.lastWr.1 + s.tm 2 0) (wrBg + s.tm 2 1)) (c.lastRd.1 + s.tm 3 2)
  else max (max (c.lastRd.1 + s.tm 2 0) (rd + s.tm 2 1)) (max (c.lastWr.1 + s.tm 3 3) (wrBg + s.tm 4 0))

/-- First slot at which a column command to an open row may issue: activate, column spacing and turnaround. -/
def Stack.columnFrom (s : Stack) (c : Pc) (k : Nat) (wr : Bool) : Nat :=
  max ((c.bank k).act + s.tm 0 (if wr then 1 else 0)) (s.spacedFrom c k wr)

/-- First slot of an activate: T_RP, T_RC, the refresh, T_RRD and T_FAW. -/
def Stack.actFrom (s : Stack) (c : Pc) (k : Nat) : Nat :=
  let b := c.bank k
  let base := max (max (b.pre + s.tm 0 2) (b.act + s.tm 1 0)) b.refUntil
  let rrd := c.acts.foldl (fun m a => max m (a.1 + s.tm 2 (if a.2 = keyBg k then 3 else 2))) base
  match c.acts[3]? with
  | some a => max rrd (a.1 + s.tm 1 3)
  | none => rrd

/-- First slot of a precharge: T_RAS, T_RTP, and T_WR after the data of a write. -/
def Stack.preFrom (s : Stack) (b : Bank) : Nat :=
  max (b.act + s.tm 0 3) (max (b.rd + s.tm 1 1) (b.wr + s.tm 3 1 + 2 + s.tm 1 2))

/-! The entries a slot chooses among (R227) -/

/-- A queued read or write as the choice of a slot sees it. -/
structure Cand where
  wr : Bool
  ps : Nat
  off : Nat
  level : Nat
  seq : Nat
  deriving DecidableEq, Repr

def Cand.key (e : Cand) : Nat := bankKey e.ps e.off
def RdEntry.cand (e : RdEntry) : Cand := ⟨false, e.ps, e.off, if e.trump then 8 else e.level, e.seq⟩
def WrEntry.cand (e : WrEntry) : Cand := ⟨true, e.ps, e.off, 0, e.seq⟩

/-- A forced refresh is due on a bank (R231). -/
def Stack.forced (s : Stack) (b : Bank) : Bool := decide (s.debtMax ≤ b.debt)

/-- The bank takes no command of a queued entry: a forced refresh is due (R231) or a repair sequence runs on it (R239)
(DESIGN CHOICE, log 20). -/
def Stack.shut (s : Stack) (c : Pc) (k : Nat) : Bool := s.forced (c.bank k) || c.pprBank == some k

/-- An earlier queued read of the sector keeps a write back (R223). -/
def Pc.behindRead (c : Pc) (w : WrEntry) : Option RdEntry :=
  c.rd.find? (fun e => e.ps == w.ps && e.off == w.off && e.sector == w.sector && decide (e.seq < w.seq))

/-- The queued reads that no earlier read of their sector goes before (R44). -/
def Pc.freeReads (c : Pc) : List RdEntry :=
  c.queued.filter (fun e => !c.rd.any (fun x =>
    x.ps == e.ps && x.off == e.off && x.sector == e.sector && decide (x.seq < e.seq)))

def Pc.capped (c : Pc) (cap : Nat) : Bool :=
  decide (0 < cap ∧ cap ≤ c.capRun) && c.freeReads.any (fun e => decide (e.cand.level < 8))

/-- The row of an entry is open. -/
def Pc.hits (c : Pc) (e : Cand) : Bool := (c.bank e.key).row == some (rowOf e.off)

/-- The reads that compete in READ mode, oldest first (R227, R229); in a supply episode those whose row is open (R437). -/
def Pc.readCands (c : Pc) (cap : Nat) (dip : Bool) : List Cand :=
  let l := (c.freeReads.map RdEntry.cand).filter (fun e => !dip || c.hits e)
  let top := l.foldl (fun m e => max m e.level) 0
  if top = 8 ∧ c.capped cap then (l.filter (fun e => decide (e.level < 8))).take 1
  else l.filter (fun e => e.level == top)

/-- The writes that compete in a drain, oldest first (R223, R227). -/
def Pc.writeCands (c : Pc) : List Cand := ((c.wr.take 64).filter (fun w => (c.behindRead w).isNone)).map WrEntry.cand

/-- The read served inside a drain: a level-8 read (R228), or the oldest read that every queued write waits behind (R223). -/
def Pc.drainRead (c : Pc) (interrupt : Bool) (cap : Nat) : Option Cand :=
  let before (e : RdEntry) : Bool := (c.wr.take 64).any (fun w =>
    e.ps == w.ps && e.off == w.off && e.sector == w.sector && decide (e.seq < w.seq))
  let stuck : Option Cand := if c.wr ≠ [] ∧ c.writeCands = [] then (c.rd.find? before).map RdEntry.cand else none
  let level8 : Option Cand :=
    if interrupt ∧ c.drain = 1 ∧ !c.capped cap then (c.freeReads.map RdEntry.cand).find? (fun e => e.level == 8) else none
  level8 <|> stuck

/-! Commands -/

def Stack.columnReady (s : Stack) (c : Pc) (e : Cand) : Bool :=
  c.hits e && !s.shut c e.key && decide (s.columnFrom c e.key e.wr ≤ c.slot)

/-- The precharge or activate an entry needs may issue now: some true for the activate. -/
def Stack.rowReady (s : Stack) (c : Pc) (e : Cand) : Option Bool :=
  if s.shut c e.key ∨ c.hits e then none
  else if (c.bank e.key).row.isSome then (if s.preFrom (c.bank e.key) ≤ c.slot then some false else none)
  else if s.actFrom c e.key ≤ c.slot then some true else none

/-- The oldest entry whose row command may issue (R227). -/
def Stack.rowChoice (s : Stack) (c : Pc) (cs : List Cand) : Option (Cand × Bool) :=
  cs.findSome? (fun e => (s.rowReady c e).map (fun act => (e, act)))

/-- The slot at which a read served inside a drain could issue its column command at the earliest (R228 step 2). -/
def Stack.earliest (s : Stack) (c : Pc) (e : Cand) : Nat :=
  let b := c.bank e.key
  if c.hits e then max c.slot (s.columnFrom c e.key false)
  else
    let a := if b.row.isSome then max c.slot (s.preFrom b) + s.tm 0 2 else c.slot
    max (max a (s.actFrom c e.key) + s.tm 0 0) (s.spacedFrom c e.key false)

/-- A column write has issued to a bank. -/
def Pc.wrote (c : Pc) (k : Nat) : Pc := { c.putBank k { c.bank k with wr := c.slot } with lastWr := (c.slot, keyBg k) }

/-- A write command now would not delay the read. -/
def Stack.writeSpares (s : Stack) (c : Pc) (w e : Cand) : Bool :=
  decide (s.earliest (c.wrote w.key) e ≤ s.earliest c e)

/-- Precharge of a bank. -/
def Pc.precharge (c : Pc) (k : Nat) : Pc := c.putBank k { c.bank k with row := none, pre := c.slot }

/-- The part and shaper of an entry, and whether it is a read entry. -/
def Pc.activate (c : Pc) (e : Cand) : Pc :=
  let k := e.key
  let c := c.putBank k { c.bank k with row := some (rowOf e.off), act := c.slot }
  { c with
    acts := ((c.slot, keyBg k) :: c.acts).take 4
    rd := c.rd.map (fun x => if !e.wr ∧ x.seq = e.seq then { x with acted := true } else x)
    wr := c.wr.map (fun x => if e.wr ∧ x.seq = e.seq then { x with acted := true } else x) }

def Pc.partOf (c : Pc) (e : Cand) : Option (BitVec 6) :=
  if e.wr then (c.wr.find? (fun x => x.seq == e.seq)).bind WrEntry.part else (c.rd.find? (fun x => x.seq == e.seq)).bind RdEntry.part

/-- A global event of a stack (R445). -/
def Hub.countStack (h : Hub) (code : Nat) (i : Nat) (part : Option (BitVec 6)) : Hub :=
  h.count ⟨code, 1, none, some (i / 64), part, none⟩

/-- An activate is issued: events, and the charge of its shaper (R256). -/
def Hub.doActivate (h : Hub) (i : Nat) (e : Cand) : Hub :=
  let c := h.pc i
  let part := c.partOf e
  let sh := if e.wr then none else (c.rd.find? (fun x => x.seq == e.seq)).bind RdEntry.shaper
  let h := (((h.putPc i (c.activate e)).act 3 1).countStack 0x14 i part).engCount i 10 1 part
  match sh with
  | some k =>
    let s := h.shaper k
    if bit s.cfgNow 0 then h.putShaper k { s with tokens := s.tokens - ((256 * bitsNat s.cfgNow 16 8 : Nat) : Int) } else h
  | none => h

def keepIssued (s : Stack) (c : Pc) : List Issued := c.issued.filter (fun x => decide (c.slot < x.slot + s.tm 4 1))
def keepLanes (c : Pc) : List Nat := c.lanes.filter (fun f => decide (c.slot < f + 2))

/-- A column read: its sector is captured (R223, R233). -/
def Hub.doRead (h : Hub) (i : Nat) (s : Stack) (e : RdEntry) : Hub :=
  let c := h.pc i
  let k := bankKey e.ps e.off
  let lvl8 : Bool := decide (e.cand.level = 8)
  let w := match e.again with
    | some w => w
    | none => h.memCode e.ps e.off e.sector
  let waited : Bool := c.queued.any (fun x => decide (x.cand.level < 8))
  let c := c.putBank k { c.bank k with rd := c.slot }
  let c : Pc := { c with
    rd := c.rd.filter (fun x => x.seq != e.seq)
    lastRd := (c.slot, keyBg k)
    lanes := keepLanes c ++ [c.slot + s.tm 3 0]
    capRun := if lvl8 ∧ waited then c.capRun + 1 else 0
    issued := keepIssued s c ++ [⟨c.slot, some { e with again := some w }, none⟩] }
  let h := h.putPc i (c.takePlaces h.now)
  let h := ((h.capture e.fetch e.sector w).act 2 1).engCount i 11 1 e.part
  let h := if e.acted then h else h.engCount i 13 1 e.part
  let h := if lvl8 then h.engCount i 15 1 e.part else h
  if e.narrow then h.engCount i 16 1 e.part else h

/-- A column write: the stack holds the code word. -/
def Hub.doWrite (h : Hub) (i : Nat) (s : Stack) (e : WrEntry) : Hub :=
  let c := h.pc i
  let k := bankKey e.ps e.off
  let c := c.wrote k
  let h := h.putPc i { c with
    wr := c.wr.filter (fun x => x.seq != e.seq)
    lanes := keepLanes c ++ [c.slot + s.tm 3 1]
    issued := keepIssued s c ++ [⟨c.slot, none, some e⟩] }
  let h := ((h.putCode e.ps e.off e.sector e.word).act 2 1).engCount i 12 1 e.part
  if e.acted then h else h.engCount i 13 1 e.part

def Hub.doColumn (h : Hub) (i : Nat) (s : Stack) (e : Cand) : Hub :=
  let c := h.pc i
  if e.wr then match c.wr.find? (fun x => x.seq == e.seq) with
    | some w => h.doWrite i s w
    | none => h
  else match c.rd.find? (fun x => x.seq == e.seq) with
    | some r => h.doRead i s r
    | none => h

/-- A per-bank refresh is issued (R231) (DESIGN CHOICE, log 20). -/
def Hub.doRefresh (h : Hub) (i : Nat) (s : Stack) (k : Nat) (forced : Bool) : Hub :=
  let c := h.pc i
  let b := c.bank k
  let h := ((h.putPc i (c.putBank k { b with debt := b.debt - 1, refUntil := c.slot + s.rfc })).act 4 1).countStack 0x15 i none
  if forced then (h.bump (pChe (i / 2)) 0x50 0 16 1).engCount i 18 1 none else h

/-! One slot of one pseudo-channel -/

/-- Banks of a PC: those of every SID of its stack. -/
def Hub.bankKeys (h : Hub) : List Nat := List.range (16 * h.amap.sids)

/-- The change of mode of R226. -/
def Hub.drainMode (h : Hub) (i : Nat) : Hub :=
  let c := h.pc i
  let p := pChe (i / 2)
  let enter (n : Nat) : Hub := (h.putPc i { c with drain := n }).engCount i 14 1 none
  match c.drain with
  | 0 =>
    if h.fld p 0x48 0 7 ≤ c.wr.length then enter 1
    else if c.rd = [] ∧ c.wr ≠ [] ∧ h.fld p 0x800 0 1 = 1 then enter 2
    else h
  | 1 => if c.wr.length ≤ h.fld p 0x48 8 7 then h.putPc i { c with drain := 0 } else h
  | _ => if c.rd ≠ [] ∨ c.wr = [] then h.putPc i { c with drain := 0 } else h

/-- The entries that compete in a slot, and the read served inside a drain (DESIGN CHOICE, log 20). -/
def Hub.slotCands (h : Hub) (i : Nat) : List Cand × Option Cand :=
  let c := h.pc i
  let cap := h.fld (pStk (i / 64)) 0x800 0 8
  if c.drain = 0 then (c.readCands cap h.therm.episode, none)
  else (c.writeCands, c.drainRead (h.fld (pChe (i / 2)) 0x800 1 1 = 1) cap)

/-- The entry whose column command a slot issues. -/
def Stack.columnChoice (s : Stack) (c : Pc) (cs : List Cand) (inner : Option Cand) : Option Cand :=
  match inner with
  | some r =>
    if s.columnReady c r then some r
    else cs.find? (fun e => s.columnReady c e && (!e.wr || s.writeSpares c e r))
  | none => cs.find? (s.columnReady c)

/-- A parity recovery runs: it waits, or its commands are not all issued again (R233). -/
def Pc.retrying (c : Pc) : Bool := decide (0 < c.recover) || c.reissue != []

/-- The command that a parity recovery issues next (R233 step 4). -/
def Issued.cand (x : Issued) : Option Cand := (x.rd.map RdEntry.cand) <|> (x.wr.map WrEntry.cand)

/-- Categories of a counted slot (R446). -/
inductive SlotCat where
  | retired | retry | front | refresh | turnaround | row | back
  deriving DecidableEq, Repr

def Hub.slotCat (h : Hub) (i : Nat) (s : Stack) : SlotCat :=
  let c := h.pc i
  let (cs, inner) := h.slotCands i
  let needed := (c.queued.map RdEntry.cand ++ (c.wr.take 64).map WrEntry.cand).map Cand.key
  if c.lanes.any (fun f => decide (f ≤ c.slot ∧ c.slot < f + 2)) then .retired
  else if c.st = 2 ∨ c.retrying then .retry
  else if c.rd = [] ∧ c.wr = [] then .front
  else if needed.any (fun k => decide (c.slot < (c.bank k).refUntil)) then .refresh
  else match s.columnChoice c cs inner <|> inner <|> cs.head? with
    | none => .back
    | some e =>
      let limit := if e.wr then c.lastRd.1 + s.tm 3 2
        else max (c.lastWr.1 + s.tm 3 3) (c.lastIn (keyBg e.key) Bank.wr + s.tm 4 0)
      let turned : Bool := if e.wr then decide (c.lastWr.1 < c.lastRd.1) else decide (c.lastRd.1 < c.lastWr.1)
      if turned ∧ c.slot < limit then .turnaround
      else if !c.hits e ∨ c.slot < (c.bank e.key).act + s.tm 0 (if e.wr then 1 else 0) then .row
      else .back

/-- A counted slot (R446, R447). -/
def Hub.account (h : Hub) (i : Nat) (cat : SlotCat) : Hub :=
  let h := h.engCount i 1 1 none
  let wasted (n : Nat) : Hub := ((h.countStack 0x17 i none).engCount i 3 1 none).engCount i n 1 none
  match cat with
  | .retired => (h.countStack 0x16 i none).engCount i 2 1 none
  | .retry => wasted 6
  | .front => (h.countStack 0x18 i none).engCount i 4 1 none
  | .refresh => wasted 7
  | .turnaround => wasted 8
  | .row => wasted 9
  | .back => (h.countStack 0x19 i none).engCount i 5 1 none

/-- Whether a row may close for want of hits (R230): the idle time has passed; with PAGE_CLOSE 0 it closes after an access. -/
def closes (b : Bank) (slot wait : Nat) : Bool :=
  b.row.isSome && decide (max b.act (max b.rd b.wr) + wait ≤ slot) && (decide (wait ≠ 0) || decide (b.act < max b.rd b.wr))

/-- The row command of a slot: a forced refresh first, then the chosen entry's, then a refresh of an idle bank, then the
closing of an idle row (R227, R230, R231). True when one was issued (DESIGN CHOICE, log 20). -/
def Hub.rowCommand (h : Hub) (i : Nat) (s : Stack) (cs : List Cand) (inner : Option Cand) : Hub × Bool :=
  let c := h.pc i
  let free (k : Nat) : Bool := c.pprBank != some k
  let due := h.bankKeys.filter (fun k => s.forced (c.bank k) && free k)
  let forced : Option (Nat × Bool) := due.findSome? (fun k =>
    let b := c.bank k
    if b.row.isSome then (if s.preFrom b ≤ c.slot then some (k, false) else none)
    else if max (b.pre + s.tm 0 2) b.refUntil ≤ c.slot then some (k, true) else none)
  match forced with
  | some (k, false) => (h.putPc i (c.precharge k), true)
  | some (k, true) => (h.doRefresh i s k true, true)
  | none =>
    if h.therm.episode then (h, false)
    else match s.rowChoice c (inner.toList ++ cs) with
    | some (e, true) => (h.doActivate i e, true)
    | some (e, false) => (h.putPc i (c.precharge e.key), true)
    | none =>
      let wanted := (c.rd.map RdEntry.cand ++ c.wr.map WrEntry.cand).map Cand.key
      let idle (k : Nat) : Bool :=
        let b := c.bank k
        decide (0 < b.debt) && b.row.isNone && free k && !wanted.contains k && decide (max (b.pre + s.tm 0 2) b.refUntil ≤ c.slot)
      match h.bankKeys.find? idle with
      | some k => (h.doRefresh i s k false, true)
      | none =>
        let wait := h.fld (pStk (i / 64)) 0x804 0 8
        let hitNow (k : Nat) : Bool := decide (wait ≠ 0) && (inner.toList ++ cs).any (fun e => e.key == k && c.hits e)
        match h.bankKeys.find? (fun k =>
          closes (c.bank k) c.slot wait && free k && !hitNow k && decide (s.preFrom (c.bank k) ≤ c.slot)) with
        | some k => (h.putPc i (c.precharge k), true)
        | none => (h, false)

/-- The first command to be issued again issues its column command, once its row is open (R233 step 4). -/
def Hub.reissueColumn (h : Hub) (i : Nat) (s : Stack) : Hub × Bool :=
  let c := h.pc i
  match c.reissue with
  | [] => (h, false)
  | x :: rest =>
    if x.cand.any (fun e => s.columnReady c e) then
      let h := h.putPc i { c with reissue := rest }
      (match x.rd, x.wr with
        | some r, _ => h.doRead i s r
        | none, some w => h.doWrite i s w
        | none, none => h, true)
    else (h, false)

/-- A slot of a PC that recovers: the waits of steps 2 and 3, then the commands of step 4 in their order, before any other
(R233). -/
def Hub.recoverSlot (h : Hub) (i : Nat) (s : Stack) (row col : Bool) : Hub × Bool × Bool :=
  let c := h.pc i
  if 0 < c.recover then (h.putPc i { c with recover := c.recover - 1 }, row, col)
  else
    let (h, sent) := if col then h.reissueColumn i s else (h, false)
    let next := ((h.pc i).reissue.head?.bind Issued.cand).toList
    let (h, used) := if row then h.rowCommand i s next none else (h, false)
    (h, row && !used, col && !sent)

/-- One slot of one PC: which of the channel's two command buses are still free in it, and which are after it
(DESIGN CHOICE, log 20). -/
def Hub.pcSlot (h : Hub) (i : Nat) (row col : Bool) : Hub × Bool × Bool :=
  let s := h.stack (i / 64)
  let h := h.putPc i { h.pc i with slot := (h.pc i).slot + 1 }
  let c := h.pc i
  if c.st ≠ 1 ∧ c.st ≠ 2 ∧ c.st ≠ 3 then (h, row, col)
  else
    let h := if c.st = 2 ∨ c.retrying then h else h.drainMode i
    let h := h.account i (h.slotCat i s)
    if c.st = 2 then (h.putPc i { h.pc i with recover := c.recover - 1 }, row, col)
    else if c.retrying then h.recoverSlot i s row col
    else
      let (cs, inner) := h.slotCands i
      let col1 := if col then s.columnChoice (h.pc i) cs inner else none
      let h := match col1 with
        | some e => h.doColumn i s e
        | none => h
      let left (e : Cand) : Bool := match col1 with
        | some x => e.seq != x.seq
        | none => true
      let (h, used) := if row then h.rowCommand i s (cs.filter left) (inner.filter left) else (h, false)
      (h, row && !used, col && col1.isNone)

/-- A command slot of an engine: its two PCs share the row bus and the column bus, in turn (R227) (DESIGN CHOICE, log 20). -/
def Hub.commandSlot (h : Hub) (e : Nat) : Hub :=
  let a := 2 * e + (h.pc (2 * e)).slot % 2
  let b := 4 * e + 1 - a
  let (h, row, col) := h.pcSlot a true true
  (h.pcSlot b row col).1

def execCommandSlot (engine : BitVec 8) (s : State) : Host.Outcome State Fault Refusal :=
  onHub s (fun h => h.commandSlot engine.toNat)

/-! Ages (R225) -/

/-- Reads that have waited 0.8 µs are raised to level 8 (DEDUCED, log 39). -/
def Hub.raiseAges (h : Hub) (i : Nat) : Hub :=
  let c := h.pc i
  match c.queued.find? (fun e => decide (e.cand.level < 8)) with
  | none => h
  | some e =>
    let h := h.reach (e.entered.getD h.now + 80)
    let due (x : RdEntry) : Bool := x.entered.any (fun t => decide (t + 80 ≤ h.now))
    h.putPc i { c with rd := c.rd.map (fun x => if due x then { x with level := 8 } else x) }

def execAgeRaise (engine : BitVec 8) (pc : BitVec 1) (s : State) : Host.Outcome State Fault Refusal :=
  onHub s (fun h => h.raiseAges (2 * engine.toNat + pc.toNat))

/-! Refresh windows (R231) -/

def Stack.refi (s : Stack) : Nat := bitsNat (s.now.getD 6 0) 0 16

/-- Every bank's debt rises by one at the start of a window, and the next starts T_REFI / 2 slots later; a PC that is not in service
owes nothing (DESIGN CHOICE, log 20). -/
def Hub.refreshWindow (h : Hub) (i : Nat) : Hub :=
  let c := h.pc i
  if 2 * c.slot < c.windowAt then h
  else
    let c : Pc := { c with windowAt := c.windowAt + (h.stack (i / 64)).refi }
    if c.st ≠ 1 ∧ c.st ≠ 2 ∧ c.st ≠ 3 then h.putPc i c
    else
    let c := h.bankKeys.foldl (fun c k => c.putBank k { c.bank k with debt := (c.bank k).debt + 1 }) c
    let top := h.bankKeys.foldl (fun m k => max m (c.bank k).debt) 0
    let p := pChe (i / 2)
    (h.putPc i c).wrFld p 0x50 16 4 (max (h.fld p 0x50 16 4) (min 15 top))

def execRefreshWindow (engine : BitVec 8) (pc : BitVec 1) (s : State) : Host.Outcome State Fault Refusal :=
  onHub s (fun h => h.refreshWindow (2 * engine.toNat + pc.toNat))

/-! Parity (R233, R234) -/

/-- A read issued lately loses what it returned. -/
def Hub.uncapture (h : Hub) (e : RdEntry) : Hub :=
  match h.findFetch e.fetch with
  | none => h
  | some f => h.putFetch { f with got := putBit f.got e.sector false, words := f.words.filter (fun w => w.1 != e.sector) }

/-- Every row of a PC closes. -/
def Pc.closeRows (c : Pc) (slot : Nat) : Pc :=
  { c with banks := c.banks.map (fun e => (e.1, if e.2.row.isSome then { e.2 with row := none, pre := slot } else e.2)) }

/-- A PC recovers from a parity error: its commands of the last T_PAR_LAT slots are to be issued again in their order (R233)
(DESIGN CHOICE, log 20). -/
def Hub.recoverPc (h : Hub) (i : Nat) : Hub :=
  let s := h.stack (i / 64)
  let c := h.pc i
  let recent := keepIssued s c
  let rds := recent.filterMap Issued.rd
  let h := rds.foldl (fun h e => h.uncapture e) h
  let c := c.closeRows (c.slot + s.parRec)
  h.putPc i { c with reissue := recent ++ c.reissue, issued := [], recover := s.parRec + s.tm 0 2 }

/-- LIVE slabs of a PC or of a channel, ascending (R107) (DEDUCED, log 29). -/
def Hub.liveOf (h : Hub) (i : Nat) (whole : Bool) : List Nat :=
  let base := i / 2 * 8
  ((List.range 8).map (fun j => base + j)).filter (fun ps => (h.pslab ps).st == 1 && (whole || slabPc ps == i))

/-- Slabs are listed for retirement one after another (R350). -/
def Hub.retireList (h : Hub) (slabs : List Nat) (cause engine : Nat) : Hub :=
  let new := slabs.filter (fun ps => !h.retiring ps && !h.ras.retireNext.any (fun e => e.1 == ps))
  (h.setRas { h.ras with retireNext := h.ras.retireNext ++ new.map (fun ps => (ps, cause)) }).retireMore engine

def Hub.parityError (h : Hub) (i : Nat) : Hub :=
  let st := i / 64
  let h := h.recoverPc i
  let c := h.pc i
  let times := (c.parity.filter (fun t => decide (h.now < t + 100000000))) ++ [h.now]
  let h := h.putPc i { c with parity := times }
  let h := ((h.bump (pChe (i / 2)) 0x54 (8 * (i % 2)) 8 1).bump (pStk st) 0x6C 0 32 1).raise (pStk st) 1
  if 3 ≤ times.length then (h.abandonWhere (fun b => slabPc b == i)).retireList (h.liveOf i false) 1 (i / 2) else h

def execParityError (engine : BitVec 8) (pc : BitVec 1) (s : State) : Host.Outcome State Fault Refusal :=
  onStack s (engine.toNat / 32) (fun h => h.parityError (2 * engine.toNat + pc.toNat))

/-! Retraining slices (R235, R236) -/

def Pc.serving (c : Pc) : Bool := decide (c.st = 1 ∨ c.st = 3)

/-- Steps 1 and 2 of a slice on one PC: banks with a debt of DEBT_MAX - 1 are closed and refreshed, and so are those whose forced
refresh is due (R227). -/
def Hub.stopPc (h : Hub) (i : Nat) (s : Stack) : Hub :=
  let c := h.pc i
  if !c.serving then h
  else
    let due := h.bankKeys.filter (fun k =>
      decide (s.debtMax ≤ (c.bank k).debt + 1 ∧ 0 < (c.bank k).debt) && c.pprBank != some k)
    let h := due.foldl (fun h k =>
      let c := h.pc i
      let h := if (c.bank k).row.isSome then h.putPc i (c.precharge k) else h
      h.doRefresh i s k (s.forced (c.bank k))) h
    let c := h.pc i
    h.putPc i { c.closeRows c.slot with prior := c.st, st := 2 }

/-- A slice starts: kind 1 on a PC's data lanes, 2 on a channel's command/address lanes (DESIGN CHOICE, log 20). -/
def Hub.startSlice (h : Hub) (st kind pcNo : Nat) (op : Bool) : Hub :=
  let s := h.stack st
  let base := st * 64 + pcNo
  let h := h.putStack st { s with slice := kind, slicePc := pcNo, opSlice := op }
  if kind = 1 then h.stopPc base s else (h.stopPc (base / 2 * 2) s).stopPc (base / 2 * 2 + 1) s

/-- Due times of the next slices of the two series, spaced evenly over PERIOD and 4 × PERIOD ms. -/
def Hub.sliceDue (h : Hub) (st : Nat) : Nat × Nat :=
  let s := h.stack st
  let p := h.fld (pStk st) 0x58 0 8 * 100000
  (s.dataDue + s.nextData * p / 64, s.caDue + s.nextCa * (4 * p) / 32)

/-- The next slice of a stack falls due and runs; a member that is not in service is passed over. -/
def Hub.periodicSlice (h : Hub) (st : Nat) : Hub :=
  let s := h.stack st
  let p := h.fld (pStk st) 0x58 0 8 * 100000
  if h.fld (pStk st) 0x58 31 1 = 0 ∨ s.slice ≠ 0 ∨ s.opSlice ∨ s.selfRefresh ∨ h.therm.episode ∨ !bit (h.rd (pStk st) 0x40) 1 then h
  else
    let (d, ca) := h.sliceDue st
    if ca ≤ d then
      let h := h.reach ca
      let s' := if s.nextCa = 31 then { s with nextCa := 0, caDue := max (s.caDue + 4 * p) (h.now - 4 * p) }
        else { s with nextCa := s.nextCa + 1 }
      let h := h.putStack st s'
      if (h.pc (st * 64 + 2 * s.nextCa)).serving then h.startSlice st 2 (2 * s.nextCa) false else h
    else
      let h := h.reach d
      let s' := if s.nextData = 63 then { s with nextData := 0, dataDue := max (s.dataDue + p) (h.now - p) }
        else { s with nextData := s.nextData + 1 }
      let h := h.putStack st s'
      if (h.pc (st * 64 + s.nextData)).serving then h.startSlice st 1 s.nextData false else h

def execPeriodicRetrainSlice (stack : BitVec 3) (s : State) : Host.Outcome State Fault Refusal :=
  onStack s stack.toNat (fun h => h.periodicSlice stack.toNat)

/-- A PC returns from a slice. -/
def Hub.resumePc (h : Hub) (i : Nat) : Hub :=
  let c := h.pc i
  if c.st = 2 then h.putPc i { c with st := c.prior } else h

/-- A channel goes DRIFT (R236). -/
def Hub.drift (h : Hub) (engine : Nat) : Hub :=
  let st := engine / 32
  let ch := engine % 32
  let mark (h : Hub) (i : Nat) : Hub :=
    let c := h.pc i
    if c.st = 1 then h.putPc i { c with st := 3 } else if c.prior = 1 ∧ (c.st = 2 ∨ c.st = 6) then h.putPc i { c with prior := 3 } else h
  if (h.pc (2 * engine)).leaving then h
  else
    let h := mark (mark h (2 * engine)) (2 * engine + 1)
    let h := (h.wr (pStk st) 0x60 (putBit (h.rd (pStk st) 0x60) ch true)).raise (pStk st) 2
    let h := h.submitO 0x23 0 [BitVec.ofNat 8 st, BitVec.ofNat 8 ch]
    ((h.abandonWhere (fun b => slabEngine b == engine)).retireList (h.liveOf (2 * engine) true) 2 engine).checkOffline

/-- The member whose lanes a slice measures: a PC, or 64 and a channel. -/
def Stack.member (s : Stack) : Nat := if s.slice = 1 then s.slicePc else 64 + s.slicePc / 2

/-- A lane's setting moves by at most one step towards the centre of its window (R235 step 3). -/
def laneStep (d : Int) (r : LaneReport) : Int := if !r.window ∨ r.centre = d then d else if d < r.centre then d + 1 else d - 1

/-- A lane shows no window, or its centre lies more than 4 steps from its setting (R236). -/
def laneDrifts (d : Int) (r : LaneReport) : Bool := !r.window || decide (4 < (r.centre - d).natAbs)

/-- The slice of a stack has measured its lanes: their settings move. -/
def Stack.measure (s : Stack) (lanes : List LaneReport) : Stack :=
  let old := SMap.get (fun _ => []) s.delays s.member
  let moved := lanes.zipIdx.map (fun r => laneStep (old.getD r.2 0) r.1)
  { s with delays := SMap.set (fun _ => []) s.delays s.member (moved ++ old.drop lanes.length) }

/-- A lane of the slice's member drifts, by its setting before the slice moved it. -/
def Stack.drifts (s : Stack) (lanes : List LaneReport) : Bool :=
  let old := SMap.get (fun _ => []) s.delays s.member
  lanes.zipIdx.any (fun r => laneDrifts (old.getD r.2 0) r.1)

/-- A running slice ends with its lanes measured (R235 steps 3 and 4), or is abandoned and moves none (`ran` false, R437). -/
def Hub.sliceEnd (h : Hub) (st : Nat) (lanes : List LaneReport) (ran : Bool) : Hub :=
  let s := h.stack st
  if s.slice = 0 then h
  else
    let base := st * 64 + s.slicePc
    let h := if s.slice = 1 then h.resumePc base else (h.resumePc (base / 2 * 2)).resumePc (base / 2 * 2 + 1)
    let mine : Bool := match h.opOf (pStk st) with
      | some o => s.opSlice && decide (o.index = s.slicePc)
      | none => false
    let h := h.putStack st { (if ran then s.measure lanes else s) with slice := 0 }
    let h := if ran then (h.bump (pStk st) 0x5C 0 24 1).wrFld (pStk st) 0x5C 24 6 s.slicePc else h
    let h := if s.drifts lanes ∧ ran then h.drift (st * 32 + s.slicePc / 2) else h
    if !ran then h.putStack st { h.stack st with opSlice := false }
    else if s.opSlice ∧ mine ∧ s.slice = 1 then (h.putStack st { h.stack st with opSlice := false }).endOp (pStk st) 0
    else h

/-- A RETRAIN_SLICE that waited takes its slice once the running one has ended (R241). -/
def Hub.opSliceNext (h : Hub) (st : Nat) : Hub :=
  match h.opOf (pStk st) with
  | some o =>
    let s := h.stack st
    if o.waits ∧ s.slice = 0 ∧ !s.selfRefresh ∧ !h.therm.episode then h.startSlice st 1 o.index true else h
  | none => h

def execRetrainingSliceEnd (stack : BitVec 3) (lanes : List LaneReport) (s : State) : Host.Outcome State Fault Refusal :=
  onStack s stack.toNat (fun h => (h.sliceEnd stack.toNat lanes true).opSliceNext stack.toNat)

/-- RETRAIN_SLICE (R241). -/
def Hub.retrainGo (h : Hub) (st : Nat) : Hub :=
  let pcNo := h.fld (pStk st) 0x70 0 6
  let c := h.pc (st * 64 + pcNo)
  if c.st ≠ 1 ∧ c.st ≠ 2 ∧ c.st ≠ 3 then h.putLongOp (pStk st) (some ⟨1, 1, pcNo, false⟩)
  else (h.opWaits (pStk st) 0).opSliceNext st

def execRetrainSlice (init : Initiator) (stack : BitVec 3) (s : State) : Host.Outcome State Fault Refusal :=
  onHub s (fun h => h.go init (pStk stack.toNat) 1 (fun h => h.fld (pStk stack.toNat) 0x70 0 6) (fun h => h.retrainGo stack.toNat))

/-! Training (R236 steps 3 and 4, R405) -/

/-- A trained PC: every row closed, timing running from a slot at which no earlier command binds, the first refresh window at it
(DESIGN CHOICE, log 20). -/
def Pc.trained (c : Pc) : Pc :=
  { Pc.untrained with
    st := 1, slot := 1024, windowAt := 2048, parity := c.parity, rd := c.rd, wr := c.wr, seq := c.seq, reissue := c.reissue }

/-- A training sets the lanes of the members that pass a test anew (R221, R236). -/
def Hub.lanesSet (h : Hub) (st : Nat) (f : Nat → Bool) : Hub :=
  let s := h.stack st
  h.putStack st { s with delays := s.delays.filter (fun e : Nat × List Int => !f e.1) }

/-- Training switches in spare lanes: BOOT.TRAIN_CFG.SPARE_EN (R405). -/
def Hub.sparing (h : Hub) : Bool := decide (h.fld pBoot 0x800 0 1 = 1)

/-- The full training of an OFFLINE channel ends; one that needs a spare lane passes while SPARE_EN = 1 only (R405). -/
def Hub.channelTrained (h : Hub) (engine : Nat) (passed : Bool) (repaired : Nat) : Hub :=
  let st := engine / 32
  if (h.pc (2 * engine)).st ≠ 4 then h
  else
    let c := engine % 32
    let ok : Bool := passed && (h.sparing || repaired == 0)
    let h := (h.wr (pStk st) 0x68 (BitVec.ofNat 32 (if h.sparing then repaired else 0))).lanesSet st (fun j => j / 2 == c || j == 64 + c)
    if !ok then h
    else
      let h := (h.putPc (2 * engine) (h.pc (2 * engine)).trained).putPc (2 * engine + 1) (h.pc (2 * engine + 1)).trained
      (h.wr (pStk st) 0x60 (putBit (h.rd (pStk st) 0x60) (engine % 32) false)).startPending

def execChannelTrainingEnd (engine : BitVec 8) (passed : Bool) (repaired : BitVec 8) (s : State) : Host.Outcome State Fault Refusal :=
  onStack s (engine.toNat / 32) (fun h => h.channelTrained engine.toNat passed repaired.toNat)

end Sys2Proof.Machine
end

