-- ==== Sys2Proof/WellFormed.lean ====
section
/-!
DEFINITION. When the operands of a command make one command of the table: a request stands under the row of its OPCODE
(R57), carries no more data flits than it takes (R493), a frame stands under the row of its TYPE (R308; a KEYX under ACCEPT
where its byte OP is 1, R373), and a report of the
stacks or far-ports has one part for each (R24, R305).
-/
namespace Sys2Proof

/-- Data flits that a request takes (R493). -/
def Header.flitsDue (hd : Header) : Nat :=
  if (hd.opcode = 1 ∨ hd.opcode = 2 ∨ hd.opcode = 4) ∧ hd.size ≠ 7 then 2 ^ hd.size.toNat else 0

/-- The header stands under the row of its opcode; an opcode that R57 does not list arrives under READ. -/
def wfRead (h : Header) : Bool := decide (h.opcode = 0 ∨ 10 ≤ h.opcode.toNat)
def wfOp (op : BitVec 4) (h : Header) : Bool := decide (h.opcode = op)
def wfData (op : BitVec 4) (h : Header) (flits : List Sector) : Bool := wfOp op h && decide (flits.length ≤ h.flitsDue)

/-- The frame stands under the row of its type (R308). -/
def wfFrame (t : BitVec 4) (f : Frame) : Bool := decide (f.typ = t)

/-- The types R308 lists. -/
def frameTypes : List (BitVec 4) := [1, 2, 3, 4, 8, 9, 10, 11]

/-- The command is one of the table. -/
def Instr.wf : Instr → Bool
  | .read _ h => wfRead h
  | .write _ h f => wfData 1 h f
  | .reduce _ h f => wfData 2 h f
  | .trickOpen _ h => wfOp 3 h
  | .trickWrite _ h f => wfData 4 h f
  | .trickCompare _ h => wfOp 5 h
  | .trickCommit _ h => wfOp 6 h
  | .trickAbort _ h => wfOp 7 h
  | .pageRelease _ h => wfOp 8 h
  | .clearPoison _ h => wfOp 9 h
  | .rxReadFrame _ f => wfFrame 1 f
  | .rxWriteFrame _ f => wfFrame 2 f
  | .rxReduceFrame _ f => wfFrame 3 f
  | .rxResponseFrame _ f => wfFrame 4 f
  | .rxHeartbeat _ f => wfFrame 8 f
  | .rxAck _ f => wfFrame 9 f
  | .rxNak _ f => wfFrame 10 f
  | .rxKeyxOffer _ f => wfFrame 11 f && !(f.payload.head? == some 1)
  | .rxKeyxAccept _ f => wfFrame 11 f && (f.payload.head? == some 1)
  | .otherTypeFrame _ f => !frameTypes.contains f.typ
  | .stageS2Phy r => decide (r.length = 8)
  | .stageS3Train r => decide (r.length = 8)
  | .stageS6Far _ l => decide (l.length = 4)
  | _ => true

end Sys2Proof
end

