-- ==== Sys2Proof/Machine/Flits.lean ====
section
/-!
DEFINITION. What the host ports' handshakes carry: request and response headers as flits (R56, R64), bundles of sixteen slots with
their slot types and credits (R52, R73), and the commands that the slots of an inbound bundle stand for (R57, R74).
-/
namespace Sys2Proof

/-- A request header as its flit (R56). -/
def Header.toFlit (d : Header) : Sector := BitVec.ofNat 512 (
  d.opcode.toNat + d.size.toNat * 2 ^ 4 + d.narrow.toNat * 2 ^ 7 + d.trump.toNat * 2 ^ 8 + d.hint.toNat * 2 ^ 9 +
  d.part.toNat * 2 ^ 11 + d.cls.toNat * 2 ^ 17 + d.colour.toNat * 2 ^ 20 + d.fstart.toNat * 2 ^ 22 + d.flen.toNat * 2 ^ 24 +
  d.tag.toNat * 2 ^ 32 + d.fmt.toNat * 2 ^ 48 + d.rop.toNat * 2 ^ 51 + d.mod.toNat * 2 ^ 53 + d.trickId.toNat * 2 ^ 56 +
  d.addr.toNat * 2 ^ 64 + d.operand64.toNat * 2 ^ 128 + d.byteEn.toNat * 2 ^ 256)

/-- The request header that a flit spells; its reserved bits are ignored (R21, R56). -/
def Header.ofFlit (x : Sector) : Header :=
  { opcode := x.extractLsb' 0 4, size := x.extractLsb' 4 3, narrow := x.getLsbD 7, trump := x.getLsbD 8
    hint := x.extractLsb' 9 2, part := x.extractLsb' 11 6, cls := x.extractLsb' 17 3, colour := x.extractLsb' 20 2
    fstart := x.getLsbD 22, flen := x.extractLsb' 24 8, tag := x.extractLsb' 32 16, fmt := x.extractLsb' 48 3
    rop := x.extractLsb' 51 2, mod := x.extractLsb' 53 3, trickId := x.extractLsb' 56 8, addr := x.extractLsb' 64 64
    operand64 := x.extractLsb' 128 64, byteEn := x.extractLsb' 256 256 }

/-- The command of a request: its row by OPCODE; an opcode that R57 does not list arrives as a READ does and is answered DECODE. -/
def Header.command (d : Header) (port : BitVec 5) (flits : List Sector) : Instr :=
  match d.opcode.toNat with
  | 1 => .write port d flits
  | 2 => .reduce port d flits
  | 3 => .trickOpen port d
  | 4 => .trickWrite port d flits
  | 5 => .trickCompare port d
  | 6 => .trickCommit port d
  | 7 => .trickAbort port d
  | 8 => .pageRelease port d
  | 9 => .clearPoison port d
  | _ => .read port d

end Sys2Proof
namespace Sys2Proof.Machine

/-- A response header as its flit (R64). -/
def Response.toFlit (r : Response) : Sector := BitVec.ofNat 512 (
  r.tag.toNat + r.line.toNat * 2 ^ 16 + r.code.toNat * 2 ^ 20 + (decide (r.data ≠ [])).toNat * 2 ^ 23 + r.opcode.toNat * 2 ^ 24 +
  r.result.toNat * 2 ^ 32)

/-- What a slot of a bundle holds, by its slot type (R52). -/
inductive Slot where
  | empty
  | header (x : Sector)
  | data (x : Sector)
  | reserved
  deriving DecidableEq, Repr

/-- The slot-type field of a slot (R52). -/
def Slot.typ : Slot → BitVec 2
  | .empty => 0
  | .header _ => 1
  | .data _ => 2
  | .reserved => 3

/-- A slot from its type and its flit. -/
def Slot.of (typ : BitVec 2) (x : Sector) : Slot :=
  if typ = 0 then .empty else if typ = 1 then .header x else if typ = 2 then .data x else .reserved

/-- An outbound bundle: sixteen slots, RD_CRD and WR_CRD (R52, R73). -/
structure Bundle where
  slots : List Slot
  rdCrd : BitVec 7
  wrCrd : BitVec 7
  deriving DecidableEq, Repr

/-- The slots of a response: its header, then its data in address order (R63). -/
def Response.slots (r : Response) : List Slot := .header r.toFlit :: r.data.map Slot.data

/-- The next outbound bundle of a port: the oldest responses, empty slots after them, and up to 127 credits of each type (R52, R73). -/
def Port.bundle (p : Port) : Bundle :=
  let xs := (p.out.take 16).flatMap Response.slots
  ⟨(xs ++ List.replicate 16 Slot.empty).take 16, BitVec.ofNat 7 (min 127 p.rdGrant), BitVec.ofNat 7 (min 127 p.wrGrant)⟩

/-- The commands that the slots of a port's inbound channel stand for, from the request that still takes data flits on: a data flit no
request expects is ORPHAN, a header where data is due cuts the earlier request SHORT, a slot of type 0b11 is SLOT (R57, R74). -/
def commandsOf (port : BitVec 5) : Option (Header × List Sector) → List Slot → List Instr
  | _, [] => []
  | cur, .empty :: rest => commandsOf port cur rest
  | cur, .reserved :: rest => .slot port :: commandsOf port cur rest
  | none, .data _ :: rest => .orphan port :: commandsOf port none rest
  | some (d, got), .data x :: rest =>
    if d.flitsDue ≤ (got ++ [x]).length then d.command port (got ++ [x]) :: commandsOf port none rest
    else commandsOf port (some (d, got ++ [x])) rest
  | cur, .header x :: rest =>
    let d := Header.ofFlit x
    let cut : List Instr := match cur with
      | some (e, got) => [e.command port got]
      | none => []
    if d.flitsDue = 0 then cut ++ d.command port [] :: commandsOf port none rest
    else cut ++ commandsOf port (some (d, [])) rest

end Sys2Proof.Machine
end

