-- ==== Sys2Proof/Machine/Order.lean ====
section
/-!
DEFINITION. Order instants (R42 to R48): which line operation may take its order instant now (R43, R133, R182, R208, R211, R320,
R342), and what taking it does; withdrawal before it or of a read (R69).
-/
namespace Sys2Proof.Machine

/-! Who waits for whom -/

/-- Two operations of one sender: a port, a DMA channel, or a pair (R43, R318). -/
def Hub.sameSender (h : Hub) (a b : Src) : Bool :=
  match a, b with
  | .remote x, .remote y =>
    let hub (c : Nat) : Option (BitVec 10) := (h.far.arrivals.find? (fun v => v.ctx == c)).map (fun v => v.frame.srcHub)
    hub x == hub y
  | _, _ => a == b

/-- An earlier operation of the same sender to the same line is not yet ordered (R43, R318). -/
def Hub.behindOwn (h : Hub) (o : LineOp) : Bool :=
  (h.lines.ready.takeWhile (fun x => x.id != o.id)).any (fun x =>
    x.part == o.part && x.line == o.line && h.sameSender x.src o.src)

/-- A line operation of a request; locks and holds are the hub's own. -/
def OpKind.ofRequest : OpKind → Bool
  | .read | .write | .reduce | .clearPoison => true
  | .lock _ | .ilock _ | .hold => false

/-- Line operations a slice holds past their order instant (R133). -/
def Hub.sliceLoad (h : Hub) (slice : Nat) : Nat :=
  (h.lines.ordered.filter (fun o => o.kind.ofRequest && h.homeSlice o.part.toNat o.line == slice)).length

/-- A page release holds the line (R210) (DESIGN CHOICE, log 19). -/
def Hub.heldPage (h : Hub) (p l : Nat) : Bool :=
  h.lines.ordered.any (fun o => o.kind == .hold && o.part.toNat == p && o.line == l)

/-- A line is void once the operations ordered on it have been served. -/
def voidAfter (void : Bool) (ops : List LineOp) : Bool :=
  ops.foldl (fun v o => match o.kind with
    | .read => v || decide (o.hdr.hint = 3)
    | .write | .reduce => false
    | .clearPoison | .lock _ | .ilock _ | .hold => v) void

/-- VOIDS of a page once the operations ordered on its lines have been served; 256 makes it FOLDED at the order instant of the last
FOLD (R211). -/
def Hub.voidsAhead (h : Hub) (p w : Nat) : Nat :=
  let mine := h.lines.ordered.filter (fun o => o.part.toNat == p && o.line / 256 == w)
  (mine.map (·.line)).eraseDups.foldl (fun n l =>
    let now := (h.lineMeta p l).void
    match now, voidAfter now (mine.filter (fun o => o.line == l)) with
    | false, true => n + 1
    | true, false => n - 1
    | _, _ => n) (fwdVoids (h.fwd p w))

/-- A write or reduction must wait for an allocation: its page is UNALLOCATED, or FOLDED by what is ordered (R205, R208, R211). -/
def Hub.pageMissing (h : Hub) (p l : Nat) : Bool :=
  let st := h.pageState p l
  (h.part p).managed && (decide (st = 0 ∨ st = 3) || decide (256 ≤ h.voidsAhead p (l / 256)))

/-- A write or reduction may take its order instant: its page is there and not being released, and its chunk has room
(R208, R210, R342) (DESIGN CHOICE, log 19). -/
def Hub.mayWrite (h : Hub) (o : LineOp) : Bool :=
  let p := o.part.toNat
  !h.pageMissing p o.line && !h.heldPage p o.line && h.roomFor o.id (h.newChunk p o.line).toList

/-- A line operation may take its order instant (R43, R133, R320). -/
def Hub.mayOrder (h : Hub) (o : LineOp) : Bool :=
  decide (h.sliceLoad (h.homeSlice o.part.toNat o.line) < 256) && !h.behindOwn o &&
  !(h.therm.episode && (o.src matches .remote _)) &&
  (!(o.kind == .write || o.kind == .reduce) || h.mayWrite o)

/-! Taking an order instant -/

/-- A write kept from its order instant only for want of room waits in line for it (R342). -/
def Hub.noteRoom (h : Hub) (o : LineOp) : Hub :=
  let cs := (h.newChunk o.part.toNat o.line).toList
  if (o.kind == .write || o.kind == .reduce) && cs != [] && !h.roomFor o.id cs then h.enterRoom o.id else h

/-- A ready line operation takes its order instant: a write, reduction or CLEAR_POISON is acknowledged there; a reduction keeps SR_EN
and OVF_CFG as they stand, and is answered DENIED if RED_EN has been cleared meanwhile (R42, R47, R48, R182, R336)
(DESIGN CHOICE, log 19). -/
def Hub.takeOrder (h : Hub) (o : LineOp) : Hub :=
  let h := (h.setLines { h.lines with ready := h.lines.ready.filter (fun x => x.id != o.id) }).leaveRoom o.id
  let p := o.part.toNat
  if o.kind = .reduce ∧ !bit (BitVec.ofNat 64 (h.rd64 pArith 0x44)) p then h.answer o.req o.idx 3 0 []
  else
    let isRead : Bool := o.kind == .read
    let o' : LineOp := { o with
      acked := !isRead, sr := bit (BitVec.ofNat 64 (h.rd64 pArith 0x800)) p, infOvf := bit (h.rd pArith 0x808) 0 }
    let h := h.setLines { h.lines with ordered := h.lines.ordered ++ [o'] }
    let h := if o.kind = .write then h.countLine 0x05 1 o.src o.hdr o.idx 0
      else if o.kind = .reduce then h.countLine 0x06 1 o.src o.hdr o.idx 0 else h
    if isRead then h else h.answer o.req o.idx 0 0 []

/-- CLEAR_POISONs that may take their order instant do so (R336, R48). -/
def Hub.orderClears (h : Hub) : Hub :=
  (h.lines.ready.filter (fun o => o.kind == .clearPoison)).foldl (fun h o => if h.mayOrder o then (h.takeOrder o).settle else h) h

/-- Every operation that can be served is served, and the CLEAR_POISONs that may be ordered are. -/
def Hub.settleOn (h : Hub) : Hub := h.settle.orderClears

/-! Withdrawal (R69) -/

/-- A line operation leaves: it is not ordered, waits for no room and has chosen no victim. -/
def Hub.withdrawOp (h : Hub) (o : LineOp) : Hub :=
  ((h.setLines { h.lines with
    ready := h.lines.ready.filter (fun x => x.id != o.id)
    ordered := h.lines.ordered.filter (fun x => x.id != o.id) }).leaveRoom o.id).unchoose o.part.toNat o.line

/-- A commit accepted and not yet recorded is decided ABORTED: its slot becomes FREE (R198). -/
def Hub.dropCommit (h : Hub) (r : Req) : Hub :=
  let i := r.hdr.trickId.toNat
  let t := h.trick i
  if r.hdr.opcode = 6 ∧ t.owns r ∧ (t.st = 1 ∨ t.st = 3) then (h.putTrick i Trick.free).bump pTrick 0x58 0 32 1 else h

/-- A page release that has not taken its order instant is withdrawn: its holds end (R69, R210). -/
def Hub.dropRelease (h : Hub) (req : Nat) : Hub :=
  let h := h.setLines { h.lines with ordered := h.lines.ordered.filter (fun o => !(o.kind == .hold && o.req == req)) }
  h.setPages { h.pages with releases := h.pages.releases.filter (fun x => x.req != req) }

end Sys2Proof.Machine
end

