-- ==== Sys2Proof/Machine/Traffic.lean ====
section
/-!
DEFINITION. Requests from their acceptance to their arbiter's choice: credits and checks (R66, R70, R74, R102), framing (R61,
R62), policing (R252 to R254), the arbiters' queues, gates, frames and shapers (R247 to R266), and what a request that has
passed turns into (R59).
-/
namespace Sys2Proof.Machine

/-! Checks (R66) -/

/-- A protocol error (R74 to R76). -/
def Hub.protoError (h : Hub) (p kind tag : Nat) : Hub :=
  let h := h.wr pHub 0x144 (BitVec.ofNat 32 (p + 32 * kind + 65536 * tag))
  let seen := h.rd pHub 0x148
  let h' := h.wr pHub 0x148 (putBit seen p true)
  if bit seen p then h' else h'.raise pHub 5

/-- Step 2 of R66: OPCODE, SIZE, NARROW, HINT, ROP, MOD, the enables of a REDUCE and the alignment of ADDR. -/
def legal (hd : Header) : Bool :=
  let op := hd.opcode.toNat
  let size := hd.size.toNat
  let tf := targetFmt hd.fmt.toNat (bitsNat hd.mod 0 2)
  let base := if size < 2 then hd.addr.toNat % 256 else 0
  decide (op < 10 ∧ size < 7) && decide (hd.addr.toNat % hd.len = 0) &&
  (match op with
    | 0 => !hd.narrow || decide (size = 0)
    | 1 => decide (hd.hint ≠ 3)
    | 2 => decide (hd.hint ≠ 3) && decide (hd.rop ≠ 3) &&
        pairingLegal hd.fmt.toNat (bitsNat hd.mod 0 2) (bitsNat hd.mod 2 1) size &&
        !(decide (size ≤ 2) && partialElem tf base (min 256 hd.len) (lineEnOf hd))
    | 4 => decide (size ≤ 2)
    | 5 => decide (size = 0 ∧ hd.addr.toNat % 256 = 0 ∧ hd.mod.toNat < 2)
    | 8 => decide (size = 0 ∧ hd.addr.toNat % 65536 = 0)
    | 9 => decide (size = 2)
    | _ => decide (size = 0))

def Window.holds (w : Window) (a : Nat) : Bool :=
  bit w.ctrl 31 && decide (w.base.toNat ≤ a ∧ a < w.base.toNat + w.units * 2097152)

/-- Permissions of a peer window (R102). -/
def permAllows (ctrl : Word) (op : Nat) : Bool :=
  if op = 0 then bit ctrl 8 else if op = 1 then bit ctrl 9 else bit ctrl 10

/-- The outcome of the checks: a target, or the code of the refusal. -/
inductive Checked where
  | ok (t : Target)
  | bad (code : Nat)
  deriving DecidableEq, Repr

/-- The trick checks of step 4 (R186). -/
def Hub.trickDenied (h : Hub) (src : Src) (hd : Header) : Bool :=
  let t := h.trick hd.trickId.toNat
  let own := (match src with | .port p => t.port == p | _ => false) && t.part == hd.part
  let live := decide (t.st = 1 ∨ t.st = 3)
  match hd.opcode.toNat with
  | 4 | 5 => !(own && live) || decide (t.st = 3)
  | 6 | 7 => !(own && live)
  | _ => false

/-- The source is in a partition's mask (R102). -/
def maskAllows (c : PartCfg) (src : Src) : Bool :=
  match src with
  | .port p => bit c.ports p.toNat
  | .dma n => bit c.dma n.toNat
  | _ => true

/-- Steps 3 and 4 of R66: the decode of R102, the mode of the partition (R183) and the permissions (R164, R186). -/
def Hub.decode (h : Hub) (src : Src) (hd : Header) : Checked :=
  let p := hd.part.toNat
  let c := h.part p
  let a := hd.addr.toNat
  let op := hd.opcode.toNat
  let isDma : Bool := match src with | .dma _ => true | _ => false
  if !c.enabled then .bad 5
  else
    match (List.range 64).find? (fun q => (h.part q).enabled && (h.part q).inWindow a) with
    | some q =>
      if q ≠ p then .bad 3
      else if !maskAllows c src then .bad 3
      else if c.stale then .bad 5
      else
        let l := (a - c.base.toNat) / 256
        if op = 8 ∧ c.managed ∧ (h.table p).w ≤ l / 256 then .bad 5
        else if 3 ≤ op ∧ op ≤ 7 ∧ c.managed then .bad 3
        else if op = 8 ∧ !c.managed then .bad 3
        else if op = 2 ∧ !bit (BitVec.ofNat 64 (h.rd64 pArith 0x44)) p then .bad 3
        else if h.trickDenied src hd then .bad 3
        else .ok (.local l)
    | none =>
      match (List.range 256).find? (fun i => (h.peerWin i).holds a) with
      | some i =>
        let w := h.peerWin i
        if bitsNat w.ctrl 0 6 ≠ p then .bad 3
        else if !maskAllows c src then .bad 3
        else if 3 ≤ op then .bad 5
        else if bitsNat w.target 0 10 = h.fld pFarport 0x40 0 10 then .bad 5
        else if !permAllows w.ctrl op then .bad 3
        else .ok (.peer (BitVec.ofNat 10 (bitsNat w.target 0 10)) (BitVec.ofNat 8 (bitsNat w.target 16 8)) (a - w.base.toNat))
      | none =>
        match (List.range 16).find? (fun i => (h.hostWin i).holds a) with
        | some i =>
          let w := h.hostWin i
          if !isDma then .bad 5
          else if bitsNat w.ctrl 0 6 ≠ p then .bad 3
          else if !maskAllows c src then .bad 3
          else if !bit w.ctrl (if op = 0 then 12 else 13) then .bad 3
          else .ok (.host i)
        | none => .bad 5

/-! Frames (R61, R62) -/

def Hub.openFrameOf (h : Hub) (p c : Nat) : Nat := SMap.get (fun _ => 0) h.tm.openFrame (p * 8 + c)
def Hub.putOpenFrame (h : Hub) (p c n : Nat) : Hub :=
  h.setTm { h.tm with openFrame := SMap.set (fun _ => 0) h.tm.openFrame (p * 8 + c) n }

/-- A frame no request will join and none waits of is forgotten (DESIGN CHOICE, log 18). -/
def Hub.tidyFrame (h : Hub) (n : Nat) : Hub :=
  if h.lines.reqs.any (fun r => decide (r.phase = .arbiter) && r.frame == n) ∨ (h.gframe n).left ≠ 0 then h
  else h.putGframe n GFrame.empty

/-- A frame of its own for a source. -/
def Hub.newFrame (h : Hub) (bytes left : Nat) : Nat × Hub :=
  let (n, h) := h.fresh
  (n, h.putGframe n { GFrame.empty with bytes := bytes, left := left })

/-- The frame of a request of a host port (DESIGN CHOICE, log 18). One that opens a frame shorter than itself closes it at once, with
the length declared and no error (R61) (DESIGN CHOICE, log 59). -/
def Hub.frameFor (h : Hub) (p : Nat) (hd : Header) : Nat × Hub :=
  let c := hd.cls.toNat
  let n := h.openFrameOf p c
  let f := h.gframe n
  let close (h : Hub) : Hub := if n = 0 then h else ((h.putGframe n { f with left := 0 }).putOpenFrame p c 0).tidyFrame n
  if hd.fstart then
    let bytes := (hd.flen.toNat + 1) * 64
    let (m, h) := (close h).newFrame bytes (bytes - hd.len)
    (m, if bytes - hd.len = 0 then h else h.putOpenFrame p c m)
  else if n ≠ 0 ∧ hd.len ≤ f.left then
    let h := h.putGframe n { f with left := f.left - hd.len }
    (n, if f.left - hd.len = 0 then h.putOpenFrame p c 0 else h)
  else
    let (m, h) := ((close h).protoError p 5 hd.tag.toNat).newFrame hd.len 0
    (m, h)

/-! Policing (R252 to R254) -/

def Hub.lost (h : Hub) : Bool := bit (h.rd pHub 0x178) 1

/-- The size a request is metered and shaped by (R252). -/
def meterLen (hd : Header) : Nat := if hd.opcode.toNat = 3 ∨ 5 ≤ hd.opcode.toNat then 64 else hd.len

/-- The colour an enabled policer gives (R253): 1 green, 2 yellow, 3 red; the buckets it leaves. -/
def Policer.mark (q : Policer) (aware : Bool) (colour b : Nat) : Nat × Nat × Nat :=
  let arr := if colour = 0 ∨ !aware then 1 else colour
  if !bit q.cfgNow 1 then
    if arr = 3 ∨ q.tp < b then (3, q.tc, q.tp)
    else if arr = 2 ∨ q.tc < b then (2, q.tc, q.tp - b)
    else (1, q.tc - b, q.tp - b)
  else if arr = 1 ∧ b ≤ q.tc then (1, q.tc - b, q.tp)
  else if arr ≠ 3 ∧ b ≤ q.tp then (2, q.tc, q.tp - b)
  else (3, q.tc, q.tp)

/-- A request is metered; its colour (R252, R253, R246) (DESIGN CHOICE, log 18). -/
def Hub.police (h : Hub) (hd : Header) : Nat × Hub :=
  let k := hd.part.toNat * 2 + (if hd.opcode = 0 then 0 else 1)
  let q := h.policer k
  let aware := bit q.cfgNow 2
  let kept := if aware ∧ hd.colour.toNat ≠ 0 then hd.colour.toNat else 1
  let (col, tc, tp) := if !bit q.cfgNow 0 ∨ h.lost then (kept, q.tc, q.tp) else q.mark aware hd.colour.toNat (256 * meterLen hd)
  let up (n : Nat) : Nat := satAdd (2 ^ 32 - 1) n 1
  (col, h.putPolicer k { q with
    tc := tc, tp := tp
    green := if col = 1 then up q.green else q.green
    yellow := if col = 2 then up q.yellow else q.yellow
    red := if col = 3 then up q.red else q.red })

def Hub.throttle (h : Hub) : Nat := h.fld pTm 0x84 0 3

/-! Acceptance -/

/-- Every line operation of a request that takes no part in traffic management is answered with one code (R66). -/
def Hub.answerNow (h : Hub) (p : BitVec 5) (hd : Header) (code : Nat) : Hub :=
  let wr := hd.wrCredit
  (List.range hd.lineCount).foldl (fun h i =>
    let h := if code = 4 then h.countLine 0x0A 1 (.port p) hd i 0 else h
    let h := h.respond p hd i code 0 [] (!wr)
    if wr then h.giveBack true p.toNat else h) h

/-- A request enters its arbiter's queue (R248, R254). -/
def Hub.enqueue (h : Hub) (src : Src) (hd : Header) (flits : List Sector) (t : Target) (frame : Nat) : Nat × Hub :=
  let (col, h) := h.police hd
  let scav : Bool := decide (col = 3) || (decide (col = 2) && decide (h.throttle ≠ 0))
  let (id, h) := h.fresh
  let r : Req := ⟨id, src, hd, flits, h.now, hd.lineCount, t, .arbiter, [], scav, frame, 0⟩
  (id, h.setLines { h.lines with reqs := h.lines.reqs ++ [r] })

/-- The enables of a request name no byte within its length (R58) (DESIGN CHOICE, log 18). -/
def noBytes (hd : Header) : Bool :=
  (hd.opcode.toNat == 1 || hd.opcode.toNat == 2 || hd.opcode.toNat == 4) && decide (hd.size.toNat ≤ 2) &&
  decide (hd.byteEn.toNat % 2 ^ hd.len = 0)

/-- A request arrives at a host port with its data flits (R66, R61, R252); fewer flits than it takes: SHORT (R74)
(DESIGN CHOICE, log 18). A request without credits is NOCREDIT alone, however short it is; a short one is answered DECODE also
where the hub answers others NOT_READY, under HUB_FATAL_N among them (R74, R94) (DESIGN CHOICE, log 59). -/
def Hub.accept (h : Hub) (p : BitVec 5) (hd : Header) (flits : List Sector) : Nat × Hub :=
  let wr := hd.wrCredit
  let n := hd.lineCount
  if h.inReset then (0, h)
  else
  let h := h.act 0 (1 + flits.length)
  if (h.port p.toNat).held wr < n then
    let h := h.protoError p.toNat 1 hd.tag.toNat
    (0, (List.range n).foldl (fun h i => h.respond p hd i (if h.afterS7 then 5 else 4) 0 [] false) h)
  else
    let h := h.spend wr p.toNat n
    let h := (List.range n).foldl (fun h i => h.countLine 0x01 1 (.port p) hd i 0) h
    if flits.length < hd.flitsDue then (0, (h.protoError p.toNat 3 hd.tag.toNat).answerNow p hd 5)
    else if h.closed then (0, h.answerNow p hd 4)
    else if !legal hd then (0, h.answerNow p hd 5)
    else match h.decode (.port p) hd with
      | .bad code => (0, h.answerNow p hd code)
      | .ok t =>
        let (f, h) := h.frameFor p.toNat hd
        if noBytes hd then (0, ((h.police hd).2.answerNow p hd 0).tidyFrame f)
        else h.enqueue (.port p) hd flits t f

/-! Gates (R258, R260, R265, R266) -/

def Hub.gateEntry (h : Hub) (l bank i : Nat) : Word := SMap.get (fun _ => 0) h.tm.entries ((l * 2 + bank) * 64 + i)
def Hub.bankCfgOf (h : Hub) (l bank : Nat) : Word := SMap.get (fun _ => 0) h.tm.bankCfg (l * 2 + bank)
def Hub.bankLen (h : Hub) (l bank : Nat) : Nat := bitsNat (h.bankCfgOf l bank) 0 7
def entryDur (e : Word) : Nat := bitsNat e 12 20
/-- The cycle of a bank, in ticks (R258). -/
def Hub.bankCycle (h : Hub) (l bank : Nat) : Nat :=
  ((List.range (h.bankLen l bank)).map (fun i => entryDur (h.gateEntry l bank i))).sum

def GateList.running (g : GateList) : Bool := decide (2 ≤ g.st.toNat)

/-- The gate of class c of a list is open (R246, R260). -/
def Hub.gateOpen (h : Hub) (l c : Nat) : Bool :=
  let g := h.gate l
  !g.running || h.lost || bit (h.gateEntry l g.bank.toNat g.cur) c

/-- Ticks until the class next closes, counting the present interval; none where it never does (R265)
(DESIGN CHOICE, log 18). -/
def Hub.ticksOpen (h : Hub) (l c : Nat) : Option Nat :=
  let g := h.gate l
  let b := g.bank.toNat
  let n := h.bankLen l b
  if !g.running ∨ h.lost ∨ (List.range n).all (fun i => bit (h.gateEntry l b i) c) then none
  else
    let run := ((List.range n).map (fun i => h.gateEntry l b ((g.cur + 1 + i) % n))).takeWhile (fun e => bit e c)
    some (g.left + (run.map entryDur).sum)

/-- The check of R265 of a frame of some bytes. -/
def Hub.fits (h : Hub) (l c bytes : Nat) : Bool :=
  let g := h.gate l
  let rate := bitsNat (h.bankCfgOf l g.bank.toNat) 8 24
  let ovh := bitsNat (h.shaper (l * 8 + c)).cfgNow 8 8
  match h.ticksOpen l c with
  | none => true
  | some r => rate == 0 || decide (bytes + ovh * ceilDiv bytes 4096 ≤ r * rate)

/-- The frame at a source head: admitted, admitted now, or waiting; a hold is recorded (R265, R266). -/
def Hub.letFrame (h : Hub) (l c n : Nat) : Bool × Hub :=
  let f := h.gframe n
  let g := h.gate l
  let past := bit g.overrunCfg c
  if f.admitted then (true, h)
  else if !h.gateOpen l c then (false, h)
  else if !g.running ∨ h.lost then (true, h.putGframe n { f with admitted := true, held := false })
  else if past then
    let h := h.putGframe n { f with admitted := true, held := false }
    (true, if h.fits l c f.bytes then h else h.putGate l { g with overrun := satAdd (2 ^ 32 - 1) g.overrun 1 })
  else if f.held then (false, h)
  else if h.fits l c f.bytes then (true, h.putGframe n { f with admitted := true })
  else (false, (h.putGframe n { f with held := true }).putGate l { g with held := satAdd (2 ^ 32 - 1) g.held 1 })

/-! The arbiters (R247 to R251) -/

/-- Arbiter and place of a source among its six (R247). -/
def Src.arb : Src → Option Nat
  | .port p => some (p.toNat / 2)
  | .dma c => some (c.toNat / 4)
  | _ => none
def Src.place : Src → Nat
  | .port p => p.toNat % 2
  | .dma c => 2 + c.toNat % 4
  | _ => 0

/-- Requests waiting at an arbiter, in order of acceptance. -/
def Hub.waiting (h : Hub) (a : Nat) : List Req :=
  h.lines.reqs.filter (fun r => decide (r.phase = .arbiter) && r.src.arb == some a)

/-- The 256-byte lines a request touches. -/
def Req.span (r : Req) : Nat × Nat := (r.hdr.addr.toNat / 256, r.hdr.addr.toNat / 256 + r.lines)

/-- The line rule (R250). -/
def lineBlocked (w : List Req) (r : Req) : Bool :=
  w.any (fun q => decide (q.id < r.id) && decide (q.src = r.src) && decide (q.span.1 < r.span.2 ∧ r.span.1 < q.span.2))

/-- The heads of a queue: the oldest waiting request of each source (R249). -/
def heads (w : List Req) : List Req :=
  w.filter (fun r => !w.any (fun q => decide (q.id < r.id) && decide (q.src = r.src)))

def Src.isPort : Src → Bool
  | .port _ => true
  | _ => false

/-- Heads held back only by the hold limit: host requests not blocked by the line rule (R251) (DEDUCED, log 40). -/
def Hub.holdHead (h : Hub) (a : Nat) : Option Req :=
  let w := h.waiting a
  let queues := (List.range 8).map (fun c => w.filter (fun r => !r.scav && r.hdr.cls.toNat == c)) ++ [w.filter (·.scav)]
  let hs := (queues.flatMap heads).filter (fun r => r.src.isPort && !lineBlocked w r)
  (hs.mergeSort (fun x y => decide (x.id ≤ y.id))).head?

/-- The next head of a class after the source last served, in source order (R249) (DEDUCED, log 40). -/
def Hub.classChoice (h : Hub) (a c : Nat) : Option Req × Hub :=
  let w := h.waiting a
  let hs := (heads (w.filter (fun r => !r.scav && r.hdr.cls.toNat == c))).filter (fun r => !lineBlocked w r)
  let (ok, h) := hs.foldl (fun (acc : List Req × Hub) r =>
    let h := acc.2
    if !h.gateOpen a c ∧ !(h.gframe r.frame).admitted then acc
    else
      let (adm, h) := h.letFrame a c r.frame
      let s := h.shaper (a * 8 + c)
      if adm && (!bit s.cfgNow 0 || h.lost || decide (0 ≤ s.tokens)) then (acc.1 ++ [r], h) else (acc.1, h)) ([], h)
  let last := SMap.get (fun _ => 0) h.tm.served (a * 8 + c)
  let order := (List.range 6).map (fun i => (last + i) % 6)
  (order.findSome? (fun i => ok.find? (fun r => r.src.place == i)), h)

/-- The shaper pays for a request that passes (R255, R256). -/
def Hub.payShaper (h : Hub) (a : Nat) (r : Req) : Hub :=
  let k := a * 8 + r.hdr.cls.toNat
  let s := h.shaper k
  if bit s.cfgNow 0 then
    h.putShaper k { s with tokens := s.tokens - ((256 * (meterLen r.hdr + bitsNat s.cfgNow 8 8) : Nat) : Int) }
  else h

/-! What a passed request turns into (R59) -/

/-- The part of a request that falls to line i: index of the line, enabled bytes, data. -/
def lineOf (base : Nat) (hd : Header) (flits : List Sector) (i : Nat) : Nat × BitVec 256 × Line :=
  let small : Bool := decide (hd.size.toNat ≤ 2)
  let en : BitVec 256 :=
    if !small then BitVec.allOnes 256
    else if hd.opcode = 0 ∨ hd.opcode = 9 then BitVec.ofNat 256 ((2 ^ hd.len - 1) <<< (hd.addr.toNat % 256))
    else lineEnOf hd
  let mine := (flits.drop (4 * i)).take 4
  let x : Line := if hd.opcode = 2 then BitVec.ofNat 2048 (mine.zipIdx.foldl (fun a f => a + f.1.toNat <<< (512 * f.2)) 0)
    else if small then lineData hd mine
    else BitVec.ofNat 2048 (mine.zipIdx.foldl (fun a f => a + f.1.toNat <<< (512 * f.2)) 0)
  (base + i, en, x)

def Header.kindOf (hd : Header) : OpKind :=
  if hd.opcode = 0 then .read else if hd.opcode = 1 then .write else if hd.opcode = 2 then .reduce else .clearPoison

/-- Level of a source's reads where the stack's page does not give it (R224, R274, R316). -/
def Hub.srcLevel (h : Hub) (src : Src) : Nat :=
  match src with
  | .dma c => h.fld (pDma c.toNat) 0x40 13 3
  | _ => 0

/-- Line operations of a request of local memory towards their home slices. -/
def Hub.makeLines (h : Hub) (r : Req) (level : Nat) : Hub :=
  let n := h.lines.next
  let ops := (List.range r.lines).map (fun i =>
    let (l, en, x) := lineOf r.line r.hdr r.flits i
    (⟨n + i, Header.kindOf r.hdr, r.src, r.id, i, r.hdr.part, l, r.hdr, en, x, r.accepted, level, false, 0, false, 0, false, false⟩ : LineOp))
  h.setLines { h.lines with next := n + r.lines, ready := h.lines.ready ++ ops }

/-- The header a host-memory interface sends: OPCODE, SIZE, ADDR, PART, TAG and BYTE_EN, every other field 0 (R275). -/
def hmmHeader (hd : Header) (tag : Nat) : Header :=
  { opcode := hd.opcode, size := hd.size, narrow := false, trump := false, hint := 0, part := hd.part, cls := 0, colour := 0
    fstart := false, flen := 0, tag := BitVec.ofNat 16 tag, fmt := 0, rop := 0, mod := 0, trickId := 0
    addr := hd.addr, operand64 := 0, byteEn := hd.byteEn }

/-- Requests waiting at a host-memory interface are sent in order as far as the host's credits allow (R275). -/
def Hub.hmmSend (h : Hub) (g : Nat) : Nat → Hub
  | 0 => h
  | n + 1 =>
    let m := h.hmmIf g
    match m.waiting with
    | [] => h
    | id :: rest =>
      match h.findReq id with
      | none => Hub.hmmSend (h.putHmm g { m with waiting := rest }) g n
      | some r =>
        let wr := r.hdr.wrCredit
        if (if wr then m.wr else m.rd) < r.lines then h
        else
          let m' := { m with
            waiting := rest
            rd := if wr then m.rd else m.rd - r.lines
            wr := if wr then m.wr - r.lines else m.wr
            tag := (m.tag + 1) % 65536
            sent := m.sent ++ [(m.tag, id, h.now, hmmHeader r.hdr m.tag)] }
          Hub.hmmSend (h.putHmm g m') g n

/-- A request leaves its arbiter. -/
def Hub.pass (h : Hub) (r : Req) : Hub :=
  let r := { r with phase := match r.target with
    | .local _ => .passed
    | .peer _ _ _ => .endpoint
    | .host _ => .hmm }
  let h := (h.putReq r).tidyFrame r.frame
  match r.target with
  | .peer _ _ _ => h
  | .host _ =>
    let g := r.src.seg
    let m := h.hmmIf g
    (h.putHmm g { m with waiting := m.waiting ++ [r.id] }).hmmSend g (m.waiting.length + 1)
  | .local _ =>
    match r.hdr.opcode.toNat with
    | 3 => h.recordOpen r
    | 4 => h.recordWrite r
    | 5 => h.recordCompare r
    | 6 => h.recordCommit r
    | 7 => h.recordAbort r
    | 8 => h.startRelease r
    | 9 => (h.makeLines r 0).orderClears
    | _ => h.makeLines r (h.srcLevel r.src)

/-- A request leaves its queue: its source is the last one served there, or the scavenger count goes on (R249, R268). -/
def Hub.served (h : Hub) (a : Nat) (r : Req) : Hub :=
  let h :=
    if r.scav then (h.bump pTm 0x8C 0 32 1).count ⟨0x1A, 1, some r.src.seg, none, some r.hdr.part, none⟩
    else h.setTm { h.tm with served := SMap.set (fun _ => 0) h.tm.served (a * 8 + r.hdr.cls.toNat) ((r.src.place + 1) % 6) }
  (h.payShaper a r).pass r

/-- The hold limit lets a request pass (R251). -/
def Hub.passHeld (h : Hub) (a : Nat) (r : Req) : Hub :=
  let h := (h.bump pTm 0x88 0 32 1).raise pTm 0
  (h.countLine 0x1B 1 r.src r.hdr 0 0).served a r

/-- One choice of an arbiter (R249). -/
def Hub.choose (h : Hub) (a : Nat) : Hub :=
  match (h.holdHead a).filter (fun r => decide (r.accepted + 100 ≤ h.now)) with
  | some r => h.passHeld a r
  | none =>
    let (pick, h) := (List.range 8).foldl (fun (acc : Option Req × Hub) i =>
      match acc.1 with
      | some _ => acc
      | none => acc.2.classChoice a (7 - i)) (none, h)
    match pick with
    | some r => h.served a r
    | none =>
      let w := h.waiting a
      let hs := (heads (w.filter (·.scav))).filter (fun r => !lineBlocked w r && h.gateOpen a r.hdr.cls.toNat)
      match (hs.mergeSort (fun x y => decide (x.id ≤ y.id))).head? with
      | some r => h.served a r
      | none => h

/-- The arbiter makes no choice in a cycle the throttle takes (R257). -/
def Hub.arbiterTurn (h : Hub) (a cycle : Nat) : Hub := if cycle < 8 - h.throttle then h.choose a else h

/-- A host request that has waited 1 µs passes (R251) (DESIGN CHOICE, log 3; DEDUCED, log 39). -/
def Hub.holdExpiry (h : Hub) (a : Nat) : Hub :=
  match h.holdHead a with
  | some r => (h.reach (r.accepted + 100)).passHeld a r
  | none => h

/-- A request that takes no line operation passes at once where its arbiter would choose it next (R187, R249). -/
def Hub.passSoon (h : Hub) (src : Src) (id : Nat) : Hub :=
  match src.arb with
  | none => h
  | some a =>
    let h' := h.choose a
    match h'.findReq id with
    | some r => if r.phase = .arbiter then h else h'
    | none => h'

/-! Port events -/

/-- The port accepts a response; the bundle that carried it carried credits too (R52, R72, R73) (DESIGN CHOICE, log 15). -/
def Hub.acceptResponse (h : Hub) (p : Nat) : Hub :=
  let q := h.port p
  match q.out with
  | [] => h
  | r :: rest =>
    let b := q.bundle
    let h := h.putPort p { q with out := rest, rdGrant := q.rdGrant - b.rdCrd.toNat, wrGrant := q.wrGrant - b.wrCrd.toNat }
    if r.credit then h.giveBack false p else h

end Sys2Proof.Machine
end

