-- ==== Sys2Proof/Machine/Slices.lean ====
section
/-!
DEFINITION. The commands of the home slices: order instants (R42, R47, R48, R133), fills and narrow returns (R333 to R337),
reduction updates (R172 to R175), write-back handoffs (R136, R332) and deadline answers (R69); what HUB_FATAL_N does (R94).
-/
namespace Sys2Proof.Machine

/-! Withdrawal (R69, R94) -/

/-- Every line operation not yet answered is answered NOT_READY, with no effect (R69, R94, R435, R437). A request already sent
to a peer hub cannot be withdrawn: but for a fatal hub it keeps its RESPONSE or PEER_FAIL (DEDUCED, log 22)
(DEDUCED, log 34). -/
def Hub.withdrawAll (h : Hub) : Hub :=
  let h := ((List.range 256).filter (fun i => (h.trick i).st == 2)).foldl
    (fun h i => (h.releaseLocks i).endTrick i (h.trick i).req 4 0 0) h
  let h := (h.pages.releases.map (·.req)).foldl (fun h id => h.dropRelease id) h
  let h := (h.lines.ready ++ h.lines.ordered.filter (fun o => !o.acked && o.src != .kitty)).foldl (fun h o => h.withdrawOp o) h
  let h := (h.lines.reqs.filter (fun r => decide (r.phase = .arbiter))).foldl (fun h r => h.dropCommit r) h
  let ids := (h.lines.reqs.filter (fun r => h.pins.fatal || r.phase != .sent)).map (·.id)
  (ids.foldl (fun h id => h.answerAll id 4) h).settle

/-- HUB_FATAL_N is asserted (R94) (DEDUCED, log 22; DEDUCED, log 34). -/
def Hub.assertFatal (h : Hub) : Hub :=
  if h.pins.fatal then h else (h.setPins { h.pins with fatal := true }).withdrawAll

/-! What the units of a slice hold wrong (R338) -/

/-- Symbol errors come to be in units of the slice: sectors 0 to 3 of a line, its metadata unit 4; a unit of the tags, the region
table, the translations or the commit log, 5, is read at once (R328, R338). -/
def Hub.inject (h : Hub) (p l : Nat) (found : Flips) : Hub :=
  let sectors := found.filter (fun e => decide (e.1 < 4))
  let unit (i : Nat) : Code := received 0 found i
  let h := match h.findWay p l, h.findWb p l with
    | some k, _ => h.putWay k { h.way k with flaw := (h.way k).flaw ++ sectors }
    | none, some e => h.putWb { e with flaw := e.flaw ++ sectors }
    | none, none => h
  let h := match h.place p l with
    | some (k, s) => h.setWords (h.cache.words.map (fun w =>
        if w.slab = k ∧ w.off = s then { w with flaw := w.flaw ^^^ unit 4 } else w))
    | none => h
  if found.all (fun e => e.1 != 5) then h
  else match (rsDecode (unit 5)).1 with
  | .clean => h
  | .corrected => h.noteCacheCe
  | .uncorrectable => h.noteCacheUe.assertFatal

/-! Order instants (R42, R133, R208, R342) -/

/-- A line operation named by a command takes its order instant if it may (R42, R43, R133, R342) (DESIGN CHOICE, log 19). -/
def Hub.order (h : Hub) (id : Nat) (ok : LineOp → Bool) (found : Flips) : Hub :=
  match h.lines.ready.find? (fun o => o.id == id && ok o) with
  | none => h
  | some o => if h.mayOrder o then ((h.takeOrder o).inject o.part.toNat o.line found).settleOn else h.noteRoom o

/-- READ at its home slice (R134). -/
def execReadLineOp (op : Nat) (found : Flips) (s : State) : Host.Outcome State Fault Refusal :=
  onHub s (fun h => h.order op (fun o => o.kind == .read && !o.hdr.narrow) found)

/-- NARROW READ at its home slice (R147). -/
def execNarrowReadLineOp (op : Nat) (found : Flips) (s : State) : Host.Outcome State Fault Refusal :=
  onHub s (fun h => h.order op (fun o => o.kind == .read && o.hdr.narrow) found)

/-- WRITE at its home slice (R135). -/
def execWriteLineOp (turn : SliceTurn) (s : State) : Host.Outcome State Fault Refusal :=
  onHub s (fun h => h.order turn.op (fun o => o.kind == .write) turn.found)

/-- REDUCE at its home slice (R172). -/
def execReduceLineOp (turn : SliceTurn) (s : State) : Host.Outcome State Fault Refusal :=
  onHub s (fun h => h.order turn.op (fun o => o.kind == .reduce) turn.found)

/-! Reduction updates (R165, R172, R175) -/

/-- Enabled bytes without those of skipped sectors (R174). -/
def enOfSkip (en : BitVec 256) (skip : BitVec 4) : BitVec 256 :=
  (List.range 4).foldl (fun e i => if bit skip i then putBits e (64 * i) 64 0 else e) en

/-- A segment's generator has made n draws; it is seeded again after 2^32, but for the CTR_DRBG's error state (R169, R367). -/
def Hub.countDraws (h : Hub) (seg n : Nat) : Hub :=
  let v := SMap.get (fun _ => 0) h.sec.srSince seg + n
  let again : Bool := decide (2 ^ 32 ≤ v) && !h.drbgError
  let h := if again then (h.draw true).2 else h
  h.setSec { h.sec with
    srDraws := h.sec.srDraws + n
    srSince := SMap.set (fun _ => 0) h.sec.srSince seg (if again then v - 2 ^ 32 else v) }

/-- What a reduction leaves of its target, with the counters of the ARITH page. An update all of whose sectors are skipped is
counted as applied too (DESIGN CHOICE, log 61). -/
def Hub.computeUpdate (h : Hub) (o : LineOp) (target : Line) : Line × Hub :=
  let u := updateLine o.hdr.fmt.toNat o.redFmt (bitsNat o.hdr.mod 2 1) o.hdr.rop.toNat o.infOvf o.sr
    h.sec.srDraws o.redBase o.redLen (enOfSkip o.en o.skip) o.data target
  let h := h.countDraws (h.homeSlice o.part.toNat o.line / 128) u.draws
  let h := h.wr64 pArith 0x50 (satAdd (2 ^ 48 - 1) (h.rd64 pArith 0x50) 1)
  let h' := h.bump pArith 0x58 0 32 u.sats
  let h' := if h.rd pArith 0x58 = 0 ∧ u.sats ≠ 0 then h'.raise pArith 1 else h'
  (u.line, h'.bump pArith 0x5C 0 32 u.nans)

/-- Dirty sectors that a read of the slice finds lost (R338). -/
def lostUnits (x : Line) (flaw : Flips) (mask : BitVec 4) : BitVec 4 :=
  ((List.range 4).filter (fun i => bit mask i && decide ((judgeUnit (x.sector i) flaw i).1 = .uncorrectable))).foldl
    (fun m i => putBit m i true) 0

/-- A reduction reads its target in the slice: what it finds lost there is skipped (R174, R338). -/
def Hub.readTarget (h : Hub) (o : LineOp) : LineOp × Hub :=
  let p := o.part.toNat
  let lost := match h.findWay p o.line, h.findWb p o.line with
    | some k, _ => lostUnits (h.way k).data (h.way k).flaw (o.sectors &&& (h.way k).m)
    | none, some e => lostUnits e.data e.flaw (o.sectors &&& e.m)
    | none, none => 0
  let o := { o with skip := o.skip ||| lost }
  let h := h.readUnits p o.line o.sectors
  (o, if lost = 0 then h else (h.reportDrop p o.line).putOp o)

/-- The update of a line in REDUCING, or of its write-back buffer entry, ends; where the read of the slice lost a clean sector, it
is fetched again first. -/
def Hub.updateEnd (h : Hub) (p l : Nat) : Hub :=
  match h.lines.ordered.find? (fun o => o.part.toNat == p && o.line == l) with
  | none => h
  | some o =>
    if o.kind != .reduce then h
    else match h.findWay p l, h.findWb p l with
      | some k, _ =>
        if (h.way k).st ≠ .reducing then h
        else
          let (o, h) := h.readTarget o
          let w := h.way k
          let touched := o.sectors &&& ~~~o.skip
          if o.sectors &&& ~~~w.v ≠ 0 then h.fillFor .reduce o k (o.sectors &&& ~~~w.v)
          else
            let (x, h) := h.computeUpdate o w.data
            ((h.putWay k { w with st := .valid, m := w.m ||| touched, data := x, flaw := rewritten w.flaw touched }).dropOp
              o.id).settleOn
      | none, some e =>
        if !e.busy ∨ h.fetching o ∨ o.sectors &&& ~~~e.m ≠ 0 then h
        else
          let (o, h) := h.readTarget o
          let e := (h.findWb p l).getD e
          let (x, h) := h.computeUpdate o e.data
          (((h.bump pArith 0x60 0 32 1).putWb { e with busy := false, data := x, flaw := rewritten e.flaw o.sectors }).dropOp
            o.id).settleOn
      | none, none => h

/-- The reduction unit writes the computed elements (R172 step 4). -/
def execReductionUpdateEnd (part : BitVec 6) (line : BitVec 34) (s : State) : Host.Outcome State Fault Refusal :=
  onHub s (fun h => h.updateEnd part.toNat line.toNat)

/-! Arriving sectors (R333) -/

/-- What the checks of a fetch leave: the plaintext of each sector, those lost, and whether the MAC failed. -/
structure Found where
  data : List (Nat × Sector)
  lost : List Nat
  macFail : Bool

/-- The words of a fetch judged, decrypted and checked against the MAC where all four sectors came (R330, R333). -/
def Hub.judge (h : Hub) (f : Fetch) (errs : Flips) : Found × Hub :=
  let p := f.part.toNat
  let js := f.words.map (fun w => (w.1, rsDecode (received w.2 errs w.1)))
  let ce := (js.filter (fun j => j.2.1 == .corrected)).length
  let lost := (js.filter (fun j => j.2.1 == .uncorrectable)).map (·.1)
  let h := if ce = 0 then h else h.reportCe f.ps ce
  let tags := js.foldl (fun a j => a ^^^ h.tagOf p f.slab f.off j.1 j.2.2) (0 : BitVec 64)
  let bad : Bool := decide (f.want = 15) && decide (lost = []) && decide (tags.setWidth 56 ≠ (h.metaOf f.slab f.off).mac)
  let data := js.map (fun j => (j.1, if j.2.1 == .uncorrectable ∨ bad then (0 : Sector) else h.decrypt p f.slab f.off j.1 j.2.2))
  (⟨data, lost, bad⟩, h)

/-- The slab of a fetch is the target of a migration (R352). -/
def Hub.fromTarget (h : Hub) (f : Fetch) : Bool := (h.pslab f.ps).st == 3

/-- A fetch from the target of a migration that found an uncorrectable sector is made again from the source, and the migration is
abandoned (R352, R353). -/
def Hub.refetch (h : Hub) (f : Fetch) : Hub :=
  let h := (h.abandon f.ps).dropFetch f.id
  let data := if h.bigD ≤ f.off then (f.off - h.bigD) * 32 else f.off
  let (id, h) := h.openFetch { f with ps := h.steer f.slab data }
  let upd (o : LineOp) : LineOp := if o.fetch = f.id then { o with fetch := id } else o
  h.setLines { h.lines with ordered := h.lines.ordered.map upd }

/-- Uncorrectable sectors and MAC failures of a fetch are reported, and its line poisoned (R333). -/
def Hub.reportFound (h : Hub) (f : Fetch) (r : Found) (source : Nat) : Hub :=
  let h := r.lost.foldl (fun h i => h.reportUe f.ps f.off i source) h
  let h := if r.macFail then h.reportMac f.ps f.off else h
  if r.lost = [] ∧ !r.macFail then h else h.poisonLine f.part.toNat f.line

def putAll (x : Line) (ds : List (Nat × Sector)) : Line := ds.foldl (fun x d => x.putSector d.1 d.2) x

/-- The sectors of a fetch enter the way or the write-back buffer entry that waits for them. -/
def Hub.placeFetch (h : Hub) (f : Fetch) (r : Found) : Hub :=
  let p := f.part.toNat
  let l := f.line
  let h := h.act 1 r.data.length
  match f.kind with
  | .wb =>
    match h.findWb p l with
    | some e =>
      h.putWb { e with m := e.m ||| f.want, data := putAll e.data r.data, busy := false, flaw := rewritten e.flaw f.want }
    | none => h
  | _ =>
    match h.findWay p l with
    | some k =>
      let w := h.way k
      h.putWay k { w with
        st := if w.st = .filling then .valid else w.st
        v := w.v ||| f.want
        m := if r.macFail then 15 else w.m
        data := putAll w.data r.data
        flaw := rewritten w.flaw f.want }
    | none => h

/-- A reduction learns what its own fetch lost (R174). -/
def Hub.reduceLost (h : Hub) (f : Fetch) (r : Found) : Hub :=
  match h.lines.ordered.find? (fun o => o.fetch == f.id && o.kind == .reduce) with
  | none => h
  | some o =>
    if r.macFail then (h.reportDrop f.part.toNat f.line).dropOp o.id
    else if r.lost = [] then h
    else (h.reportDrop f.part.toNat f.line).putOp
      { o with skip := r.lost.foldl (fun m i => putBit m i true) o.skip }

/-- Sectors of a line arrive for its way or its buffer entry: the operations that wait for them are served first (R134, R135, R139,
R172, R333). -/
def Hub.dataArrival (h : Hub) (f : Fetch) (errs : Flips) : Hub :=
  let (r, h) := h.judge f errs
  if r.lost ≠ [] ∧ h.fromTarget f then h.refetch f
  else
    let held := match h.findWay f.part.toNat f.line with
      | some k => (h.way k).held
      | none => false
    let h := (h.reportFound f r (if held then 4 else 0)).placeFetch f r
    ((((h.reduceLost f r).dropFetch f.id).settleLine f.part f.line).orderClears).advanceRepairs

/-- The words of a metadata sector that no cache holds yet enter the caches of their lines' slices (R142, R331). -/
def Hub.landSector (h : Hub) (k off i : Nat) : Hub :=
  let base := h.metaBase off i
  (List.range 8).foldl (fun h j => match h.findWord k (base + j) with
    | some _ => h
    | none => h.enterWord ⟨k, base + j, h.metaAt (h.steer k (base + j)) (base + j), false, 0⟩) h

/-- Tricks whose gathering waited for a metadata word go on with it (R193). -/
def Hub.gatherOn (h : Hub) : Hub :=
  let early : Bool := h.fld pTrick 0x800 0 1 == 1
  ((List.range 256).filter (fun i => (h.trick i).st == 2 && (h.trick i).phase == 1 || (h.trick i).st == 1 && early)).foldl
    (fun h i => (h.trick i).all.foldl (fun h l => h.gather (h.trick i).part.toNat l (h.trickCause (h.trick i))) h) h

/-- A metadata sector arrives: for the metadata caches of the slices, or for the read-modify-write of the integrity unit
(R331, R333, R352). -/
def Hub.metaArrival (h : Hub) (f : Fetch) (errs : Flips) : Hub :=
  let i := ((List.range 4).find? (bit f.want)).getD 0
  let found := (f.words.map (fun w => (rsDecode (received w.2 errs w.1)).1)).headD .clean
  if found = .uncorrectable ∧ h.fromTarget f then h.refetch f
  else
    let h := h.dropFetch f.id
    let h := match found with
      | .clean => h
      | .corrected => h.reportCe f.ps 1
      | .uncorrectable => h.reportMetaUe f.slab f.off i f.ps 0
    let h := if f.kind = .rmw then
        (let base := h.metaBase f.off i
         if found = .uncorrectable then h else h.writeWords f.slab f.off i (h.metaSector (h.steer f.slab base) base))
      else h.landSector f.slab f.off i
    let free (o : LineOp) : LineOp := if o.fetch = f.id then { o with fetch := 0 } else o
    ((h.setLines { h.lines with ordered := h.lines.ordered.map free }).gatherOn.settleOn).advanceRepairs

/-- Every sector of a fetch has arrived (R134, R135, R172, R331, R333); those read for a write-back's tags are judged with it (R332). -/
def Hub.fillArrival (h : Hub) (id : Nat) (errs : Flips) : Hub :=
  match h.findFetch id with
  | none => h
  | some f =>
    if f.got ≠ f.want then h
    else match f.kind with
      | .fill | .merge | .reduce | .wb | .clear => h.dataArrival f errs
      | .word | .rmw => h.metaArrival f errs
      | .tags => h.putFetch { f with words := f.words.map (fun w => (w.1, received w.2 errs w.1)) }
      | .narrow | .copy | .repair | .scrub => h

/-- Sectors fetched from a stack arrive. -/
def execFillArrival (fetch : Nat) (errs : Flips) (s : State) : Host.Outcome State Fault Refusal :=
  onHub s (fun h => h.withRoom (fun h => h.fillArrival fetch errs))

/-- The 64 bytes of a narrow read return: they fill nothing (R147, R49). -/
def Hub.narrowReturn (h : Hub) (id : Nat) (errs : Flips) : Hub :=
  match h.findFetch id with
  | none => h
  | some f =>
    if f.kind ≠ .narrow ∨ f.got ≠ f.want then h
    else
      let (r, h) := h.judge f errs
      if r.lost ≠ [] ∧ h.fromTarget f then h.refetch f
      else
        let h := (h.reportFound f r 0).dropFetch id
        match h.lines.ordered.find? (fun o => o.id == f.op) with
        | none => h
        | some o =>
          let poison := (h.lineMeta f.part.toNat f.line).poison
          let fold : Bool := decide (o.hdr.hint = 3)
          (h.finishRead o (if poison then 1 else 0) (if poison then [] else r.data.map (·.2)) fold).settleOn

def execNarrowReturn (fetch : Nat) (errs : Flips) (s : State) : Host.Outcome State Fault Refusal :=
  onHub s (fun h => h.withRoom (fun h => h.narrowReturn fetch errs))

/-! Write-backs (R136, R176, R332, R341, R352) -/

/-- What the integrity unit read of the sectors a write-back neither carries nor knows the tags of: outcome and tag of each
(R332) (DEDUCED, log 43). -/
def Hub.readTags (h : Hub) (p l k s : Nat) (absent : BitVec 4) (errs : Flips) : List (Nat × Judged × BitVec 64) :=
  match h.tagFetch p l with
  | none => []
  | some f => (f.words.filter (fun w => bit absent w.1)).map (fun w =>
      let r := rsDecode (received w.2 errs w.1)
      (w.1, r.1, h.tagOf p k s w.1 r.2))

/-- Dirty sectors of a line reach the write queues of every slab that holds the line, with the line's new MAC: the tags of the
sectors written, those kept of clean sectors, those read for the absent ones (R332) (DEDUCED, log 43). -/
def Hub.writeOut (h : Hub) (e : WbEntry) (k s : Nat) (errs : Flips) : Hub :=
  let p := e.part.toNat
  let cipher (i : Nat) : Sector := h.encrypt p k s i (e.data.sector i)
  let dirty := (List.range 4).filter (bit e.m)
  let kept := (e.tags.filter (fun t => !bit e.m t.1)).map (·.2)
  let reads := h.readTags p e.line k s e.absent errs
  let tags := dirty.map (fun i => h.tagOf p k s i (cipher i)) ++ kept ++ reads.map (fun r => r.2.2)
  let mac : BitVec 56 := (tags.foldl (fun a t => a ^^^ t) (0 : BitVec 64)).setWidth 56
  let lost := (reads.filter (fun r => r.2.1 == .uncorrectable)).map (·.1)
  let ce := (reads.filter (fun r => r.2.1 == .corrected)).length
  let ps := match h.tagFetch p e.line with
    | some f => f.ps
    | none => h.steer k s
  let h := h.dropTags p e.line
  let h := h.putMeta k s ⟨mac, (h.metaOf k s).poison || decide (lost ≠ []), false⟩
  let h := if ce = 0 then h else h.reportCe ps ce
  let h := lost.foldl (fun h i => h.reportUe ps s i 2) h
  (h.targets k).foldl (fun h t => dirty.foldl (fun h i => h.pushWrite t s i (rsEncode (cipher i)) (some e.part)) h) h

/-- An update ordered before runs or waits on the line (R176). -/
def Hub.updating (h : Hub) (p l : Nat) : Bool :=
  h.lines.ordered.any (fun o => o.kind == .reduce && o.part.toNat == p && o.line == l)

/-- A write-back can be made: no update or fetch runs on the line, its chunk is written, its word and the tags it needs are at hand
(R176, R332, R341). -/
def Hub.writeReady (h : Hub) (e : WbEntry) (k s : Nat) : Bool :=
  !e.busy && !h.updating e.part.toNat e.line && decide (h.chunkState k s = .filled) && h.wordKnown e.part.toNat e.line && h.tagsReady e.part.toNat e.line e.absent

/-- What a write-back needs and does not have yet is asked for; a tag that the target of a migration lost is read from the source,
and the migration is abandoned (R332, R352). -/
def Hub.askWrite (h : Hub) (e : WbEntry) (k s : Nat) (errs : Flips) : Hub :=
  let p := e.part.toNat
  let h := match h.tagFetch p e.line with
    | some f =>
      if h.fromTarget f ∧ (h.readTags p e.line k s e.absent errs).any (fun r => decide (r.2.1 = Judged.uncorrectable)) then
        (h.abandon f.ps).dropFetch f.id
      else h
    | none => h
  let h := if h.wordKnown p e.line then h else (h.fetchWord p e.line (ownCause e.part)).2
  h.askTags p e.line e.absent

/-- Write-queue entries that an entry needs at a pseudo-channel (R222). -/
def Hub.entriesAt (h : Hub) (e : WbEntry) (k s pc : Nat) : Nat :=
  ((h.targets k).filter (fun ps => slabPc ps == pc)).foldl (fun n ps =>
    n + ((List.range 4).filter (fun i => bit e.m i && ((h.pc pc).queuedWrite ps s i).isNone)).length) 0

/-- Room in the write queues that an entry goes to, behind the entries of its segment that were evicted before it and wait for the
same ones (R136, R222). -/
def Hub.queueRoom (h : Hub) (e : WbEntry) (k s : Nat) : Bool :=
  let before := (h.cache.wb.takeWhile (fun x => !(x.part == e.part && x.line == e.line))).filter (fun x => x.seg == e.seg)
  (h.targets k).all (fun ps =>
    let i := slabPc ps
    let ahead := before.foldl (fun n x => match h.place x.part.toNat x.line with
      | some (k', s') => if h.writeReady x k' s' then n + h.entriesAt x k' s' i else n
      | none => n) 0
    decide ((h.pc i).wr.length + ahead + h.entriesAt e k s i ≤ 64))

/-- A write-back buffer entry is handed to the channel engines. -/
def Hub.handoff (h : Hub) (p l : Nat) (errs : Flips) : Hub :=
  match h.findWb p l, h.place p l with
  | some e, some (k, s) =>
    let h := h.askWrite e k s errs
    if !h.writeReady e k s ∨ !h.queueRoom e k s then h
    else
      let h := h.readWb p l e.m
      let e := (h.findWb p l).getD e
      let h := (h.writeOut e k s errs).dropWb p l
      let smp : Sample := ⟨BitVec.ofNat 64 ((h.part p).base.toNat + 256 * l), putBits 0 16 6 p, BitVec.ofNat 32 192⟩
      (h.count ⟨0x0D, 1, some e.seg.toNat, none, some e.part, some smp⟩).settleOn
  | _, _ => h

def execWbHandoff (part : BitVec 6) (line : BitVec 34) (errs : Flips) (s : State) : Host.Outcome State Fault Refusal :=
  onHub s (fun h => h.handoff part.toNat line.toNat errs)

/-! Deadline (R69) -/

/-- What can still be withdrawn is answered NOT_READY: a line operation not yet ordered, a read, a page release before its order
instant, a request at its arbiter (R69, R198) (DESIGN CHOICE, log 3; DEDUCED, log 39). -/
def Hub.deadline (h : Hub) (id : Nat) : Hub :=
  let note (h : Hub) (n : Nat) : Hub := h.bump pHub 0x140 0 16 n
  match (h.lines.ready ++ h.lines.ordered.filter (fun o => o.kind == .read)).find? (fun o => o.id == id) with
  | some o =>
    (match o.src with
    | .remote _ | .kitty => h
    | .port _ | .dma _ | .dump =>
      ((note ((h.reach (o.accepted + 750)).withdrawOp o) 1).answer o.req o.idx 4 0 []).settleOn)
  | none =>
    match h.lines.reqs.find? (fun r => r.id == id && r.src.isPort) with
    | none => h
    | some r =>
      if r.phase = .arbiter then
        (note ((h.reach (r.accepted + 750)).dropCommit r) r.lines).answerAll id 4
      else if h.pages.releases.any (fun x => x.req == id) then
        ((note ((h.reach (r.accepted + 750)).dropRelease id) 1).answerAll id 4).settleOn
      else h

/-- A line operation unanswered 7.5 µs after acceptance (R69). -/
def execDeadlineNotReady (op : Nat) (s : State) : Host.Outcome State Fault Refusal := onHub s (fun h => h.deadline op)

end Sys2Proof.Machine
end

