-- ==== Sys2Proof/Machine/Pages.lean ====
section
/-!
DEFINITION. The commands of tricks, internal tricks and the page manager (chapter 6), and the copy batches of retirements
(R202, R351).
-/
namespace Sys2Proof.Machine

/-- Every home slice has confirmed (R192 step 2). -/
def execTrickPhaseOneDone (slotId : BitVec 8) (s : State) : Host.Outcome State Fault Refusal :=
  onHub s (fun h => (h.phaseOneDone slotId.toNat).orderClears)

/-- All votes are in (R192 steps 4 to 6, R197). -/
def execTrickPhaseTwoDone (slotId : BitVec 8) (s : State) : Host.Outcome State Fault Refusal :=
  onHub s (fun h => (h.phaseTwoDone slotId.toNat).orderClears)

/-- No commit point 7.5 µs after acceptance (R198). -/
def execTrickCommitTimeout (slotId : BitVec 8) (s : State) : Host.Outcome State Fault Refusal :=
  onHub s (fun h => (h.commitTimeout slotId.toNat).orderClears)

/-- The open limit (R190). -/
def execTrickOpenLimit (slotId : BitVec 8) (s : State) : Host.Outcome State Fault Refusal :=
  onHub s (fun h => h.openLimit slotId.toNat)

/-! Internal tricks (R201, R202) -/

/-- What an internal trick copies of one line: its logical slab and offset, and its window line where it has one. -/
structure CopyItem where
  slab : Nat
  off : Nat
  line : Option (Nat × Nat)

/-- Operations that make a lock on one of some lines fail: a lock, or a reduction (R195, R201). -/
def Hub.lockers (h : Hub) (ls : List (Nat × Nat)) : List Nat :=
  (h.lines.ordered.filter (fun o => ls.any (fun e => o.part.toNat == e.1 && o.line == e.2) &&
    (match o.kind with | .lock _ | .ilock _ | .reduce => true | .read | .write | .clearPoison | .hold => false))).map (·.id)

/-- Something is unfinished on one of some lines: a lock waits behind it. -/
def Hub.linesBusy (h : Hub) (ls : List (Nat × Nat)) : Bool :=
  h.lines.ordered.any (fun o => ls.any (fun e => o.part.toNat == e.1 && o.line == e.2)) ||
  ls.any (fun e =>
    (match h.findWay e.1 e.2 with | some k => (h.way k).st != .valid || h.isChosen k | none => false) ||
    (match h.findWb e.1 e.2 with | some b => b.busy | none => false))

/-- A line reserved by another internal trick: it goes first (R201) (DEDUCED, log 44). -/
def Hub.anyReserved (h : Hub) (ls : List (Nat × Nat)) : Bool :=
  ls.any (fun x => h.lines.reserved.any (fun e => x.1 == e.1.toNat && x.2 == e.2))

/-- A free internal trick context of a segment (R201). -/
def Hub.freeItrick (h : Hub) (g : Nat) : Option Nat :=
  ((List.range 4).map (fun i => 4 * g + i)).find? (fun c => !h.pages.itricks.any (fun t => t.ctx == c))

/-- The locks of an internal trick are placed at their home slices. -/
def Hub.placeLocks (h : Hub) (t : ITrick) : Hub :=
  let n := h.lines.next
  let ops := t.lines.zipIdx.map (fun e =>
    let c := ownCause (BitVec.ofNat 6 e.1.1)
    (⟨n + e.2, .ilock t.ctx, .kitty, 0, 0, BitVec.ofNat 6 e.1.1, e.1.2, c.hdr, 0, 0, h.now, 0, true, 0, false, 0, false, false⟩ :
      LineOp))
  let h := h.setLines { h.lines with next := n + t.lines.length, ordered := h.lines.ordered ++ ops }
  h.setPages { h.pages with itricks := h.pages.itricks ++ [t] }

/-- The failed attempts of an internal trick, and the locks its last one met. -/
structure Tries where
  n : Nat
  blocked : List Nat

/-- An internal trick tries to lock its lines. What it met at its last attempt must be released first; after four failures it reserves
its lines, and then only waits (R201) (DEDUCED, log 44). -/
def Hub.attempt (h : Hub) (g : Nat) (move : Option Nat) (target : Nat) (a : Tries) (ls : List (Nat × Nat)) : Tries × Hub :=
  match h.freeItrick g with
  | none => (a, h)
  | some c =>
    if h.lines.ordered.any (fun o => a.blocked.contains o.id) ∨ (a.n < 5 ∧ h.anyReserved ls) then (a, h)
    else
      let h := if a.n = 4 then
          h.setLines { h.lines with reserved := h.lines.reserved ++ ls.map (fun e => (BitVec.ofNat 6 e.1, e.2)) }
        else h
      let n := if a.n = 4 then 5 else a.n
      let met := h.lockers ls
      if met ≠ [] then (if n < 4 then ⟨n + 1, met⟩ else ⟨n, []⟩, h)
      else if h.linesBusy ls then (⟨n, []⟩, h)
      else (⟨n, []⟩, h.placeLocks ⟨c, move, target, ls, []⟩)

/-- The sectors that the cache die or the write-back buffer holds of a line, and their values. -/
def Hub.cachedOf (h : Hub) (line : Option (Nat × Nat)) : BitVec 4 × Line :=
  match line with
  | none => (0, 0)
  | some (p, l) =>
    match h.findWay p l, h.findWb p l with
    | some k, _ => ((h.way k).v, (h.way k).data)
    | none, some e => (e.m, e.data)
    | none, none => (0, 0)

/-- What an internal trick reads of an offset on a stack. -/
def Hub.copyFetch (h : Hub) (t : ITrick) (i : CopyItem) : Option Fetch :=
  h.lines.fetches.find? (fun f => t.reads.contains f.id && f.slab == i.slab && f.off == i.off)

/-- The value of a line takes nothing from the stack: it is void. -/
def Hub.copyVoid (h : Hub) (i : CopyItem) : Bool := h.wordAt i.slab i.off && (h.metaOf i.slab i.off).void

/-- Sectors of a line that its copy needs of the stack. -/
def Hub.copyNeeds (h : Hub) (i : CopyItem) : BitVec 4 := if h.copyVoid i then 0 else ~~~(h.cachedOf i.line).1

/-- A line can be copied: its word and every sector are at hand. -/
def Hub.copyReady (h : Hub) (t : ITrick) (i : CopyItem) : Bool :=
  h.wordAt i.slab i.off &&
  (h.copyNeeds i &&& ~~~(match h.copyFetch t i with | some f => f.got | none => 0)) == 0

/-- What a copy needs of the stacks is asked for, once: the word, then the sectors. -/
def Hub.askCopy (h : Hub) (ctx : Nat) (i : CopyItem) : Hub :=
  let (p, l) := i.line.getD (0, 0)
  let h := match i.line with
    | some e => h.readUnits e.1 e.2 15
    | none => h
  match h.pages.itricks.find? (fun t => t.ctx == ctx) with
  | none => h
  | some t =>
    if !h.wordAt i.slab i.off then (h.fetchWordAt p l i.slab i.off (ownCause (BitVec.ofNat 6 p))).2
    else
      let asked : BitVec 4 := match h.copyFetch t i with
        | some f => f.want
        | none => 0
      let want := h.copyNeeds i &&& ~~~asked
      if want = 0 then h
      else
        let h := match h.copyFetch t i with
          | some f => h.dropFetch f.id
          | none => h
        let (id, h) := h.bgFetch .copy (BitVec.ofNat 6 p) l (h.steer i.slab i.off) i.slab i.off (want ||| asked)
        h.setPages { h.pages with itricks := h.pages.itricks.map (fun x => if x.ctx = ctx then { x with reads := x.reads ++ [id] } else x) }

/-- The sectors read for the n-th line of a copy, judged: word numbers of the command are 4n to 4n + 3. -/
def Hub.copyJudged (h : Hub) (t : ITrick) (n : Nat) (i : CopyItem) (errs : Flips) : List (Nat × Judged × Sector) :=
  match h.copyFetch t i with
  | none => []
  | some f => (f.words.filter (fun w => bit (h.copyNeeds i) w.1)).map (fun w => (w.1, rsDecode (received w.2 errs (4 * n + w.1))))

/-- The value of the n-th line of a copy and its word: cached sectors, the rest as read, zeros under POISON for what is lost
(R330, R333, R351). An offset without a window line keeps its ciphertext. -/
def Hub.copyValue (h : Hub) (t : ITrick) (n : Nat) (i : CopyItem) (errs : Flips) : Line × Meta × Hub :=
  let js := h.copyJudged t n i errs
  let ps := match h.copyFetch t i with
    | some f => f.ps
    | none => h.steer i.slab i.off
  let (held, x0) := h.cachedOf i.line
  let lost := (js.filter (fun j => decide (j.2.1 = Judged.uncorrectable))).map (·.1)
  let ce := (js.filter (fun j => decide (j.2.1 = Judged.corrected))).length
  let m := h.metaOf i.slab i.off
  let h := if ce = 0 then h else h.reportCe ps ce
  let h := lost.foldl (fun h c => h.reportUe ps i.off c 3) h
  match i.line with
  | none => (putAll 0 (js.map (fun j => (j.1, j.2.2))), { m with poison := m.poison || decide (lost ≠ []) }, h)
  | some (p, _) =>
    let tags := js.foldl (fun a j => a ^^^ h.tagOf p i.slab i.off j.1 j.2.2) (0 : BitVec 64)
    let bad : Bool := decide (js.length = 4) && decide (lost = []) && decide (tags.setWidth 56 ≠ m.mac)
    let h := if bad then h.reportMac ps i.off else h
    let plain := js.map (fun j => (j.1, if lost.contains j.1 ∨ bad then (0 : Sector) else h.decrypt p i.slab i.off j.1 j.2.2))
    let x := if m.void then 0 else putAll (if held = 0 then 0 else x0) plain
    (x, { m with poison := m.poison || decide (lost ≠ []) || bad }, h)

/-- Reads of the target of a migration that found a sector lost: they are made again from its source, and the migration is abandoned
(R352, R353). -/
def Hub.dropLostReads (h : Hub) (t : ITrick) (items : List CopyItem) (errs : Flips) : Hub :=
  items.zipIdx.foldl (fun h e => match h.copyFetch t e.1 with
    | some f =>
      if h.fromTarget f ∧ (h.copyJudged t e.2 e.1 errs).any (fun j => decide (j.2.1 = Judged.uncorrectable)) then
        (h.abandon f.ps).dropFetch f.id
      else h
    | none => h) h

/-- An internal trick whose locks are placed reads what it lacks, and commits once everything is at hand. -/
def Hub.itrickStep (h : Hub) (ctx : Nat) (items : List CopyItem) (errs : Flips) (commit : ITrick → Hub → Hub) : Hub :=
  match h.pages.itricks.find? (fun t => t.ctx == ctx) with
  | none => h
  | some t =>
    let h := items.foldl (fun h i => h.askCopy ctx i) (h.dropLostReads t items errs)
    match h.pages.itricks.find? (fun t => t.ctx == ctx) with
    | none => h
    | some t => if items.all (fun i => h.copyReady t i) then commit t h else h

/-! Page moves (R212) -/

def Hub.moveIn (h : Hub) (g : Nat) : Option PageMove := SMap.get (fun _ => none) h.pages.moves g
def Hub.putMove (h : Hub) (g : Nat) (m : Option PageMove) : Hub :=
  h.setPages { h.pages with moves := SMap.set (fun _ => none) h.pages.moves g m }

/-- The lines of a page move's present batch, where they lie. -/
def Hub.moveItems (h : Hub) (m : PageMove) : List CopyItem :=
  (List.range 16).map (fun i =>
    let e := h.shuffle m.part.toNat (256 * m.src + m.mw + i)
    ⟨e.1, e.2, some (m.part.toNat, 256 * m.page + m.mw + i)⟩)

/-! Shares of the background work (R213) -/

def Hub.weightOf (h : Hub) (p : Nat) : Nat := (SMap.get (fun _ => (4 : BitVec 4)) h.pages.weight p).toNat
def Hub.bgDoneOf (h : Hub) (p : Nat) : Nat := SMap.get (fun _ => 0) h.pages.bgDone p

/-- The page manager works for a partition at all (R213, R218). -/
def Hub.bgAllowed (h : Hub) (p : Nat) : Bool :=
  let c := h.part p
  c.enabled && c.managed && !c.stale && decide (h.fld pPagemgr 0x90 0 8 ≠ 0)

/-- The highest ALLOCATED page of a partition whose window page is homed in a segment and not being released
(DEDUCED, log 56). -/
def Hub.highestIn (h : Hub) (p g : Nat) : Option (Nat × Nat) :=
  let c := h.part p
  ((h.listedPages p).filter (fun e =>
    let w := bitsNat e.2 0 26
    revState e.2 == 2 && (if c.quad then c.seg == g else w % 4 == g) && fwdState (h.fwd p w) == 1 &&
      !h.pages.releases.any (fun r => r.part.toNat == p && r.page == w))).getLast?.map (fun e => (e.1, bitsNat e.2 0 26))

/-- The highest page in use of a partition. -/
def Hub.topPage (h : Hub) (p : Nat) : Option Nat := (((h.listedPages p).filter (fun e => revState e.2 == 2)).getLast?).map (·.1)

/-- A partition's pages are to be compacted (R212) (DEDUCED, log 56). -/
def Hub.compacting (h : Hub) (p : Nat) : Bool :=
  match h.topPage p with
  | none => false
  | some b =>
    let (used, _, _) := h.pageCounts p
    decide (h.pageLimit p ≤ b) ||
      (bit (h.rd pPagemgr 0x800) 0 && decide (used + h.fld pPagemgr 0x800 8 24 ≤ b))

/-- The move that a segment would start for a partition: page, window page, target (R212). -/
def Hub.nextMove (h : Hub) (p g : Nat) : Option (Nat × Nat × Nat) :=
  if (h.moveIn g).isSome ∨ !h.compacting p then none
  else (h.highestIn p g).bind (fun e =>
    (h.lowestZero p true 0 (min e.1 (h.pageLimit p))).map (fun t => (e.1, e.2, t)))

/-- The FREE_DIRTY page that is zeroed next: the lowest while EAGER = 1; else only for a page at or above PAGE_LIMIT that no lower
FREE_ZERO page can take (R212). -/
def Hub.nextZero (h : Hub) (p : Nat) : Option Nat :=
  if bit (h.rd pPagemgr 0x804) 0 then h.lowestDirty p true 0 (h.table p).p
  else match h.topPage p with
    | some b =>
      if h.pageLimit p ≤ b ∧ (h.lowestZero p true 0 (h.pageLimit p)).isNone then h.lowestDirty p true 0 (h.pageLimit p) else none
    | none => none

/-- Zeroing or compaction is pending for a partition. -/
def Hub.bgWork (h : Hub) (p : Nat) : Bool :=
  h.bgAllowed p && ((h.nextZero p).isSome || (List.range 4).any (fun g =>
    (h.nextMove p g).isSome || (match h.moveIn g with | some m => m.part.toNat == p | none => false)))

/-- The other partitions with work pending. -/
def Hub.bgRivals (h : Hub) (p : Nat) : List Nat := (List.range 64).filter (fun q => q != p && h.bgWork q)

/-- It is a partition's turn: its share is not ahead of another's; one of weight 0 only when no other has work (R213)
(DESIGN CHOICE, log 58). -/
def Hub.bgTurn (h : Hub) (p : Nat) : Bool :=
  h.bgAllowed p && (h.bgRivals p).all (fun q =>
    if h.weightOf p = 0 then h.weightOf q == 0
    else decide (h.bgDoneOf p * h.weightOf q ≤ h.bgDoneOf q * h.weightOf p) || h.weightOf q == 0)

/-- A partition has had background work of some bytes. -/
def Hub.bgCharge (h : Hub) (p bytes : Nat) : Hub :=
  h.setPages { h.pages with
    bgDone := if h.bgRivals p = [] then [] else SMap.set (fun _ => 0) h.pages.bgDone p (h.bgDoneOf p + bytes) }

/-! Page moves (R212) -/

/-- A write-back buffer entry of a line that has moved: the tags kept for it were those of its old place. -/
def Hub.retag (h : Hub) (p l : Nat) : Hub :=
  match h.findWb p l with
  | none => h.dropTags p l
  | some e =>
    let e := { e with tags := [] }
    ((h.putWb e).dropTags p l).askTags p l e.absent

/-- The internal trick of a page move commits: sixteen lines at the target, the watermark, at 256 the end of the move
(DEDUCED, log 44). -/
def Hub.commitMove (h : Hub) (g : Nat) (m : PageMove) (t : ITrick) (errs : Flips) : Hub :=
  let p := m.part.toNat
  let h := (h.moveItems m).zipIdx.foldl (fun h e =>
    let (x, w, h) := h.copyValue t e.2 e.1 errs
    let (k, s) := h.shuffle p (256 * m.dst + m.mw + e.2)
    h.storeLine p k s x w.poison w.void) h
  let h := ((h.endItrick t).unreserve m.lines).bump pTrick 0x64 0 32 1
  let h := (h.putMove g (some { m with mw := m.mw + 16, tries := 0, blocked := [] })).bgCharge p 8192
  let h := m.lines.foldl (fun h e => h.retag e.1 e.2) h
  if m.mw + 16 < 256 then h.settleOn
  else
    let e := h.fwd p m.page
    let h := (h.putFwd p m.page (mkFwd m.dst 1 (fwdVoids e))).putRev p m.dst (mkRev m.page 2)
    (((h.freeDirty p m.src).putMove g none).noteLow p).settleOn

/-- One internal trick of the page move of a segment goes on: its locks, its reads, its commit, or a retry (R201, R212, R213). -/
def Hub.moveBatch (h : Hub) (g : Nat) (errs : Flips) : Hub :=
  match h.moveIn g with
  | none => h
  | some m =>
    if !h.bgTurn m.part.toNat then h
    else
      let (a, h) := if (h.moveTrick g).isSome then (⟨m.tries, m.blocked⟩, h) else h.attempt g (some g) 0 ⟨m.tries, m.blocked⟩ m.lines
      let m := { m with tries := a.n, blocked := a.blocked }
      let h := h.putMove g (some m)
      match h.moveTrick g with
      | none => h
      | some t => h.itrickStep t.ctx (h.moveItems m) errs (fun t h => h.commitMove g m t errs)

/-- The internal trick of a segment's page move commits, or retries (R201). -/
def execInternalTrickCommit (seg : BitVec 2) (errs : Flips) (s : State) : Host.Outcome State Fault Refusal :=
  onHub s (fun h => h.withRoom (fun h => h.moveBatch seg.toNat errs))

/-- A page move starts (R212) (DEDUCED, log 56). -/
def Hub.startMove (h : Hub) (p g : Nat) : Hub :=
  match (if h.bgTurn p then h.nextMove p g else none) with
  | none => h
  | some (b, w, t) =>
    let h := (h.putFwd p w (mkFwd b 2 (fwdVoids (h.fwd p w)))).putRev p t (mkRev w 3)
    (h.putMove g (some ⟨BitVec.ofNat 6 p, w, b, t, 0, 0, []⟩)).noteLow p

/-- The page manager begins to move the highest allocated page down (R212). -/
def execPageMove (part : BitVec 6) (seg : BitVec 2) (s : State) : Host.Outcome State Fault Refusal :=
  onHub s (fun h => h.startMove part.toNat seg.toNat)

/-- A FREE_DIRTY page is zeroed (R212, R213). -/
def Hub.zeroNext (h : Hub) (p : Nat) : Hub :=
  match (if h.bgTurn p then h.nextZero p else none) with
  | none => h
  | some b => ((h.zeroPage p b false).putRev p b (mkRev 0 1)).bgCharge p 65536

/-- The page manager zeroes the lowest FREE_DIRTY page. -/
def execPageZero (part : BitVec 6) (s : State) : Host.Outcome State Fault Refusal :=
  onHub s (fun h => h.zeroNext part.toNat)

/-- The translation unit allocates for a waiting write or reduction, or answers NO_SPACE (R207 to R209). -/
def Hub.allocateFor (h : Hub) (id : Nat) : Hub :=
  match h.lines.ready.find? (fun o => o.id == id && (o.kind == .write || o.kind == .reduce)) with
  | none => h
  | some o =>
    let p := o.part.toNat
    let st := h.pageState p o.line
    if !(h.part p).managed ∨ (st ≠ 0 ∧ st ≠ 3) ∨ h.behindOwn o then h
    else match h.allocPage p (o.line / 256) with
      | some h => h
      | none =>
        let n := SMap.get (fun _ => 0) h.pages.noSpace p
        let h := h.setPages { h.pages with noSpace := SMap.set (fun _ => 0) h.pages.noSpace p (satAdd (2 ^ 32 - 1) n 1) }
        let h := h.raise pPagemgr 1
        (h.withdrawOp o).answer o.req o.idx 7 0 []

def execPageAllocate (op : Nat) (s : State) : Host.Outcome State Fault Refusal := onHub s (fun h => h.allocateFor op)

/-- The release of a page takes its order instant (R210). -/
def execPageReleaseCommit (part : BitVec 6) (page : BitVec 26) (s : State) : Host.Outcome State Fault Refusal :=
  onHub s (fun h => (h.commitRelease part.toNat page.toNat).orderClears)

/-! Retirement copies (R351) -/

def Hub.putMig (h : Hub) (m : Migration) : Hub :=
  h.setRas { h.ras with migs := h.ras.migs.map (fun x => if x.b = m.b then m else x) }

/-- The watermark rises; after the last batch RETIRE_END is submitted (R351 steps 4 and 5). -/
def Hub.raiseMark (h : Hub) (m : Migration) : Hub :=
  let m' := { m with wm := m.wm + 16, tries := 0, blocked := [] }
  if m'.wm < h.bigD then h.putMig m'
  else (h.putMig { m' with phase := 2 }).submit 4 true (le16 m.k ++ le16 m.a ++ le16 m.b)

/-- The offsets of a migration's present batch. -/
def Hub.migItems (h : Hub) (m : Migration) : List CopyItem :=
  (List.range 16).map (fun i => ⟨m.k, m.wm + i, h.windowLine m.k (m.wm + i)⟩)

/-- One offset reaches B with its present value, and its word with the matching MAC and what the copy lost. -/
def Hub.copyOffset (h : Hub) (m : Migration) (t : ITrick) (n : Nat) (i : CopyItem) (errs : Flips) : Hub :=
  let (x, w, h) := h.copyValue t n i errs
  let cipher (c : Nat) : Sector := match i.line with
    | some (p, _) => h.encrypt p i.slab i.off c (x.sector c)
    | none => x.sector c
  let w' : Meta := match i.line with
    | some (p, _) => { w with mac := if w.void then w.mac else h.lineMac p i.slab i.off x }
    | none => w
  let h := (List.range 4).foldl (fun h c => h.pushWrite m.b i.off c (rsEncode (cipher c)) none) h
  h.cacheWord i.slab i.off w'

/-- The metadata sector of eight offsets is written to A and B as the words stand (R351 step 4, R352). -/
def Hub.copyWords (h : Hub) (k base : Nat) : Hub :=
  let x : Sector := (List.range 8).foldl (fun x j => putWord x (base + j) (h.metaOf k (base + j))) 0
  h.writeWords k (h.metaPlace base).1 (h.metaPlace base).2 x

/-- The internal trick of a retirement batch commits: sixteen offsets and their two metadata sectors at B, then the watermark. -/
def Hub.commitBatch (h : Hub) (m : Migration) (t : ITrick) (errs : Flips) : Hub :=
  let lines := h.migLines m
  let h := (h.migItems m).zipIdx.foldl (fun h e => h.copyOffset m t e.2 e.1 errs) h
  let h := (h.copyWords m.k m.wm).copyWords m.k (m.wm + 8)
  ((((h.endItrick t).unreserve lines).bump pTrick 0x64 0 32 1).raiseMark m).settleOn

/-- A batch of sixteen offsets is skipped, waits, takes its locks, reads, commits or is tried again (R201, R351 step 4)
(DEDUCED, log 44). -/
def Hub.migBatch (h : Hub) (i : Nat) (errs : Flips) : Hub :=
  match (h.ras.migs.filter (fun m => m.phase != 0))[i]? with
  | none => h
  | some m =>
    if m.phase ≠ 1 then h
    else match h.chunkState m.k m.wm with
      | .unfilled => h.raiseMark m
      | .pending => h
      | .filled =>
        let (a, h) := if (h.migTrick m).isSome then (⟨m.tries, m.blocked⟩, h)
          else h.attempt (h.lslab m.k).home.toNat none m.b ⟨m.tries, m.blocked⟩ (h.migLines m)
        let m := { m with tries := a.n, blocked := a.blocked }
        let h := h.putMig m
        match h.migTrick m with
        | none => h
        | some t => h.itrickStep t.ctx (h.migItems m) errs (fun t h => h.commitBatch m t errs)

/-- A retirement copy batch (R351 step 4). -/
def execMigrationBatch (index : BitVec 2) (errs : Flips) (s : State) : Host.Outcome State Fault Refusal :=
  onHub s (fun h => h.withRoom (fun h => h.migBatch index.toNat errs))

end Sys2Proof.Machine
end

