-- ==== Sys2Proof/Machine/Ras.lean ====
section
/-!
DEFINITION. The commands of regions, the scrubber, row repair and retirement (chapter 11).
-/
namespace Sys2Proof.Machine

/-! Chunk fills (R342, R343) -/

/-- A write of a chunk, or of the metadata sectors of its lines, is still held at a boundary FIFO for want of a place in its write
queue (R33, R222). -/
def Hub.chunkHeld (h : Hub) (k base : Nat) : Bool :=
  let m := (h.metaPlace base).1
  (h.targets k).any (fun ps => ((h.pc (slabPc ps)).wr.drop 64).any (fun w =>
    w.ps == ps && decide ((base ≤ w.off ∧ w.off < base + 128) ∨ (m ≤ w.off ∧ w.off < m + 4))))

/-- Every write of a PENDING chunk has entered its write queue: the chunk is FILLED (R342). -/
def Hub.fillChunk (h : Hub) (k region chunk : Nat) : Hub :=
  let base := region * 8192 + chunk * 128
  if !h.isPending k base ∨ h.chunkHeld k base then h else (h.setFilled k base).settleOn

/-- Every zero write of a PENDING chunk has entered its write queue (R342). -/
def execChunkFilled (slab : BitVec 11) (region : BitVec 8) (chunk : BitVec 6) (s : State) : Host.Outcome State Fault Refusal :=
  onHub s (fun h => h.fillChunk slab.toNat region.toNat chunk.toNat)

/-- The background fill takes the lowest UNFILLED chunk of a FILLING region (R343). -/
def Hub.backgroundChunk (h : Hub) (k region : Nat) : Hub :=
  let base := region * 8192
  let m := h.chunkMap k base
  let begun := decide (m ≠ 0) || (List.range 64).any (fun c => h.isPending k (base + 128 * c))
  if !begun ∨ (h.slabOwner k).isNone ∨ h.bigD ≤ base then h
  else match (List.range 64).find? (fun c => h.chunkState k (base + 128 * c) == .unfilled) with
    | some c =>
      let off := base + 128 * c
      if h.roomFor 0 [(k, off / 128, (h.lslab k).home)] then h.makePending k off else h
    | none => h

def execBackgroundFill (slab : BitVec 11) (region : BitVec 8) (s : State) : Host.Outcome State Fault Refusal :=
  onHub s (fun h => h.backgroundChunk slab.toNat region.toNat)

/-! The scrubber (R344, R345) -/

def Hub.scrubOf (h : Hub) (st : Nat) : Scrub := SMap.get (fun _ => Scrub.start) h.ras.scrub st
def Hub.putScrub (h : Hub) (st : Nat) (v : Scrub) : Hub :=
  h.setRas { h.ras with scrub := SMap.set (fun _ => Scrub.start) h.ras.scrub st v }

/-- The first offset at or above `off` of a slab that the scrubber walks: in a FILLED chunk, or a metadata offset. -/
def Hub.nextWalked (h : Hub) (k off : Nat) : Option Nat :=
  let d := h.bigD
  if d ≤ off then (if off < slabLines h.amap.dens then some off else none)
  else
    let region := off / 8192
    let chunks := (List.range (d / 8192 - region)).flatMap (fun r =>
      if h.chunkMap k ((region + r) * 8192) = 0 then []
      else (List.range 64).map (fun c => (region + r) * 8192 + 128 * c))
    match chunks.find? (fun b => off < b + 128 && bit (h.chunkMap k b) (chunkOf b)) with
    | some b => some (max off b)
    | none => some d

/-- The next physical slab and offset of a stack's walk, in ascending physical order. -/
def Hub.nextScrub (h : Hub) (st : Nat) : Option (Nat × Nat) :=
  let v := h.scrubOf st
  if v.done then none
  else ((List.range 256).filter (fun i => v.ps ≤ i)).findSome? (fun i =>
    let ps := st * 256 + i
    let x := h.pslab ps
    if x.st ≠ 1 then none
    else (h.nextWalked x.logical.toNat (if i = v.ps then v.off else 0)).map (fun s => (ps, s)))

def Hub.scrubbing (h : Hub) (st : Nat) : Bool := h.lines.fetches.any (fun f => f.kind == .scrub && slabStack f.ps == st)

/-- Stacks that hold a LIVE slab. -/
def Hub.scrubStacks (h : Hub) : List Nat :=
  (List.range 8).filter (fun st => (List.range 256).any (fun i => (h.pslab (st * 256 + i)).st == 1))

/-- A pass ends when every stack has walked its slabs (R344). -/
def Hub.scrubPassEnd (h : Hub) : Hub :=
  let sts := h.scrubStacks
  if sts = [] ∨ !sts.all (fun st => (h.scrubOf st).done && !h.scrubbing st) then h
  else ((h.setRas { h.ras with scrub := [] }).bump pRas 0x84 0 16 1).raise pRas 7

/-- The scrubber of a stack issues its next read (R344). -/
def Hub.scrubIssue (h : Hub) (st : Nat) : Hub :=
  if h.fld pRas 0x80 31 1 = 0 ∨ h.scrubbing st ∨ !h.scrubStacks.contains st then h
  else match h.nextScrub st with
    | none => (h.putScrub st { h.scrubOf st with done := true }).scrubPassEnd
    | some (ps, s) =>
      let h := (h.bgFetch .scrub 0 0 ps s (h.pslab ps).logical.toNat 15).2
      h.putScrub st ⟨ps % 256, s + 1, false⟩

def execScrubberReadIssue (stack : BitVec 3) (s : State) : Host.Outcome State Fault Refusal :=
  onHub s (fun h => h.scrubIssue stack.toNat)

/-- A sector is still stored as a read found it: no write has been made to it since (R44, R46). -/
def Hub.unwritten (h : Hub) (f : Fetch) (i : Nat) : Bool :=
  f.words.any (fun w => w.1 == i && w.2 == h.storedCode f.ps f.off i)

/-- The scrubber reads a sector of an absent line again, behind any queued write (R345). -/
def Hub.scrubAgain (h : Hub) (f : Fetch) (i : Nat) : Hub :=
  (h.openFetch { f with ps := h.steer f.slab f.off, want := putBit 0 i true, op := 1, level := h.bgLevel f.ps }).2

/-- A sector found corrected is written back, one found lost is reported and its line poisoned; neither where a write has been made
since (R333, R345). -/
def Hub.scrubApply (h : Hub) (f : Fetch) (i : Nat) (j : Judged × Sector) (line : Option (Nat × Nat)) : Hub :=
  if !h.unwritten f i then h
  else match j.1 with
    | .clean => h
    | .corrected => (h.targets f.slab).foldl (fun h t => h.pushWrite t f.off i (rsEncode j.2) none) h
    | .uncorrectable =>
      let h := h.reportUe f.ps f.off i 1
      match line with
      | some (p, l) => h.poisonLine p l
      | none => h.putMeta f.slab f.off { h.metaOf f.slab f.off with poison := true }

/-- A sector of a data line found corrected or uncorrectable by the scrubber, at the order instant of its line: by the table of R345. -/
def Hub.scrubFix (h : Hub) (f : Fetch) (i : Nat) (j : Judged × Sector) : Hub :=
  match h.windowLine f.slab f.off with
  | none => h.scrubApply f i j none
  | some (p, l) =>
    let otherwise (h : Hub) : Hub := if f.op = 0 then h.scrubAgain f i else h.scrubApply f i j (some (p, l))
    match h.findWay p l, h.findWb p l with
    | some k, _ =>
      let w := h.way k
      if w.m ≠ 0 then h
      else if bit w.v i then h.putWay k { w with m := putBit w.m i true }
      else otherwise h
    | none, some _ => h
    | none, none => otherwise h

/-- A metadata sector found corrected or uncorrectable by the scrubber. -/
def Hub.scrubMeta (h : Hub) (f : Fetch) (i : Nat) (j : Judged × Sector) : Hub :=
  if !h.unwritten f i then h
  else match j.1 with
    | .clean => h
    | .corrected => h.writeWords f.slab f.off i j.2
    | .uncorrectable => h.reportMetaUe f.slab f.off i f.ps 1

/-- A scrubber read returns. -/
def Hub.scrubRead (h : Hub) (st : Nat) (errs : Flips) : Hub :=
  match h.lines.fetches.find? (fun f => f.kind == .scrub && slabStack f.ps == st && f.got == f.want) with
  | none => h
  | some f =>
    let h := h.dropFetch f.id
    let h := f.words.foldl (fun h w =>
      let j := rsDecode (received w.2 errs w.1)
      let h := if j.1 = .corrected then h.reportCe f.ps 1 else h
      if j.1 = .clean then h else if f.off < h.bigD then h.scrubFix f w.1 j else h.scrubMeta f w.1 j) h
    h.settleOn.scrubPassEnd

def execScrubRead (stack : BitVec 3) (errs : Flips) (s : State) : Host.Outcome State Fault Refusal :=
  onHub s (fun h => h.scrubRead stack.toNat errs)

/-! Row repair (R346 to R349) -/

/-- The value of a line at its home slice, as held, and as stored where nothing holds it. -/
def Hub.lineNow (h : Hub) (p l k s : Nat) : Line :=
  let (held, x) := h.cachedOf (some (p, l))
  if (h.metaOf k s).void then 0
  else putAll (if held = 0 then 0 else x) (((List.range 4).filter (fun i => !bit held i)).map (fun i =>
    (i, h.decrypt p k s i (rsDecode (h.storedCode (h.steer k s) s i)).2)))

/-- A sector of an offset without a window line, as the repair fetched it; the newest write of it where one has been made since
(R346). -/
def Hub.bareSector (h : Hub) (r : Repair) (s i : Nat) (errs : Flips) (base : Nat) : Judged × Sector :=
  let stored := rsDecode (h.storedCode r.ps s i)
  match h.repairFetch r.ps s with
  | none => stored
  | some f =>
    if !h.unwritten f i then stored
    else match f.words.find? (fun w => w.1 == i) with
      | some w => rsDecode (received w.2 errs (base + i))
      | none => stored

/-- An offset of a repaired row that no window line reaches is rewritten from what step 3 fetched (R333, R346). -/
def Hub.rewriteBare (h : Hub) (r : Repair) (s : Nat) (errs : Flips) (base : Nat) : Hub :=
  let k := (h.pslab r.ps).logical.toNat
  (List.range 4).foldl (fun h i =>
    let j := h.bareSector r s i errs base
    let h := if j.1 = .corrected then h.reportCe r.ps 1 else h
    if h.bigD ≤ s then
      (if j.1 = .uncorrectable then h.reportMetaUe k s i r.ps 4 else h.writeWords k s i j.2)
    else
      let h := if j.1 = .uncorrectable then
          (h.reportUe r.ps s i 4).putMeta k s { h.metaOf k s with poison := true }
        else h
      (h.targets k).foldl (fun h t => h.pushWrite t s i (rsEncode j.2) none) h) h

/-- One offset of a repaired row rewritten (R346 step 5). -/
def Hub.rewrite (h : Hub) (r : Repair) (s : Nat) (errs : Flips) (base : Nat) : Hub :=
  let k := (h.pslab r.ps).logical.toNat
  if (h.rowBare r).contains s then h.rewriteBare r s errs base
  else if h.chunkState k s ≠ .filled then h
  else match h.windowLine k s with
    | some (p, l) => h.storeLine p k s (h.lineNow p l k s) (h.metaOf k s).poison (h.metaOf k s).void
    | none => h

/-- A repair ends: its holds are released, the next one of the stack goes on (R346 step 6). -/
def Hub.dropRepair (h : Hub) (r : Repair) : Hub :=
  let h := (h.rowLines r).foldl (fun h e => h.releaseLine e.1 e.2) (h.setPprBank r false)
  let h := (r.offsets.filterMap (fun s => h.repairFetch r.ps s)).foldl (fun h f => h.dropFetch f.id) h
  ((h.setRas { h.ras with repairs := h.ras.repairs.filter (fun x => x != r) }).kickRepair (slabStack r.ps)).settleOn

/-- The hard repair sequence of a stack ends (R346 steps 4 to 6, R347, R349) (DEDUCED, log 50). -/
def Hub.pprEnd (h : Hub) (st units : Nat) (noSpare : Bool) (errs : Flips) : Hub :=
  match h.ras.repairs.find? (fun r => slabStack r.ps == st && r.phase == 3) with
  | none => h
  | some r =>
    let h := if h.fld pRas 0xA0 0 16 < units then h.wrFld pRas 0xA0 0 16 units else h
    let slow : Bool := decide (100 * h.fld pRas 0x808 0 8 < units)
    if noSpare then (h.dropRepair r).startRetire r.ps 0
    else
      let h := r.offsets.zipIdx.foldl (fun h s => h.rewrite r s.1 errs (4 * s.2)) h
      let h := h.setRas { h.ras with table := h.ras.table ++ [(r.ps, r.bg, r.bank, r.row)] }
      let v := h.pslab r.ps
      let h := h.putPslab r.ps { v with repairs := satAdd 15 v.repairs 1, slow := slow }
      let h := ((h.bump pRas 0x60 0 32 1).raise pRas 3).dropRepair r
      if slow then h.startRetire r.ps 0 else h

def execPprSequenceEnd (stack : BitVec 3) (units : BitVec 16) (noSpare : Bool) (errs : Flips) (s : State) :
    Host.Outcome State Fault Refusal :=
  onStack s stack.toNat (fun h => h.pprEnd stack.toNat units.toNat noSpare errs)

/-! Operations of the RAS page (R360) -/

/-- READMIT begins (R355) (DEDUCED, log 37; DEDUCED, log 51). -/
def execReadmit (init : Initiator) (s : State) : Host.Outcome State Fault Refusal :=
  onHub s (fun h => h.go init pRas 1 (fun h => h.fld pRas 0x78 0 11) (fun h => h))

/-- The checks of READMIT, in order (DEDUCED, log 51). -/
def Hub.readmitCheck (h : Hub) (ps : Nat) : Nat :=
  let v := h.pslab ps
  if v.st ≠ 4 then 1 else if v.readmitted then 2 else if (h.pc (slabPc ps)).st ≠ 1 then 3 else 0

/-- The sectors that one pass of the test of READMIT covers: four of every offset, data and metadata (R355). -/
def Hub.testSectors (h : Hub) : Nat := 4 * slabLines h.amap.dens

/-- The sector that a pass writes: every byte 0x55, then every byte 0xAA (R355). -/
def testPattern (pass : Nat) : Sector := BitVec.ofNat 512 (leNat (List.replicate 64 (if pass = 0 then (0x55 : Byte) else 0xAA)))

/-- What the passes of the test read back wrong, by the number of the read: pass × sectors + 4 × offset + sector (R355). -/
def Hub.testFound (h : Hub) (errs : Flips) : List (Nat × Judged) :=
  let n := h.testSectors
  (((errs.map (·.1)).eraseDups.filter (fun i => decide (i < 2 * n))).map (fun i =>
    (i, (rsDecode (received (rsEncode (testPattern (i / n))) errs i)).1))).filter (fun j => j.2 != .clean)

/-- The slab as the last pass of the test leaves it (R355). -/
def Hub.testWrite (h : Hub) (ps : Nat) : Hub :=
  (List.range h.testSectors).foldl (fun h i => h.putCode ps (i / 4) (i % 4) (rsEncode (testPattern 1))) h

/-- READMIT ends: the slab is written and read back twice, and the outcome decides (R355) (DEDUCED, log 51). -/
def Hub.readmitEnd (h : Hub) (ps : Nat) (r : OpEnd) : Hub :=
  let c := h.readmitCheck ps
  if c ≠ 0 then h.endOp pRas c
  else
    let found := h.testFound r.errs
    let ce := (found.filter (fun j => j.2 == .corrected)).length
    let lost := (found.filter (fun j => j.2 == .uncorrectable)).map (fun j => j.1 % h.testSectors)
    let h := h.testWrite ps
    let h := if ce = 0 then h else h.reportCe ps ce
    let h := lost.foldl (fun h i => h.reportUe ps (i / 4) (i % 4) 3) h
    if lost ≠ [] ∨ h.fld pRas 0x804 0 16 < ce then h.endOp pRas 4
    else
      let prev := match (h.pslab ps).prev with
        | some k => k.toNat
        | none => 0
      (h.opWaits pRas 0).submit 7 true (le16 ps ++ le16 prev)

/-- RETIRE begins, and is decided at once (R350, R360) (DEDUCED, log 37). -/
def Hub.retireGo (h : Hub) : Hub :=
  let ps := h.fld pRas 0x78 0 11
  let v := h.pslab ps
  let set (c : Nat) : Hub := h.putLongOp pRas (some ⟨2, c, ps, false⟩)
  if v.st ≠ 1 ∨ h.retiring ps ∨ (h.lslab v.logical.toNat).st = 2 then set 1
  else if h.retireFull ps then set 6
  else (h.opWaits pRas 0).startRetire ps 3

def execRetire (init : Initiator) (s : State) : Host.Outcome State Fault Refusal :=
  onHub s (fun h => h.go init pRas 2 (fun h => h.fld pRas 0x78 0 11) (fun h => h.retireGo))

end Sys2Proof.Machine
end

