-- ==== Sys2Proof/Machine/Flush.lean ====
section
/-!
DEFINITION. Write-backs of many lines at once, as the operations of the cache page and a thermal trip make them (R149, R433),
and the stacks' self-refresh (R437, R438).
-/
namespace Sys2Proof.Machine

/-! Write-backs (R149, R176, R332, R352) -/

/-- The dirty sectors of a way as a write-back buffer entry would hold them. -/
def Hub.wayEntry (h : Hub) (k : Nat) : WbEntry :=
  let w := h.way k
  ⟨w.part, w.line, BitVec.ofNat 2 (k / 16 / 4096 / 128), w.m, w.data, h.cleanTags w.part.toNat w.line (w.v &&& ~~~w.m) w.data,
    decide (w.st = .reducing), []⟩

/-- A way is written back, where it can be, and stays valid and clean (R149). -/
def Hub.cleanWay (h : Hub) (k : Nat) (errs : Flips) : Hub :=
  if (h.way k).st = .invalid ∨ (h.way k).m = 0 then h
  else
    let h := h.readWay k (h.way k).v
    let e := h.wayEntry k
    match h.place e.part.toNat e.line with
    | none => h
    | some (slab, off) =>
      let h := h.askWrite e slab off errs
      if !h.writeReady e slab off then h else (h.writeOut e slab off errs).putWay k { h.way k with m := 0 }

/-- A write-back buffer entry is written back, where it can be. -/
def Hub.cleanWb (h : Hub) (e : WbEntry) (errs : Flips) : Hub :=
  match h.place e.part.toNat e.line with
  | none => h
  | some (slab, off) =>
    let h := h.askWrite e slab off errs
    if !h.writeReady e slab off then h
    else
      let h := h.readWb e.part.toNat e.line e.m
      (h.writeOut ((h.findWb e.part.toNat e.line).getD e) slab off errs).dropWb e.part.toNat e.line

/-- The dirty sectors of a line, where it lies, are written back. -/
def Hub.cleanLine (h : Hub) (p l : Nat) (errs : Flips) : Hub :=
  match h.findWay p l, h.findWb p l with
  | some k, _ => h.cleanWay k errs
  | none, some e => h.cleanWb e errs
  | none, none => h

/-- What the errors of a command say of its n-th line: word numbers 4n to 4n + 3. -/
def errsOf (errs : Flips) (n : Nat) : Flips :=
  (errs.filter (fun e => decide (4 * n ≤ e.1 ∧ e.1 < 4 * n + 4))).map (fun e => (e.1 - 4 * n, e.2))

/-- Lines are written back, in order, as far as they can be. -/
def Hub.cleanLines (h : Hub) (ls : List (Nat × Nat)) (errs : Flips) : Hub :=
  ls.zipIdx.foldl (fun h e => h.cleanLine e.1.1 e.1.2 (errsOf errs e.2)) h

/-- The cache die or the write-back buffer holds a dirty sector of the line. -/
def Hub.lineDirty (h : Hub) (p l : Nat) : Bool :=
  match h.findWay p l, h.findWb p l with
  | some k, _ => (h.way k).m != 0
  | none, some _ => true
  | none, none => false

/-- The dirty lines of a scope. -/
def Hub.dirtyLines (h : Hub) (inScope : Nat → Nat → Bool) : List (Nat × Nat) :=
  ((h.cache.ways.filter (fun e : Nat × Way => e.2.m != 0)).map (fun e => (e.2.part.toNat, e.2.line)) ++
    h.cache.wb.map (fun e => (e.part.toNat, e.line))).filter (fun e => inScope e.1 e.2)

/-- Every dirty line that can be is written back; true once none is left and no acknowledged write or update is still to be made
(R433 step 3) (DEDUCED, log 33). -/
def Hub.flushAll (h : Hub) : Bool × Hub :=
  let h := (h.cleanLines (h.dirtyLines (fun _ _ => true)) []).settleOn
  ((h.dirtyLines (fun _ _ => true)).isEmpty && h.lines.ordered.all (fun o => !(o.kind == .write || o.kind == .reduce)), h)

/-- Ways are written back and invalidated, as far as they can be (R149). -/
def Hub.emptyWays (h : Hub) (ks : List Nat) (busy : Hub → Nat → Bool) (errs : Flips) : Hub :=
  ks.zipIdx.foldl (fun h e =>
    if busy h e.1 then h
    else
      let h := h.cleanWay e.1 (errsOf errs e.2)
      let w := h.way e.1
      if w.m = 0 then (h.putWay e.1 Way.invalid).noteEvicted w.part.toNat w.line else h) h

/-! Self-refresh (R237, R437, R438) -/

/-- The stacks that may enter self-refresh: populated, powered, not in it. -/
def Hub.awake (h : Hub) (st : Nat) : Bool :=
  (h.stack st).populated && !(h.stack st).selfRefresh && !h.pins.pdAck.getLsbD st

/-- A stack's readout is no longer read: its last reading stays, its history ends (R428, R430, R433). -/
def Hub.unread (h : Hub) (st : Nat) : Hub := h.putSource (16 + st) { h.source (16 + st) with hist := [], hot := false }

/-- Issued commands complete, every row closes, the stack enters self-refresh. -/
def Hub.enterSelfRefresh (h : Hub) (st : Nat) : Hub :=
  if !h.awake st then h
  else
    let h := h.sliceEnd st [] false
    let h := (List.range 64).foldl (fun h j =>
      let i := st * 64 + j
      let c := h.pc i
      if c.st = 1 ∨ c.st = 3 ∨ c.st = 4 then h.putPc i { c.closeRows c.slot with prior := c.st, st := 6 } else h) h
    (h.putStack st { h.stack st with selfRefresh := true }).unread st

/-- A stack leaves self-refresh: its channels return to their state, no bank owes a refresh. WARM_PREPARE's is left only by a
reset (R417). -/
def Hub.leaveSelfRefresh (h : Hub) (st : Nat) : Hub :=
  if !(h.stack st).selfRefresh ∨ (h.stack st).prepared then h
  else
    let h := (List.range 64).foldl (fun h j =>
      let i := st * 64 + j
      let c := h.pc i
      if c.st = 6 then
        h.putPc i { c with st := c.prior, banks := c.banks.map (fun e => (e.1, { e.2 with debt := 0, row := none })) }
      else h) h
    h.putStack st { h.stack st with selfRefresh := false }

def Hub.allSelfRefresh (h : Hub) : Hub := (List.range 8).foldl (fun h st => h.enterSelfRefresh st) h

end Sys2Proof.Machine
end

