-- ==== Sys2Proof/Machine/Sequence.lean ====
section
/-!
DEFINITION. The bring-up sequencer between its stages: holds, the start of a stage, the opening of the ports (R398 to R400, R408,
R413, R414, R73), and which of two copies in the flash is newer (R494).
-/
namespace Sys2Proof.Machine

/-! Two copies in the flash (R494) -/

/-- X is newer than Y as 32-bit serial numbers. -/
def serialNewer (x y : Nat) : Bool :=
  let d := (x + 2 ^ 32 - y % 2 ^ 32) % 2 ^ 32
  decide (1 ≤ d ∧ d < 2 ^ 31)

/-- Two copy areas, each holding the SEQ of a valid copy or none. The area (0 lower, 1 upper) of the newer copy; the area a
new copy goes to, and its SEQ. -/
def newerArea (a b : Option Nat) : Option Nat :=
  match a, b with
  | none, none => none
  | some _, none => some 0
  | none, some _ => some 1
  | some x, some y => if serialNewer y x then some 1 else some 0

def nextArea (a b : Option Nat) : Nat × Nat :=
  let succ (x : Option Nat) : Nat := match x with
    | some n => (n + 1) % 2 ^ 32
    | none => 0
  match a, b with
  | none, _ => (0, succ b)
  | some _, none => (1, succ a)
  | some _, some _ => if newerArea a b = some 1 then (0, succ b) else (1, succ a)


def Hub.flashWord (h : Hub) (a : Nat) : Nat := leNat (h.flashBytes a 4)

/-! The training store (R408, R409) -/

def trainArea (x : Nat) : Nat := 0x3110000 + 0x10000 * x

/-- IMPL_ID of this part (R409, R487). -/
def implId : Nat := bitsNat Config.hubInfo 16 16

/-- SEQ of a valid copy: MAGIC, CRC, CONSUMED unprogrammed, this part's IMPL_ID. -/
def Hub.trainCopy (h : Hub) (x : Nat) : Option Nat :=
  let a := trainArea x
  if h.flashWord a = 0x4B545253 ∧ h.flashWord (a + 0x34) = 0xFFFFFFFF ∧ h.flashWord (a + 8) = implId ∧
      h.flashWord (a + 0x38) = (crc32c (h.flashBytes a 0x34 ++ h.flashBytes (a + 0x100) 0x4000)).toNat then
    some (h.flashWord (a + 4))
  else none

/-- The area and SEQ of the next copy. -/
def Hub.nextTrain (h : Hub) : Nat × Nat := nextArea (h.trainCopy 0) (h.trainCopy 1)

/-- CRC-32C of RATE_CFG and TIMING0 to TIMING6 of every STK page (R408 item 5). -/
def Hub.cfgCrc (h : Hub) : Nat :=
  (crc32c ((List.range 8).flatMap (fun st => (0x44 :: (List.range 7).map (fun i => 0x80 + 4 * i)).flatMap
    (fun o => bytesOf (h.rd (pStk st) o))))).toNat

/-! Between stages -/

def Hub.bootBit (h : Hub) (i : Nat) : Bool := bit (h.rd pBoot 0x40) i
def Hub.putBoot (h : Hub) (lo n v : Nat) : Hub := h.wrFld pBoot 0x40 lo n v

/-- The report of S7 has been written (R400, R414). -/
def Hub.reported7 (h : Hub) : Bool := decide (h.rd pBoot (if h.pins.bootSeq then 0x70 else 0x7C) ≠ 0)

/-- Credits at the end of S7: each port its floor, each DMA channel its own, each segment's pools (R71, R73, R274). -/
def Hub.grantAll (h : Hub) : Hub :=
  let h := (List.range 32).foldl (fun h p => h.putPort p (((h.port p).grant false 256).grant true 128)) h
  let h := (List.range 64).foldl (fun h c => h.putDport c { h.dport c with rdHeld := 64, wrHeld := 32 }) h
  (List.range 4).foldl (fun h g => (h.putPool false g 1024).putPool true g 512) h

/-- S7 ends: its report is committed, credits are granted, host MMIO opens, the area of the next training copy is erased
(R398, R400, R408, R411) (DEDUCED, log 24). -/
def Hub.openPorts (h : Hub) : Hub :=
  let h := (h.setBoot { h.boot with ended := 8, go := false }).grantAll
  let h := (h.putBoot 7 1 1).raise pBoot 4
  h.eraseFlash (trainArea h.nextTrain.1) 0x10000

/-- The sequence stops: a failed stage (R380, R406), a trip (R413, R436) (DEDUCED, log 23). -/
def Hub.seqStopped (h : Hub) : Bool := h.inReset || h.bootBit 8 || decide (h.therm.trip ≠ 0)

/-- The next stage begins, or the hub holds before it; nothing begins before the report is committed and the supply warning is
over (R399, R400, R413) (DEDUCED, log 23; DEDUCED, log 24). -/
def Hub.proceed (h : Hub) : Hub :=
  let n := h.boot.ended
  if h.seqStopped ∨ h.boot.waitCommit ∨ h.therm.episode ∨ n = 0 ∨ 8 ≤ n then h
  else if n = 7 ∧ h.reported7 then h.openPorts
  else if h.boot.go ∨ h.bootBit 6 then h
  else if n = 1 then (h.setBoot { h.boot with go := true }).putBoot 0 4 1
  else if !h.bootBit 11 then h
  else if bit (h.rd pBoot 0x44) n then ((h.putBoot 0 4 n).putBoot 6 1 1).raise pBoot 2
  else (h.setBoot { h.boot with go := true }).putBoot 0 4 n

/-- START ends once S2 has begun or is held (R421). -/
def Hub.startEnds (h : Hub) : Hub :=
  match h.opOf pBoot with
  | some o =>
    if (o.opcode = 1 ∨ o.opcode = 2) ∧ o.waits ∧ (h.boot.go ∨ h.bootBit 6) then h.putLongOp pBoot (some { o with waits := false }) else h
  | none => h

end Sys2Proof.Machine
end

