-- ==== Sys2Proof/Machine/Therm.lean ====
section
/-!
DEFINITION. Temperature, power, the thermal trip, the pace windows and the supply warning (chapter 14, R29, R38). Readings are
held in units of 0.125 °C. What happens once a millisecond or at a due time is a command of its own (DESIGN CHOICE, log 3).
-/
namespace Sys2Proof.Machine

/-! Readings (R428 to R430) -/

/-- The trip value and the reading that a broken one counts as (R429, R432), in units of 0.125 °C. -/
def tripEighths : Int := 840
def brokenEighths : Int := 848

/-- Whole °C, rounded down, of a reading. -/
def wholeDeg (e : Int) : Int := e / 8
def degByte (e : Int) : Nat := ((wholeDeg e) % 256).toNat

/-- Step 1 of a trip (R433) (DESIGN CHOICE, log 32). -/
def Hub.startTrip (h : Hub) (i : Nat) (e : Int) (broken : Bool) : Hub :=
  if h.therm.trip ≠ 0 then h
  else
    let v := putBit (putBit (putBits (BitVec.ofNat 32 i) 8 8 (degByte e)) 16 broken) 31 true
    let h := h.setTherm { h.therm with trip := 1, tripAt := h.now }
    ((h.wr pTherm 0x78 v).wrFld pTherm 0x44 0 1 1).raise pTherm 3

/-- A source is read: its history, its failure bit, and the trip at a second successive reading above 105 °C (R429, R432)
(DESIGN CHOICE, log 32). -/
def Hub.readSource (h : Hub) (i : Nat) (broken : Bool) (e : Int) : Hub :=
  let x := h.source i
  let v := if broken then brokenEighths else e
  let hot : Bool := decide (tripEighths < v)
  let h := h.putSource i ⟨(v :: x.hist).take 11, v, true, broken, hot⟩
  let h := h.wr pTherm 0x5C (putBit (h.rd pTherm 0x5C) i broken)
  let h := if broken ∧ !x.fail then (h.raise pTherm 1).submitO 0x22 0 [BitVec.ofNat 8 i] else h
  if hot ∧ x.hot then h.startTrip i v (broken || x.fail) else h

/-- The stack's own readout (R238): TEMP, and source 16 + s, unless the stack is not read (R428); below −40 °C it is broken (R429). -/
def Hub.stackTemp (h : Hub) (st : Nat) (ok : Bool) (deg : BitVec 8) : Hub :=
  if h.inReset ∨ !h.awake st then h
  else
    let old := h.rd (pStk st) 0x64
    let v := if ok then putBit (putBits (putBits old 0 8 deg.toNat) 8 1 1) 9 false else putBit old 9 true
    (h.wr (pStk st) 0x64 v).readSource (16 + st) (!ok || decide (deg.toInt < -40)) (deg.toInt * 8)

def execStackTempRead (stack : BitVec 3) (ok : Bool) (deg : BitVec 8) (s : State) : Host.Outcome State Fault Refusal :=
  onStack s stack.toNat (fun h => h.stackTemp stack.toNat ok deg)

/-- A hub sensor; `ok` false where its conversion did not end or its two measurements differ by more than 4 °C (R429). -/
def execSensorRead (sensor : BitVec 4) (ok : Bool) (eighths : BitVec 12) (s : State) : Host.Outcome State Fault Refusal :=
  onHub s (fun h =>
    if h.inReset then h
    else h.readSource sensor.toNat (!ok || decide (eighths.toInt < -320) || decide (1200 < eighths.toInt)) eighths.toInt)

/-- Rise of a source over ten readings, where it has eleven (R430) (DESIGN CHOICE, log 32). -/
def Source.rise (x : Source) : Option Int :=
  match x.hist[0]?, x.hist[10]? with
  | some a, some b => some (a - b)
  | _, _ => none

/-- Rmax, in units of 0.125 °C per 10 ms. -/
def Hub.rmax (h : Hub) : Option Int :=
  ((List.range 24).filterMap (fun i => (h.source i).rise)).foldl
    (fun m r => match m with
      | none => some r
      | some x => some (max x r)) none

/-- STEP of TM.THROTTLE moves (R431) (DESIGN CHOICE, log 32). -/
def Hub.setStep (h : Hub) (step : Nat) : Hub := h.wrFld pTm 0x84 0 3 step

/-- The check of one millisecond (R431) (DESIGN CHOICE, log 32). -/
def Hub.rorCheck (h : Hub) : Hub :=
  let cfg := h.rd pTherm 0x60
  let over_ (t : Nat) : Bool := decide (t ≠ 0) && (match h.rmax with
    | some r => decide ((2 * t : Nat) ≤ r)
    | none => false)
  let above1 := over_ (bitsNat cfg 0 8)
  let above2 := over_ (bitsNat cfg 8 8)
  let step := h.throttle
  let up := if above2 then 2 else if above1 then 1 else 0
  let new := min 7 (step + up)
  let t : Therm := { h.therm with sinceRise := min 10 (h.therm.sinceRise + 1) }
  if step < new ∧ 10 ≤ t.sinceRise then
    let h := (h.setTherm { t with sinceRise := 0, below := 0 }).setStep new
    let h := h.bump pTherm 0x64 8 24 1
    (h.wrFld pTherm 0x64 3 3 (max new (h.fld pTherm 0x64 3 3))).raise pTherm 0
  else if above1 ∨ above2 ∨ step = 0 then h.setTherm { t with below := 0 }
  else if bitsNat cfg 16 16 ≤ t.below then (h.setTherm { t with below := 1 }).setStep (step - 1)
  else h.setTherm { t with below := t.below + 1 }

def execRorCheck (s : State) : Host.Outcome State Fault Refusal := onHub s (fun h => if h.inReset then h else h.rorCheck)

/-! Power (R426, R427) -/

def Hub.coef (h : Hub) (i : Nat) : Nat := (SMap.get (fun _ => 0) h.therm.coef i).toNat

/-- The estimate of the last millisecond in mW: a pJ per event counts 10^-6 mW over 1 ms (DESIGN CHOICE, log 53). -/
def Hub.estimate (h : Hub) : Nat :=
  let hot : Int := (List.range 16).foldl (fun m i => if (h.source i).valid then max m (h.source i).last else m) (-320)
  let leak := h.coef 1 * (hot - 200).toNat / 8
  let inService := ((List.range 8).filter (fun st => bit (h.rd (pStk st) 0x40) 1)).length
  let pj := h.coef 2 * h.therm.act.getD 0 0 + h.coef 3 * h.therm.act.getD 1 0 + h.coef 5 * h.therm.act.getD 2 0 +
    h.coef 6 * h.therm.act.getD 3 0 + h.coef 7 * h.therm.act.getD 4 0
  h.coef 0 + leak + h.coef 4 * inService + pj / 1000000

def execPowerEstimate (s : State) : Host.Outcome State Fault Refusal :=
  onHub s (fun h =>
    if h.inReset then h
    else
      let e := min (2 ^ 24 - 1) h.estimate
      (h.setTherm { h.therm with act := [0, 0, 0, 0, 0], sum := h.therm.sum + e, num := h.therm.num + 1 }).wr pTherm 0x6C
        (BitVec.ofNat 32 e))

/-- A 100 ms window ends: the mean in whole watts (DESIGN CHOICE, log 53). -/
def execPowerWindowEnd (s : State) : Host.Outcome State Fault Refusal :=
  onHub s (fun h =>
    if h.inReset then h
    else
      let w := if h.therm.num = 0 then 0 else h.therm.sum / h.therm.num / 1000
      (h.setTherm { h.therm with sum := 0, num := 0 }).wr pTherm 0x68 (BitVec.ofNat 32 (min 1023 w)))

/-! Pace windows (R29, R38) -/

/-- A pace window of a segment ends: its count, and SLOW_SEEN with PACE where it rises (R38, R39); the top-up resumes at the end of
one that is not slow (R29). -/
def execPaceWindowEnd (seg : BitVec 2) (cycles : BitVec 20) (s : State) : Host.Outcome State Fault Refusal :=
  onHub s (fun h =>
    if h.inReset then h
    else
      let g := seg.toNat
      let c := cycles.toNat
      let slow : Bool := decide (c < 43116)
      let h := h.wr pHub (0x110 + 4 * g) (putBit (putBit (BitVec.ofNat 32 c) 30 slow) 31 true)
      let h := h.wr pHub (0x120 + 4 * g) (BitVec.ofNat 32 (min c (h.fld pHub (0x120 + 4 * g) 0 20)))
      if !slow then h.topUp g
      else
        let seen := h.rd pHub 0x104
        let h := h.wr pHub 0x104 (putBit seen g true)
        if bit seen g then h else h.raise pHub 4)

/-! The trip (R433 to R436) -/

/-- No request and no DMA burst accepted before the trip is under way. -/
def Hub.drained (h : Hub) : Bool :=
  h.lines.reqs.isEmpty && h.dma.all (fun d => d.2.bursts.isEmpty)

/-- Step 2 ends: everything accepted before the trip has been answered. -/
def execTripDrainDone (s : State) : Host.Outcome State Fault Refusal :=
  onHub s (fun h => if h.therm.trip = 1 ∧ h.drained then h.setTherm { h.therm with trip := 2 } else h)

/-- Steps 4 and 5: what the channel engines hold is carried out, self-refresh, and the TRIP entry is submitted (DEDUCED, log 33). -/
def Hub.tripShut (h : Hub) (cut : Bool) : Hub :=
  let h := ((List.range 512).foldl (fun h i => if h.awake (i / 64) then h.drainPc i else h) h).allSelfRefresh
  let h := h.wrFld pTherm 0x78 17 1 cut.toNat
  let v := h.rd pTherm 0x78
  (h.setTherm { h.therm with trip := 3 }).submit 8 true
    [BitVec.ofNat 8 (bitsNat v 0 5), BitVec.ofNat 8 (bitsNat v 8 8), BitVec.ofNat 8 cut.toNat]

/-- Step 3 goes on, and ends once every dirty sector has been written back; not while the supply warning is asserted (R440). -/
def Hub.tripFlush (h : Hub) : Hub :=
  if h.therm.trip = 2 ∧ !(h.therm.episode && h.therm.warn) ∧ !h.therm.selfDone ∧ !h.therm.exiting then
    match h.flushAll with
    | (true, h) => h.tripShut false
    | (false, h) => h
  else h

def execTripFlushDone (s : State) : Host.Outcome State Fault Refusal := onHub s (fun h => h.tripFlush)

/-- Dirty sectors not handed to a channel engine are lost (R434) (DEDUCED, log 33). -/
def Hub.dropDirty (h : Hub) : Hub :=
  let ks := (h.cache.ways.filter (fun e => e.2.m != 0)).map (·.1)
  let h := ks.foldl (fun h k => h.putWay k { h.way k with v := (h.way k).v &&& ~~~(h.way k).m, m := 0 }) h
  h.setCache { h.cache with wb := [] }

/-- 1.2 ms after the trip, whatever step 3 has not written back is abandoned (R434) (DESIGN CHOICE, log 3). -/
def execTripFlushCut (s : State) : Host.Outcome State Fault Refusal :=
  onHub s (fun h =>
    if h.therm.trip = 1 ∨ h.therm.trip = 2 then ((h.reach (h.therm.tripAt + 120000)).dropDirty).tripShut true else h)

/-! The supply warning (R437 to R440) -/

/-- The stacks are held in self-refresh by the episode (DEDUCED, log 33). -/
def Hub.holdStacks (h : Hub) : Hub :=
  let h := h.allSelfRefresh
  (h.setTherm { h.therm with selfDone := true }).wrFld pTherm 0x44 3 1 1

/-- The warning is seen asserted. -/
def Hub.warnOn (h : Hub) : Hub :=
  let h := h.setPins { h.pins with supplyWarn := true }
  if h.therm.episode then h.setTherm { h.therm with warn := true }
  else
    let h := h.setTherm { h.therm with episode := true, warn := true, start := h.now, selfDone := h.therm.exiting,
                                        notReady := false, exiting := false }
    let h := (h.wrFld pTherm 0x44 2 1 1).raise pTherm 2
    (List.range 8).foldl (fun h st => h.sliceEnd st [] false) h

def execSupplyWarnAssert (s : State) : Host.Outcome State Fault Refusal :=
  onHub s (fun h =>
    if h.inReset then h.setPins { h.pins with supplyWarn := true } else if h.pins.supplyWarn then h else h.warnOn)

def execSupplyWarnDeassert (s : State) : Host.Outcome State Fault Refusal :=
  onHub s (fun h =>
    if h.inReset then h.setPins { h.pins with supplyWarn := false }
    else if !h.pins.supplyWarn then h
    else
      let h := h.setPins { h.pins with supplyWarn := false }
      h.setTherm { h.therm with warn := false, quietAt := h.now })

/-- 5 µs into the episode with the warning asserted. -/
def execSupplySelfRefreshDue (s : State) : Host.Outcome State Fault Refusal :=
  onHub s (fun h =>
    if h.therm.episode ∧ h.therm.warn ∧ !h.therm.selfDone then (h.reach (h.therm.start + 500)).holdStacks else h)

/-- 7 µs into the episode with the warning asserted: NOT_READY to everything not yet answered, and credits return again. -/
def execSupplyNotReadyDue (s : State) : Host.Outcome State Fault Refusal :=
  onHub s (fun h =>
    if h.therm.episode ∧ h.therm.warn ∧ !h.therm.notReady then
      let h := h.reach (h.therm.start + 700)
      let h := if h.therm.selfDone then h else h.holdStacks
      ((h.setTherm { h.therm with notReady := true }).withdrawAll).releaseOwed
    else h)

/-- Steps 2 and 3 of R438, and what waited for the episode's end (R440) (DEDUCED, log 33). -/
def Hub.afterEpisode (h : Hub) : Hub :=
  let h := h.setTherm { h.therm with exiting := false, selfDone := false }
  let h := (h.wrFld pTherm 0x44 2 1 0).wrFld pTherm 0x44 3 1 0
  let h := if h.noReturn then h else h.releaseOwed
  let h := (List.range 8).foldl (fun h st => (h.kickRepair st).opSliceNext st) h
  h.advanceRepairs.settleOn.proceed.startEnds

/-- 2 µs after the last deassertion: the episode ends (R437), and the stacks leave self-refresh (R438 step 1). -/
def Hub.episodeEnd (h : Hub) : Hub :=
  if !h.therm.episode ∨ h.therm.warn then h
  else
    let h := h.reach (h.therm.quietAt + 200)
    let len := h.now - h.therm.start
    let h := h.bump pTherm 0x70 0 32 1
    let h := h.wr pTherm 0x74 (BitVec.ofNat 32 (max (h.rd pTherm 0x74).toNat (min len (2 ^ 32 - 1))))
    let h := h.submitO 0x20 0 (le32 len)
    let wait : Bool := h.therm.selfDone && decide (h.therm.trip < 3)
    let h := h.setTherm { h.therm with episode := false, notReady := false, exiting := wait }
    if wait then h else h.afterEpisode

def execSupplyEpisodeEnd (s : State) : Host.Outcome State Fault Refusal := onHub s (fun h => h.episodeEnd)

/-- T_XS slots have passed on every stack (R438). -/
def execSelfRefreshExitDone (s : State) : Host.Outcome State Fault Refusal :=
  onHub s (fun h =>
    if h.therm.exiting ∧ h.therm.trip < 3 then ((List.range 8).foldl (fun h st => h.leaveSelfRefresh st) h).afterEpisode else h)

end Sys2Proof.Machine
end

