-- ==== Sys2Proof/Machine/DmaData.lean ====
section
/-!
DEFINITION. What a DMA descriptor means: its fields (R276 to R278), the checks at its fetch (R280, R281), rows and element layout
(R282, R283), the reads, conversion and writes of a burst (R284 to R286).
-/
namespace Sys2Proof.Machine

/-! The descriptor (R276, R277) -/

def Dma.word (d : Dma) (i : Nat) : Word := d.desc.getD i 0
def Dma.long (d : Dma) (i : Nat) : Nat := (d.word i).toNat + 2 ^ 32 * (d.word (i + 1)).toNat
def Dma.rows (d : Dma) : Nat := bitsNat (d.word 0) 0 16 + 1
def Dma.length (d : Dma) : Nat := (d.word 1).toNat
def Dma.cvt (d : Dma) : Bool := bit (d.word 0) 24
def Dma.shint (d : Dma) : Nat := bitsNat (d.word 0) 25 2
def Dma.dhint (d : Dma) : Nat := bitsNat (d.word 0) 27 2
def Dma.fold (d : Dma) : Bool := decide (d.shint = 3)
def Dma.next (d : Dma) : Nat := d.long 12
def Dma.chain (d : Dma) : Bool := bit (d.word 0) 30
/-- Elements (or bytes) of the whole descriptor. -/
def Dma.total (d : Dma) : Nat := d.rows * d.length

/-- One side of a descriptor: element width in bits, format, block-scaled or not, address, stride, scale base. -/
structure Side where
  w : Nat
  fmt : Nat
  blk : Bool
  addr : Nat
  stride : Nat
  scale : Nat
  deriving DecidableEq, Repr

def sideOf (cvt : Bool) (fmt : Nat) (mx : Bool) (addr stride scale : Nat) : Side :=
  if cvt then ⟨(fmtOf fmt).w, fmt, decide (fmt = 5 ∨ fmt = 6) || mx, addr, stride, scale⟩
  else ⟨8, 8, false, addr, stride, scale⟩

def Dma.src (d : Dma) : Side :=
  sideOf d.cvt (bitsNat (d.word 0) 16 3) (bit (d.word 0) 19) (d.long 2) (d.word 6).toNat (d.long 8)
def Dma.dst (d : Dma) : Side :=
  sideOf d.cvt (bitsNat (d.word 0) 20 3) (bit (d.word 0) 23) (d.long 4) (d.word 7).toNat (d.long 10)

/-! Layout (R282, R283) -/

/-- Element line of element i of row r of a block-scaled side. -/
def Side.line (s : Side) (r i : Nat) : Nat := r * s.stride / 256 + i / lineElems s.fmt

/-- Bit address of element i of row r. -/
def Side.bitAddr (s : Side) (r i : Nat) : Nat :=
  if s.blk then (s.addr + 256 * s.line r i) * 8 + elemBit s.fmt (i % lineElems s.fmt)
  else (s.addr + r * s.stride) * 8 + i * s.w

/-- Address of the scale byte of element i of row r. -/
def Side.scaleAddr (s : Side) (r i : Nat) : Nat := s.scale + 16 * s.line r i + i % lineElems s.fmt / 32

/-- First and last byte of elements i0 to i1 - 1 of row r (i0 < i1). -/
def Side.bytes (s : Side) (r i0 i1 : Nat) : Nat × Nat := (s.bitAddr r i0 / 8, (s.bitAddr r (i1 - 1) + s.w - 1) / 8)
def Side.scales (s : Side) (r i0 i1 : Nat) : Nat × Nat := (s.scaleAddr r i0, s.scaleAddr r (i1 - 1))

/-- A range moved by a shift modulo 2^64, as long as before. -/
def moveRange (shift : Nat) (x : Nat × Nat) : Nat × Nat := ((x.1 + shift) % 2 ^ 64, (x.1 + shift) % 2 ^ 64 + (x.2 - x.1))

/-- The ranges of a side from element i of row r on (R281): elements, and scales where it is block-scaled. The elements of row r
lie `shift` further where a RESUME moved them (R303). -/
def Side.ranges (s : Side) (rows len r i shift : Nat) : List (Nat × Nat) :=
  if rows ≤ r then []
  else if len = 0 then
    let a := s.addr + r * s.stride
    let b := s.addr + (rows - 1) * s.stride
    if a < b then [(a, b - 1)] else []
  else
    let from_ (f : Nat → Nat → Nat → Nat × Nat) : Nat × Nat :=
      let a := (f r i len).1
      let b := if r + 1 < rows then (f (r + 1) 0 len).1 else a
      (min a b, max (f r i len).2 (f (rows - 1) 0 len).2)
    let rest : List (Nat × Nat) := if r + 1 < rows then [((s.bytes (r + 1) 0 len).1, (s.bytes (rows - 1) 0 len).2)] else []
    (if shift = 0 then [from_ s.bytes] else moveRange shift (s.bytes r i len) :: rest) ++ (if s.blk then [from_ s.scales] else [])

/-! Checks (R280, R281) -/

/-- FORMAT of one side. -/
def Side.bad (s : Side) (cvt mx : Bool) (rows len : Nat) : Bool :=
  if !cvt then false
  else
    (mx && decide (s.fmt ≠ 3 ∧ s.fmt ≠ 4)) ||
    (if s.blk then
      decide (len % 32 ≠ 0 ∨ s.addr % 256 ≠ 0 ∨ s.scale % 16 ≠ 0 ∨ (1 < rows ∧ s.stride % 256 ≠ 0))
    else decide (s.addr % (s.w / 8) ≠ 0 ∨ (1 < rows ∧ s.stride % (s.w / 8) ≠ 0)))

/-- Windows that may hold a range. -/
inductive WinRef where
  | part (p : Nat)
  | peer (i : Nat)
  | host (i : Nat)
  deriving DecidableEq, Repr

def Window.size (w : Window) : Nat := w.units * 2097152

/-- The window that an address lies in (R102). -/
def Hub.windowAt (h : Hub) (a : Nat) : Option WinRef :=
  match (List.range 64).find? (fun q => (h.part q).enabled && (h.part q).inWindow a) with
  | some q => some (.part q)
  | none =>
    match (List.range 256).find? (fun i => (h.peerWin i).holds a) with
    | some i => some (.peer i)
    | none => ((List.range 16).find? (fun i => (h.hostWin i).holds a)).map .host

/-- A range lies wholly in one window. -/
def Hub.oneWindow (h : Hub) (r : Nat × Nat) : Bool :=
  match h.windowAt r.1 with
  | some w => h.windowAt r.2 == some w
  | none => false

/-- The channel of partition p may read or write the window (R102). -/
def Hub.windowAllows (h : Hub) (ch p : Nat) (wr : Bool) (w : WinRef) : Bool :=
  bit (h.part p).dma ch &&
  (match w with
  | .part q => q == p
  | .peer i =>
    let x := h.peerWin i
    bitsNat x.ctrl 0 6 == p && permAllows x.ctrl (if wr then 1 else 0)
  | .host i =>
    let x := h.hostWin i
    bitsNat x.ctrl 0 6 == p && bit x.ctrl (if wr then 13 else 12))

/-- Two lists of ranges share a byte. -/
def meet (a b : List (Nat × Nat)) : Bool := a.any (fun x => b.any (fun y => decide (x.1 ≤ y.2 ∧ y.1 ≤ x.2)))

/-- A RESUME may continue a side at element i with this shift: whole elements, or whole blocks and element lines where it is
block-scaled (R280, R303) (DEDUCED, log 36). -/
def Side.resumes (s : Side) (i shift : Nat) : Bool :=
  if s.blk then decide (i % 32 = 0 ∧ shift % 256 = 0) else shift % (s.w / 8) == 0

def Dma.resumes (d : Dma) (i : Nat) : Bool := d.src.resumes i d.shiftSrc && d.dst.resumes i d.shiftDst

/-- RESULT of the checks of a fetched descriptor from element i of row r on; 0: it runs. -/
def Hub.checkDesc (h : Hub) (ch p : Nat) (d : Dma) (r i : Nat) : Nat :=
  let s := d.src.ranges d.rows d.length r i d.shiftSrc
  let t := d.dst.ranges d.rows d.length r i d.shiftDst
  if d.dhint = 3 ∨ !d.resumes i ∨ d.src.bad d.cvt (bit (d.word 0) 19) d.rows d.length ∨ d.dst.bad d.cvt (bit (d.word 0) 23) d.rows d.length ∨
      (s ++ t).any (fun x => decide (2 ^ 64 ≤ x.2)) then 1
  else if !(s ++ t).all h.oneWindow then 2
  else
    let allowed (wr : Bool) (x : Nat × Nat) : Bool := match h.windowAt x.1 with
      | some w => h.windowAllows ch p wr w
      | none => false
    if !(s.all (allowed false) && t.all (allowed true)) then 3 else 0

/-- The ranges of a whole side, and the row that a RESUME moved (R281, R303). -/
def Dma.allRanges (d : Dma) (s : Side) (shift : Nat) : List (Nat × Nat) :=
  s.ranges d.rows d.length 0 0 0 ++
  (if shift = 0 ∨ d.length = 0 then [] else [moveRange shift (s.bytes d.shiftRow 0 d.length)])

/-- The ranges of the held descriptor; none where none is held. -/
def Dma.usedRanges (d : Dma) : List (Nat × Nat) :=
  if d.desc = [] then [] else d.allRanges d.src d.shiftSrc ++ d.allRanges d.dst d.shiftDst

/-- Source and destination of the descriptor share a byte (R285). -/
def Dma.overlaps (d : Dma) : Bool := meet (d.allRanges d.src d.shiftSrc) (d.allRanges d.dst d.shiftDst)

/-- The power domain of an address, where it lies in a host window (R295). -/
def Hub.domainOf (h : Hub) (a : Nat) : Option Nat :=
  match h.windowAt a with
  | some (.host i) => some (bitsNat (h.hostWin i).ctrl 8 4)
  | _ => none

/-- Power domains that a channel touches: descriptor, ranges, next descriptor. -/
def Hub.domains (h : Hub) (d : Dma) (descAddr : Nat) : List Nat :=
  let nx := if d.desc ≠ [] ∧ d.chain then [d.next] else []
  (descAddr :: d.usedRanges.map (·.1) ++ nx).filterMap h.domainOf

/-! Bits of elements in bytes -/

def getByte (m : SMap Byte) (a : Nat) : Byte := SMap.get (fun _ => 0) m a

/-- The w bits at a bit address. -/
def getElem (m : SMap Byte) (b w : Nat) : Nat :=
  leNat ((List.range ((b % 8 + w + 7) / 8)).map (fun i => getByte m (b / 8 + i))) / 2 ^ (b % 8) % 2 ^ w

/-- A map of bytes with the w bits at a bit address replaced. -/
def putElem (m : SMap Byte) (b w v : Nat) : SMap Byte :=
  let n := (b % 8 + w + 7) / 8
  let old := leNat ((List.range n).map (fun i => getByte m (b / 8 + i)))
  let keep := old % 2 ^ (b % 8) + old / 2 ^ (b % 8 + w) * 2 ^ (b % 8 + w)
  (leBytes n (keep + v % 2 ^ w * 2 ^ (b % 8))).zipIdx.foldl (fun m e => SMap.insert m (b / 8 + e.2) e.1) m

/-! Bursts (R284, R285) -/

/-- Destination elements of a burst of BURST_MAX bytes. -/
def Dma.burstElems (d : Dma) (bytes : Nat) : Nat :=
  let n := bytes * 8 / d.dst.w
  if d.src.blk ∨ d.dst.blk then n / 32 * 32 else n

/-- The parts of a burst by row: (row, first element, element after the last). -/
def rowParts (len first count : Nat) : List (Nat × Nat × Nat) :=
  if len = 0 ∨ count = 0 then []
  else (List.range ((first + count - 1) / len - first / len + 1)).map (fun j =>
    let r := first / len + j
    (r, max first (r * len) - r * len, min (first + count) ((r + 1) * len) - r * len))

/-- 64-byte sectors of a byte range. -/
def sectorsIn (x : Nat × Nat) : List Nat := (List.range (x.2 / 64 - x.1 / 64 + 1)).map (fun i => x.1 / 64 + i)

/-- Rising numbers without repeats. -/
def rising (l : List Nat) : List Nat :=
  (l.mergeSort (fun a b => decide (a ≤ b))).foldr (fun a acc => match acc with
    | b :: _ => if a = b then acc else a :: acc
    | [] => [a]) []

/-- The largest aligned run of 2^k units from the first of a rising list, k at most `top`. -/
def runSize (l : List Nat) (top : Nat) : Nat :=
  match l with
  | [] => 0
  | a :: _ =>
    match ((List.range (top + 1)).reverse).find? (fun k => a % 2 ^ k == 0 && l.take (2 ^ k) == (List.range (2 ^ k)).map (fun i => a + i)) with
    | some k => k
    | none => 0

/-- A rising list cut into aligned runs: (first, k). -/
def cutRuns (top : Nat) : Nat → List Nat → List (Nat × Nat)
  | 0, _ => []
  | _ + 1, [] => []
  | n + 1, a :: l => (a, runSize (a :: l) top) :: cutRuns top n ((a :: l).drop (2 ^ runSize (a :: l) top))

/-- Addresses of a side of the row that a RESUME continued in are shifted to where it continued (R294). -/
def shifted (d : Dma) (row shift : Nat) (x : Nat) : Nat := if row = d.shiftRow then (x + shift) % 2 ^ 64 else x

/-- The header of a DMA request (R274) (DESIGN CHOICE, log 35). -/
def Hub.dmaHeader (h : Hub) (ch op size addr hint : Nat) (en : BitVec 256) : Header :=
  let c := h.rd (pDma ch) 0x40
  { opcode := BitVec.ofNat 4 op, size := BitVec.ofNat 3 size, narrow := false, trump := false, hint := BitVec.ofNat 2 hint
    part := BitVec.ofNat 6 (bitsNat c 0 6), cls := BitVec.ofNat 3 (bitsNat c 8 3), colour := BitVec.ofNat 2 (bitsNat c 11 2)
    fstart := false, flen := 0, tag := 0, fmt := 0, rop := 0, mod := 0, trickId := 0
    addr := BitVec.ofNat 64 addr, operand64 := 0, byteEn := en }

/-- The source reads of a burst (R285 step 1). -/
def Hub.burstReads (h : Hub) (ch : Nat) (d : Dma) (b : Burst) : List (Header × List Sector) :=
  let parts := rowParts d.length b.first b.count
  let elems := parts.flatMap (fun p =>
    let x := d.src.bytes p.1 p.2.1 p.2.2
    sectorsIn (shifted d p.1 d.shiftSrc x.1, shifted d p.1 d.shiftSrc x.2))
  let scales := if d.src.blk then parts.flatMap (fun p => sectorsIn (d.src.scales p.1 p.2.1 p.2.2)) else []
  let ss := rising (elems ++ scales)
  (cutRuns 6 ss.length ss).map (fun r => (h.dmaHeader ch 0 r.2 (64 * r.1) d.shint (BitVec.allOnes 256), []))

/-- The value of source element i of row r (R155, R286). -/
def Dma.value (d : Dma) (m : SMap Byte) (r i : Nat) : Num :=
  let s := d.src
  let v := decodeNum (fmtOf s.fmt) (getElem m (8 * shifted d r d.shiftSrc (s.bitAddr r i / 8) + s.bitAddr r i % 8) s.w)
  if s.blk then scaled (getByte m (s.scaleAddr r i)).toNat v else v

/-- Element bits copied unchanged: a byte copy, or one format with both sides scaled or neither (R286). -/
def Dma.plain (d : Dma) : Bool := !d.cvt || (decide (d.src.fmt = d.dst.fmt) && d.src.blk == d.dst.blk)

/-- The bits of the destination elements of a row part, and the scale bytes of its blocks. -/
def Dma.converted (d : Dma) (infOnOvf : Bool) (m : SMap Byte) (r i0 i1 : Nat) : List Nat × List Byte :=
  let idx := (List.range (i1 - i0)).map (fun j => i0 + j)
  let starts := (List.range ((i1 - i0) / 32)).map (fun j => i0 + 32 * j)
  let raw (i : Nat) : Nat := getElem m (8 * shifted d r d.shiftSrc (d.src.bitAddr r i / 8) + d.src.bitAddr r i % 8) d.src.w
  if d.plain then
    (idx.map raw, if d.dst.blk then starts.map (fun i => getByte m (d.src.scaleAddr r i)) else [])
  else if d.dst.blk then
    let blocks := starts.map (fun i =>
      let vs := (List.range 32).map (fun j => d.value m r (i + j))
      let x := chooseScale d.dst.fmt vs
      (x, blockElems d.dst.fmt x infOnOvf vs))
    (blocks.flatMap (·.2), blocks.map (fun b => BitVec.ofNat 8 b.1))
  else (idx.map (fun i => convertElem d.dst.fmt infOnOvf (d.value m r i)), [])

/-- Reserved bytes of an element line or scale slot that a burst writes whole are written as 0 (R157, R283). -/
def padReserved (d : Dma) (m : SMap Byte) (r i0 i1 : Nat) : SMap Byte :=
  let s := d.dst
  if !s.blk then m
  else
    let e := lineElems s.fmt
    let lines := (List.range ((i1 - 1) / e - i0 / e + 1)).filter (fun j =>
      let k := i0 / e + j
      decide (i0 ≤ k * e ∧ (k + 1) * e ≤ i1))
    lines.foldl (fun m j =>
      let i := (i0 / e + j) * e
      let m := if s.fmt = 5 then
          (List.range 16).foldl (fun m q => SMap.insert m (s.addr + 256 * s.line r i + 240 + q) 0) m
        else m
      (List.range (16 - e / 32)).foldl (fun m q => SMap.insert m (s.scale + 16 * s.line r i + e / 32 + q) 0) m) m

/-- The destination of a burst: every byte written, and the element bytes in CRC order (R283, R286, R287). -/
def Dma.produce (d : Dma) (infOnOvf : Bool) (b : Burst) : SMap Byte × List Byte :=
  (rowParts d.length b.first b.count).foldl (fun (acc : SMap Byte × List Byte) p =>
    let (r, i0, i1) := p
    let (els, scs) := d.converted infOnOvf b.src r i0 i1
    let place (i : Nat) : Nat :=
      let x := d.dst.bitAddr r i
      8 * shifted d r d.shiftDst (x / 8) + x % 8
    let row := els.zipIdx.foldl (fun m e => putElem m (place (i0 + e.2)) d.dst.w e.1) ([] : SMap Byte)
    let all := row.foldl (fun m e => SMap.insert m e.1 e.2) acc.1
    let all := scs.zipIdx.foldl (fun m e => SMap.insert m (d.dst.scaleAddr r (i0 + 32 * e.2)) e.1) all
    (padReserved d all r i0 i1, acc.2 ++ row.map (·.2))) ([], [])

/-- The sector of the bytes at 64-byte address a. -/
def sectorAt (m : SMap Byte) (a : Nat) : Sector := BitVec.ofNat 512 (leNat ((List.range 64).map (fun i => getByte m (64 * a + i))))

/-- The destination writes of a burst (R285 step 3): whole aligned runs of lines, and every other line with its bytes enabled
(DESIGN CHOICE, log 35). -/
def Hub.burstWrites (h : Hub) (ch : Nat) (d : Dma) (m : SMap Byte) : List (Header × List Sector) :=
  let lines := rising (m.map (fun e => e.1 / 256))
  let has (a : Nat) : Bool := m.any (fun e => e.1 == a)
  let full (l : Nat) : Bool := (List.range 256).all (fun i => has (256 * l + i))
  let whole := lines.filter full
  let part := lines.filter (fun l => !full l)
  let sectors (l n : Nat) : List Sector := (List.range (4 * n)).map (fun i => sectorAt m (4 * l + i))
  (cutRuns 4 whole.length whole).map (fun r =>
    (h.dmaHeader ch 1 (2 + r.2) (256 * r.1) d.dhint (BitVec.allOnes 256), sectors r.1 (2 ^ r.2))) ++
  part.map (fun l =>
    let en := BitVec.ofNat 256 ((List.range 256).foldl (fun a i => if has (256 * l + i) then a + 2 ^ i else a) 0)
    (h.dmaHeader ch 1 2 (256 * l) d.dhint en, sectors l 1))

end Sys2Proof.Machine
end

