-- ==== Sys2Proof/Machine/Dma.lean ====
section
/-!
DEFINITION. The DMA channels (chapter 9) and the host-memory interfaces (R275). A channel's command that finds requests not yet
issued for want of credits issues those that fit now; answers of its requests reach it through Hub.answer.
-/
namespace Sys2Proof.Machine

/-! Issue of requests (R274, R102) -/

/-- What became of a request: it waits for credits, was answered at once, or was issued under a number. -/
inductive Issue where
  | wait
  | answered (code : Nat) (h : Hub)
  | sent (id : Nat) (h : Hub)

def dmaCap (wr : Bool) : Nat := if wr then 128 else 256

/-- What the shared pool may add to a channel's credits now: nothing while its segment is slow or top-up is suspended, else up to
the cap (R29, R72, R274). -/
def Hub.dmaMayDraw (h : Hub) (wr : Bool) (ch : Nat) : Nat :=
  let q := h.dport ch
  if h.slowSeg (ch / 16) ∨ h.noTopUp then 0 else min (h.poolOf wr (ch / 16)) (dmaCap wr - (q.held wr + q.flight wr))

/-- Credits a channel can spend now: those held, and what the pool may add. -/
def Hub.dmaCanSpend (h : Hub) (wr : Bool) (ch n : Nat) : Bool := decide (n ≤ (h.dport ch).held wr + h.dmaMayDraw wr ch)

def Hub.dmaSpend (h : Hub) (wr : Bool) (ch n : Nat) : Hub :=
  let q := h.dport ch
  let pool := n - q.held wr
  (h.putPool wr (ch / 16) (h.poolOf wr (ch / 16) - pool)).putDport ch (q.set wr (q.held wr - n) (q.flight wr + n))

/-- One request of a channel, decoded and policed like a port's (DESIGN CHOICE, log 35). -/
def Hub.dmaIssue (h : Hub) (ch : Nat) (hd : Header) (flits : List Sector) (frame : Nat) : Issue :=
  let src : Src := .dma (BitVec.ofNat 6 ch)
  let n := hd.lineCount
  if h.closed then .answered 4 h
  else match h.decode src hd with
    | .bad code => .answered code h
    | .ok t =>
      let host : Bool := match t with
        | .host _ => true
        | _ => false
      if !host ∧ !h.dmaCanSpend hd.wrCredit ch n then .wait
      else
        let h := if host then h else h.dmaSpend hd.wrCredit ch n
        let h := (List.range n).foldl (fun h i => h.countLine 0x01 1 src hd i 0) h
        let (id, h) := h.enqueue src hd flits t frame
        .sent id h

/-- A request outside the bursts: descriptor and status accesses, each a frame of its own. -/
def Hub.dmaSingle (h : Hub) (ch : Nat) (hd : Header) (flits : List Sector) : Issue :=
  let (f, h) := h.newFrame 64 0
  h.dmaIssue ch hd flits f

/-- The unissued requests of a burst are issued in order as far as credits allow; one answered at once fails the burst
(DESIGN CHOICE, log 35). -/
def Hub.pumpBurst (h : Hub) (ch : Nat) (b : Burst) : Nat → Burst × Hub
  | 0 => (b, h)
  | n + 1 =>
    match b.todo with
    | [] => (b, h)
    | (hd, fl) :: rest =>
      match h.dmaIssue ch hd fl b.frame with
      | .wait => (b, h)
      | .answered code h => Hub.pumpBurst h ch { b with todo := rest, code := if b.code = 0 then code else b.code } n
      | .sent id h => Hub.pumpBurst h ch { b with todo := rest, reqs := b.reqs ++ [id] } n

/-- The bursts of a channel issue what they can. -/
def Hub.pump (h : Hub) (ch : Nat) : Hub :=
  let d := h.dmaCh ch
  let (bs, h) := d.bursts.foldl (fun (acc : List Burst × Hub) b =>
    let (b, h) := acc.2.pumpBurst ch b b.todo.length
    (acc.1 ++ [b], h)) ([], h)
  h.putDma ch { h.dmaCh ch with bursts := bs }

/-! States (R290, R292, R303) -/

/-- A channel enters a state; IDLE clears EVT_CREDIT, and a PAGE_OP that ends there ends. -/
def Hub.dmaEnter (h : Hub) (ch : Nat) (st : BitVec 3) : Hub :=
  let h := h.putDma ch { h.dmaCh ch with st := st }
  let h := if st = 1 then h.wr (pDma ch) 0x70 0 else if st = 6 then h.raise (pDma ch) 3 else if st = 5 then h.raise (pDma ch) 4 else h
  match h.opOf (pDma ch) with
  | none => h
  | some o =>
    if !o.waits then h
    else if (o.opcode = 1 ∨ o.opcode = 3) ∧ (st = 2 ∨ st = 3 ∨ st = 5) then h.endOp (pDma ch) 0
    else if (o.opcode = 1 ∨ o.opcode = 3) ∧ st = 1 then h.endOp (pDma ch) 2
    else if o.opcode = 2 ∧ (st = 4 ∨ st = 1) then h.endOp (pDma ch) 0
    else if o.opcode = 4 ∧ st = 1 then h.endOp (pDma ch) 0
    else if o.opcode ≠ 4 ∧ st = 6 then h.endOp (pDma ch) 4
    else h

/-- An event of a channel adds to EVT_CREDIT (R292). -/
def Hub.dmaEventTo (h : Hub) (ch : Nat) : Hub :=
  let p := pDma ch
  let pace := h.fld p 0x40 20 2
  let st := (h.dmaCh ch).st
  if pace < 2 ∨ st = 0 ∨ st = 1 then h
  else
    let add := if pace = 2 then 1 else h.fld p 0x44 16 8
    let v := h.fld p 0x70 0 16 + add
    let h := h.wrFld p 0x70 0 16 (min 65535 v)
    if 65535 < v then (h.bump p 0x84 0 32 (v - 65535)).raise p 5 else h

/-- Gate event or completion event `i` reaches the channels that name it. -/
def Hub.dmaEvent (h : Hub) (completion : Bool) (i : Nat) : Hub :=
  (List.range 64).foldl (fun h ch =>
    if h.fld (pDma ch) 0x44 0 6 = i ∧ bit (h.rd (pDma ch) 0x44) 6 = completion then h.dmaEventTo ch else h) h

/-! Positions (R294) -/

/-- The position registers at element n of the descriptor. -/
def Hub.showPos (h : Hub) (ch n : Nat) : Hub :=
  let d := h.dmaCh ch
  let p := pDma ch
  if d.length = 0 then (((h.wr64 p 0x54 (d.long 2)).wr64 p 0x5C (d.long 4)).wr p 0x64 0).wr p 0x68 0
  else
    let r := if n = d.total then d.rows - 1 else n / d.length
    let i := n - r * d.length
    let at_ (s : Side) (shift : Nat) : Nat := shifted d r shift (if i = 0 then s.bitAddr r 0 / 8 else (s.bitAddr r (i - 1) + s.w) / 8)
    let exact (s : Side) (shift : Nat) : Nat := if i < d.length then shifted d r shift (s.bitAddr r i / 8) else at_ s shift
    let h := (h.wr64 p 0x54 (exact d.src d.shiftSrc)).wr64 p 0x5C (exact d.dst d.shiftDst)
    (h.wr p 0x64 (BitVec.ofNat 32 (d.length - i))).wr p 0x68 (BitVec.ofNat 32 (if n = d.total then 0 else d.rows - r))

/-! Descriptor fetch, STATUS and OWN -/

def Hub.descAddr (h : Hub) (ch : Nat) : Nat := h.rd64 (pDma ch) 0x48

/-- A domain the channel touches is powered down, or is to be (R90, R295) (DEDUCED, log 36). -/
def Hub.dmaPowered (h : Hub) (ch : Nat) : Bool :=
  (h.domains (h.dmaCh ch) (h.descAddr ch)).any (fun n => bit h.pins.pdAck n || bit h.pins.pdReq n)

/-- What the read of a descriptor at an address is answered before it is issued (R102, R276), 0: it is issued. A peer window, or
a host window without both permissions, is DENIED (DEDUCED, log 36). -/
def Hub.descCode (h : Hub) (ch a : Nat) : Nat :=
  let p := h.fld (pDma ch) 0x40 0 6
  if h.closed then 4
  else match h.windowAt a with
    | none => 5
    | some (.part q) => if q = p then 0 else 3
    | some (.peer _) => 3
    | some (.host i) => let x := h.hostWin i; if bitsNat x.ctrl 0 6 = p ∧ bit x.ctrl 12 ∧ bit x.ctrl 13 then 0 else 3

/-- `Dma.err` of a descriptor address that is not aligned: no response code, RESP 0 (R278, R280). -/
def errUnaligned : Nat := 8

/-- The descriptor read is issued (R276, R280). -/
def Hub.issueFetch (h : Hub) (ch : Nat) : Hub :=
  let d := h.dmaCh ch
  let a := h.descAddr ch
  let code := if a % 64 ≠ 0 then errUnaligned else h.descCode ch a
  if d.fetch = 0 ∨ d.fetchReq ≠ 0 ∨ d.err ≠ 0 then h
  else if code ≠ 0 then h.putDma ch { d with err := code }
  else match h.dmaSingle ch (h.dmaHeader ch 0 0 a 0 (BitVec.allOnes 256)) [] with
    | .wait => h
    | .answered code h => h.putDma ch { h.dmaCh ch with err := code }
    | .sent id h => h.putDma ch { h.dmaCh ch with fetchReq := id, got := [], err := 0 }

/-- A completion write is issued: 8 bytes of STATUS, or the CTRL word with OWN = 0 (R278, R288). -/
def Hub.issueFinish (h : Hub) (ch : Nat) : Hub :=
  let d := h.dmaCh ch
  if d.finish = 0 ∨ d.finishReq ≠ 0 ∨ d.err ≠ 0 then h
  else
    let a := h.descAddr ch
    let status := (h.rd (pDma ch) 0x6C).toNat + 2 ^ 32 * (d.result % 16) + 2 ^ 36 * (d.resp % 8)
    let (en, x) : BitVec 256 × Nat :=
      if d.finish = 2 then (0xF, (putBit (d.word 0) 31 false).toNat)
      else (BitVec.ofNat 256 (0xFF <<< 56), (if d.finish = 1 then (h.rd (pDma ch) 0x6C).toNat else status) <<< 448)
    match h.dmaSingle ch (h.dmaHeader ch 1 0 a 0 en) [BitVec.ofNat 512 x] with
    | .wait => h
    | .answered code h => h.putDma ch { h.dmaCh ch with err := code }
    | .sent id h => h.putDma ch { h.dmaCh ch with finishReq := id, err := 0 }

def Hub.startFinish (h : Hub) (ch n : Nat) : Hub :=
  (h.putDma ch { h.dmaCh ch with finish := n, finishReq := 0, err := 0 }).issueFinish ch

/-- The channel is HALTED. -/
def Hub.enterHalted (h : Hub) (ch : Nat) : Hub :=
  (h.putDma ch { h.dmaCh ch with finish := 0, finishReq := 0, stopFor := 0, fetch := 0, fetchReq := 0 }).dmaEnter ch 6

/-- An error halts the channel once its requests have drained (R296); an ABORT under way goes on instead (R303). -/
def Hub.dmaHalt (h : Hub) (ch result resp : Nat) : Hub :=
  let d := h.dmaCh ch
  if d.stopFor = 2 ∨ d.stopFor = 5 then h.putDma ch { d with stopFor := 5 }
  else h.putDma ch { d with stopFor := 4, result := result, resp := resp }

/-- The frames of bursts that end are let go. -/
def Hub.dropBursts (h : Hub) (ch : Nat) : Hub :=
  let bs := (h.dmaCh ch).bursts
  let h := h.putDma ch { h.dmaCh ch with bursts := [] }
  bs.foldl (fun h b => (h.putGframe b.frame { h.gframe b.frame with left := 0 }).tidyFrame b.frame) h

/-- The drained channel ends an ABORT: its STATUS is written first, unless the descriptor's domain is down (R303). -/
def Hub.abortDrained (h : Hub) (ch : Nat) : Hub :=
  let d := h.dmaCh ch
  let down : Bool := match h.domainOf (h.descAddr ch) with
    | some n => bit h.pins.pdAck n
    | none => false
  let h := h.putDma ch { d with stopFor := 0, result := 6, resp := 0, fetch := 0, pausePend := false }
  if down ∨ d.desc = [] then (h.putDma ch { h.dmaCh ch with desc := [], overlap := false }).dmaEnter ch 1 else h.startFinish ch 4

/-- What waits for the drain takes place (R290, R294 to R296, R303). -/
def Hub.dmaSettle (h : Hub) (ch : Nat) : Hub :=
  let d := h.dmaCh ch
  if d.finish ≠ 0 ∨ (d.fetch ≠ 0 ∧ d.fetchReq ≠ 0) then h
  else
    let quiet : Bool := d.bursts.all (fun b => b.reqs.isEmpty && b.todo.isEmpty)
    match d.stopFor with
    | 1 => if d.bursts.isEmpty then (h.putDma ch { d with stopFor := 0 }).dmaEnter ch 4 else h
    | 2 => if d.bursts.isEmpty then h.abortDrained ch else h
    | 3 => if d.bursts.isEmpty then (h.putDma ch { d with stopFor := 0 }).dmaEnter ch 5 else h
    | 4 =>
      if !quiet then h
      else
        let h := h.dropBursts ch
        if d.result = 7 ∨ d.desc = [] then h.enterHalted ch else h.startFinish ch 3
    | 5 => if quiet then (h.dropBursts ch).abortDrained ch else h
    | _ => h

/-- A completion write failed, or the STATUS of a halt is written: the channel halts, unless it is to be aborted (R296, R303). -/
def Hub.finishHalts (h : Hub) (ch : Nat) : Hub :=
  let d := h.dmaCh ch
  if d.stopFor = 2 ∨ d.stopFor = 5 then (h.putDma ch { d with finish := 0, finishReq := 0 }).dmaSettle ch else h.enterHalted ch

/-! Bursts -/

/-- Weight of a channel's partition in the round robin (R298). -/
def Hub.dmaWeight (h : Hub) (ch : Nat) : Nat :=
  let p := h.fld (pDma ch) 0x40 0 6
  if (h.part p).managed then (SMap.get (fun _ => 4) h.pages.weight p).toNat else h.fld (pDma ch) 0x800 8 4

/-- The pacing lets the channel start a burst: its request line as last sampled, its credit (R291). -/
def Hub.dmaPaced (h : Hub) (ch : Nat) : Bool :=
  let p := pDma ch
  let pace := h.fld p 0x40 20 2
  (pace % 2 == 0 || bit h.pins.dmaReq (h.fld p 0x40 24 8)) && (decide (pace < 2) || decide (0 < h.fld p 0x70 0 16))

/-- Everything but the pacing lets the channel start a burst (DESIGN CHOICE, log 35). -/
def Hub.dmaReady (h : Hub) (ch : Nat) : Bool :=
  let d := h.dmaCh ch
  let one : Bool := d.overlap || decide (h.fld (pDma ch) 0x40 20 1 = 1)
  decide (d.st = 2 ∨ d.st = 3) && d.stopFor == 0 && d.fetch == 0 && d.finish == 0 && !d.desc.isEmpty &&
  decide (d.pos < d.total) && decide (h.therm.trip = 0) &&
  (match d.bursts with
  | [] => true
  | [b] => !one && b.phase == 2
  | _ => false)

/-- BURST_MAX in bytes (R284). -/
def Hub.burstMax (h : Hub) (ch : Nat) : Nat := 16384 / 2 ^ h.fld (pDma ch) 0x40 16 3

/-- Channels of a segment with a weight that are ready to start a burst (R298). -/
def Hub.dmaRivals (h : Hub) (seg : Nat) : List Nat :=
  ((List.range 16).map (fun i => seg * 16 + i)).filter (fun c => h.dmaReady c && h.dmaPaced c && decide (0 < h.dmaWeight c))

/-- A ready channel's turn in the weighted round robin (R298): in a round every channel may start as many bursts as its weight;
a round ends when no ready channel has a start left. Which of several starts first is open (DESIGN CHOICE, log 35). None: it is
not its turn. -/
def Hub.dmaTurn (h : Hub) (ch : Nat) : Option Hub :=
  let seg := ch / 16
  let rivals := h.dmaRivals seg
  if h.dmaWeight ch = 0 then (if rivals = [] then some h else none)
  else
    let take (h : Hub) : Hub := let d := h.dmaCh ch; h.putDma ch { d with left := d.left - 1 }
    if 0 < (h.dmaCh ch).left then some (take h)
    else if rivals.any (fun c => decide (0 < (h.dmaCh c).left)) then none
    else some (take ((List.range 16).foldl (fun h i =>
      let c := seg * 16 + i
      h.putDma c { h.dmaCh c with left := h.dmaWeight c }) h))

/-- A channel at a burst boundary starts a burst in its turn, or waits for its pacing (R285, R291, R296, R298, R437)
(DESIGN CHOICE, log 35). -/
def Hub.burstStart (h : Hub) (ch : Nat) : Hub :=
  let p := pDma ch
  let h := h.pump ch
  if !h.dmaReady ch then h
  else if !h.dmaPaced ch ∨ h.therm.episode ∨ h.therm.exiting ∨ h.pins.supplyWarn then
    if (h.dmaCh ch).bursts.isEmpty then h.dmaEnter ch 3 else h
  else match h.dmaTurn ch with
    | none => h
    | some h =>
      let d := h.dmaCh ch
      let h := if 2 ≤ h.fld p 0x40 20 2 then h.wrFld p 0x70 0 16 (h.fld p 0x70 0 16 - 1) else h
      let per := max 1 (d.burstElems (h.burstMax ch))
      let n := min d.total ((d.pos / per + 1) * per) - d.pos
      let (f, h) := h.newFrame (n * d.dst.w / 8) 1
      let b : Burst := ⟨d.pos, n, 1, [], [], [], [], 0, false, f⟩
      let b := { b with todo := h.burstReads ch d b }
      ((h.putDma ch { h.dmaCh ch with bursts := d.bursts ++ [b], pos := d.pos + n }).dmaEnter ch 2).pump ch

/-- A channel's request line as sampled (R89). -/
def Hub.sampleLine (h : Hub) (ch : Nat) (high : Bool) : Hub :=
  if h.fld (pDma ch) 0x40 20 1 = 1 then h.setPins { h.pins with dmaReq := putBit h.pins.dmaReq (h.fld (pDma ch) 0x40 24 8) high } else h

def execDmaBurstStart (ch : BitVec 6) (lineHigh : Bool) (s : State) : Host.Outcome State Fault Refusal :=
  onHub s (fun h => (h.sampleLine ch.toNat lineHigh).burstStart ch.toNat)

/-- A request line falls: a burst it paces completes in full and is counted (R293). -/
def execDmaReqFall (line : BitVec 8) (s : State) : Host.Outcome State Fault Refusal :=
  onHub s (fun h =>
    let h := h.setPins { h.pins with dmaReq := putBit h.pins.dmaReq line.toNat false }
    (List.range 64).foldl (fun h ch =>
      let d := h.dmaCh ch
      if h.fld (pDma ch) 0x40 20 1 = 1 ∧ h.fld (pDma ch) 0x40 24 8 = line.toNat ∧ d.bursts.any (fun b => !b.fell) then
        (h.putDma ch { d with bursts := d.bursts.map (fun b => { b with fell := true }) }).bump (pDma ch) 0x80 0 32 1
      else h) h)

/-- A failed burst is repeated after 1 µs, or halts the channel (R296, R297). -/
def Hub.burstFails (h : Hub) (ch : Nat) (b : Burst) : Hub :=
  let d := h.dmaCh ch
  let wr : Bool := decide (b.phase = 2)
  let result := if wr then 5 else 4
  let folded : Bool := d.fold && (wr || !b.src.isEmpty)
  let warn := h.therm.episode || h.pins.supplyWarn
  if b.code ≠ 4 ∨ folded ∨ (!warn ∧ h.fld (pDma ch) 0x800 4 4 ≤ d.retries) then (h.dmaHalt ch result b.code).dmaSettle ch
  else
    let b' := { b with phase := 0, code := 0, src := [], out := [], todo := [] }
    h.putDma ch { d with
      bursts := b' :: d.bursts.tail
      retryAt := h.now + 100
      retries := if warn then d.retries else d.retries + 1 }

/-- Every read of a burst is answered: the data is converted and the writes are issued (R285 steps 2 and 3). -/
def Hub.readsDone (h : Hub) (ch : Nat) : Hub :=
  let h := h.pump ch
  let d := h.dmaCh ch
  match d.bursts with
  | [] => h.dmaSettle ch
  | b :: rest =>
    if 4 ≤ d.stopFor then h.dmaSettle ch
    else if b.phase ≠ 1 ∨ !b.todo.isEmpty ∨ !b.reqs.isEmpty then h
    else if b.code ≠ 0 then h.burstFails ch b
    else
      let (m, out) := d.produce (bit (h.rd pArith 0x808) 0) b
      let b' := { b with phase := 2, out := out, todo := h.burstWrites ch d m }
      (h.putDma ch { d with bursts := b' :: rest }).pump ch

def execDmaBurstReadsDone (ch : BitVec 6) (s : State) : Host.Outcome State Fault Refusal :=
  onHub s (fun h => h.readsDone ch.toNat)

/-- Every write of a burst is answered: the burst ends (R285 step 4). -/
def Hub.burstEnd (h : Hub) (ch : Nat) : Hub :=
  let p := pDma ch
  let h := h.pump ch
  let d := h.dmaCh ch
  match d.bursts with
  | [] => h.dmaSettle ch
  | b :: rest =>
    if 4 ≤ d.stopFor then h.dmaSettle ch
    else if b.phase ≠ 2 ∨ !b.todo.isEmpty ∨ !b.reqs.isEmpty then h
    else if b.code ≠ 0 then h.burstFails ch b
    else
      let h := h.putDma ch { d with bursts := rest, retries := 0 }
      let h := (h.putGframe b.frame { h.gframe b.frame with left := 0 }).tidyFrame b.frame
      let h := (h.wr p 0x6C (crcOn (h.rd p 0x6C) b.out)).bump p 0x74 0 32 1
      let h := h.count ⟨0x11, 1, some (ch / 16), none, some (BitVec.ofNat 6 (h.fld p 0x40 0 6)), none⟩
      ((h.showPos ch (b.first + b.count)).pump ch).dmaSettle ch

def execDmaBurstEnd (ch : BitVec 6) (s : State) : Host.Outcome State Fault Refusal :=
  onHub s (fun h => h.burstEnd ch.toNat)

/-- 1 µs after NOT_READY the burst is repeated from its start; not during a supply warning (R296) (DESIGN CHOICE, log 3). -/
def Hub.burstRetry (h : Hub) (ch : Nat) : Hub :=
  let d := h.dmaCh ch
  match d.bursts with
  | b :: rest =>
    if b.phase ≠ 0 ∨ 4 ≤ d.stopFor ∨ h.therm.episode ∨ h.therm.exiting then h
    else
      let h := h.reach d.retryAt
      let b' := { b with phase := 1, todo := h.burstReads ch d b }
      ((h.putDma ch { d with bursts := b' :: rest }).bump (pDma ch) 0x7C 0 32 1).pump ch
  | [] => h

def execDmaRetryTimer (ch : BitVec 6) (s : State) : Host.Outcome State Fault Refusal :=
  onHub s (fun h => h.burstRetry ch.toNat)

/-! Descriptors -/

/-- A channel about to go on is held by the power-down of a domain it touches, or runs (R295). -/
def Hub.dmaRun (h : Hub) (ch : Nat) : Hub :=
  if h.dmaPowered ch then (h.putDma ch { h.dmaCh ch with prior := 2 }).dmaEnter ch 5 else h.dmaEnter ch 2

/-- A descriptor that passed its checks runs from element n (R280, R285, R287, R295); a channel that is stopping stops. -/
def Hub.runDesc (h : Hub) (ch n : Nat) : Hub :=
  let d := h.dmaCh ch
  let h := h.putDma ch { d with pos := n, fetch := 0, fetchReq := 0, retries := 0, overlap := d.overlaps }
  if d.stopFor = 0 then h.dmaRun ch else h.dmaSettle ch

/-- The position that the registers name (R294, R303); none where they name none (DEDUCED, log 36). -/
def Hub.posOfRegs (h : Hub) (ch : Nat) (d : Dma) : Option Nat :=
  let p := pDma ch
  let remain := (h.rd p 0x64).toNat
  let left := h.fld p 0x68 0 17
  if d.length < remain ∨ left = 0 ∨ d.rows < left then none
  else some ((d.rows - left) * d.length + (d.length - remain))

/-- Element addresses of the row a RESUME continues in follow CUR_SRC and CUR_DST as written (DEDUCED, log 36). -/
def Hub.withShift (h : Hub) (ch : Nat) (d : Dma) (n : Nat) : Dma :=
  let p := pDma ch
  if d.length = 0 ∨ n = d.total then d
  else
    let r := n / d.length
    let i := n % d.length
    let diff (cur : Nat) (s : Side) : Nat := (cur + 2 ^ 64 - s.bitAddr r i / 8 % 2 ^ 64) % 2 ^ 64
    { d with shiftRow := r, shiftSrc := diff (h.rd64 p 0x54) d.src, shiftDst := diff (h.rd64 p 0x5C) d.dst }

/-- A fetched descriptor is judged (R280, R289, R303) (DEDUCED, log 36). -/
def Hub.descFetched (h : Hub) (ch : Nat) : Hub :=
  let h := h.issueFetch ch
  let d := h.dmaCh ch
  let p := pDma ch
  if d.fetch = 0 then h.dmaSettle ch
  else if d.fetchReq = 0 ∧ d.err = 0 then h
  else if (h.findReq d.fetchReq).isSome then h
  else if d.err ≠ 0 then ((h.putDma ch { d with fetch := 0, fetchReq := 0 }).dmaHalt ch 7 (d.err % errUnaligned)).dmaSettle ch
  else
    let x := d.got.headD 0
    let words := (List.range 16).map (fun i => (x.extractLsb' (32 * i) 32 : Word))
    let kind := d.fetch
    let d := { d with desc := words, fetch := 0, fetchReq := 0, got := [], shiftRow := 0, shiftSrc := 0, shiftDst := 0 }
    if !bit (d.word 0) 31 then
      let h := h.putDma ch { d with stopFor := 0, desc := [], overlap := false }
      let h := if kind = 2 then h.raise p 2 else h
      h.dmaEnter ch 1
    else
      let part := h.fld p 0x40 0 6
      if kind = 3 then
        match h.posOfRegs ch d with
        | none => ((h.putDma ch d).dmaHalt ch 1 0).dmaSettle ch
        | some n =>
          let d := h.withShift ch d n
          let h := h.putDma ch d
          match h.checkDesc ch part d (n / max 1 d.length) (n % max 1 d.length) with
          | 0 => h.runDesc ch n
          | c => (h.dmaHalt ch c 0).dmaSettle ch
      else
        let h := h.putDma ch d
        let h := if kind = 2 ∧ h.fld p 0x800 0 1 = 1 then h else h.wr p 0x6C 0
        let h := h.showPos ch 0
        match h.checkDesc ch part d 0 0 with
        | 0 => h.runDesc ch 0
        | c => (h.dmaHalt ch c 0).dmaSettle ch

def execDmaDescFetch (ch : BitVec 6) (s : State) : Host.Outcome State Fault Refusal :=
  onHub s (fun h => h.descFetched ch.toNat)

/-- After OWN = 0: counts, completion event, interrupt, and the chain (R288 steps 3 and 4, R289). -/
def Hub.descDone (h : Hub) (ch : Nat) : Hub :=
  let p := pDma ch
  let d := h.dmaCh ch
  let h := (h.putDma ch { d with finish := 0, finishReq := 0 }).bump p 0x78 0 32 1
  let h := h.dmaEvent true ch
  let h := if bit (d.word 0) 29 then h.raise p 1 else h
  if d.chain then
    let h := (h.wr64 p 0x48 (d.next - d.next % 64)).putDma ch { h.dmaCh ch with
      fetch := 2, fetchReq := 0, desc := [], overlap := false, err := if d.next % 64 = 0 then 0 else errUnaligned }
    if d.stopFor ≠ 0 then h.dmaSettle ch else if h.dmaPowered ch then h.dmaRun ch else h.issueFetch ch
  else ((h.putDma ch { h.dmaCh ch with stopFor := 0, desc := [], overlap := false }).raise p 2).dmaEnter ch 1

/-- The completion of a descriptor goes on: STATUS, then OWN, then the chain; or the STATUS of a halt or an ABORT (R288, R296). -/
def Hub.descComplete (h : Hub) (ch : Nat) : Hub :=
  let h := h.issueFinish ch
  let d := h.dmaCh ch
  let pending : Bool := (d.finishReq == 0 && d.err == 0) || (h.findReq d.finishReq).isSome
  match d.finish with
  | 0 =>
    if (d.st = 2 ∨ d.st = 3) ∧ d.stopFor = 0 ∧ d.fetch = 0 ∧ d.desc ≠ [] ∧ d.bursts = [] ∧ d.total ≤ d.pos then h.startFinish ch 1
    else h.dmaSettle ch
  | 1 =>
    if pending then h
    else if d.err ≠ 0 then (h.putDma ch { d with result := 7, resp := d.err }).finishHalts ch
    else h.startFinish ch 2
  | 2 =>
    if pending then h
    else if d.err ≠ 0 then (h.putDma ch { d with result := 7, resp := d.err }).finishHalts ch
    else h.descDone ch
  | 3 =>
    if pending then h
    else if d.err ≠ 0 then (h.putDma ch { d with result := 7 }).finishHalts ch
    else h.finishHalts ch
  | _ =>
    if pending then h
    else
      (h.putDma ch { d with finish := 0, finishReq := 0, stopFor := 0, desc := [], overlap := false, result := if d.err ≠ 0 then 7 else d.result }).dmaEnter ch 1

def execDmaDescComplete (ch : BitVec 6) (s : State) : Host.Outcome State Fault Refusal :=
  onHub s (fun h => h.descComplete ch.toNat)

/-! Operations (R303) -/

/-- An operation refused from the present state ends with its code (R482). -/
def Hub.dmaRefuse (h : Hub) (ch opcode code : Nat) : Hub := h.putLongOp (pDma ch) (some ⟨opcode, code, 0, false⟩)

/-- START and RESUME from HALTED fetch the descriptor; while a domain they touch is down they wait in PAUSED_BY_POWER (R295). -/
def Hub.beginFetch (h : Hub) (ch kind : Nat) : Hub :=
  let h := h.putDma ch { h.dmaCh ch with
    fetch := kind, fetchReq := 0, err := 0, desc := [], overlap := false, stopFor := 0, bursts := [], retries := 0 }
  if h.dmaPowered ch then h.dmaRun ch else h.issueFetch ch

def Hub.dmaStartGo (h : Hub) (ch : Nat) : Hub :=
  let d := h.dmaCh ch
  let p := h.part (h.fld (pDma ch) 0x40 0 6)
  if d.st ≠ 1 ∧ d.st ≠ 6 then h.dmaRefuse ch 1 1
  else if !p.enabled ∨ !bit p.dma ch then h.dmaRefuse ch 1 3
  else (h.opWaits (pDma ch) 0).beginFetch ch 1

def execDmaStart (init : Initiator) (ch : BitVec 6) (s : State) : Host.Outcome State Fault Refusal :=
  onHub s (fun h => h.go init (pDma ch.toNat) 1 (fun _ => 0) (fun h => h.dmaStartGo ch.toNat))

def Hub.dmaPauseGo (h : Hub) (ch : Nat) : Hub :=
  let d := h.dmaCh ch
  if d.st = 5 then (h.putDma ch { d with pausePend := true }).putLongOp (pDma ch) (some ⟨2, 0, 0, false⟩)
  else if d.st = 2 ∨ d.st = 3 then
    (((h.opWaits (pDma ch) 0).putDma ch { d with stopFor := if d.stopFor = 4 then 4 else 1, st := 7 }).dmaSettle ch)
  else h.dmaRefuse ch 2 1

def execDmaPause (init : Initiator) (ch : BitVec 6) (s : State) : Host.Outcome State Fault Refusal :=
  onHub s (fun h => h.go init (pDma ch.toNat) 2 (fun _ => 0) (fun h => h.dmaPauseGo ch.toNat))

def Hub.dmaResumeGo (h : Hub) (ch : Nat) : Hub :=
  let d := h.dmaCh ch
  if d.st = 6 then (h.opWaits (pDma ch) 0).beginFetch ch 3
  else if d.st = 4 then
    let h := h.opWaits (pDma ch) 0
    if d.fetch ≠ 0 then (if h.dmaPowered ch then h.dmaRun ch else (h.dmaEnter ch 2).issueFetch ch)
    else if h.fld (pDma ch) 0x68 0 17 = 0 then h.runDesc ch d.total
    else match h.posOfRegs ch d with
      | none => (h.dmaHalt ch 1 0).dmaSettle ch
      | some n =>
        let h := h.putDma ch (h.withShift ch d n)
        if (h.dmaCh ch).resumes (n % max 1 d.length) then h.runDesc ch n else (h.dmaHalt ch 1 0).dmaSettle ch
  else h.dmaRefuse ch 3 1

def execDmaResume (init : Initiator) (ch : BitVec 6) (s : State) : Host.Outcome State Fault Refusal :=
  onHub s (fun h => h.go init (pDma ch.toNat) 3 (fun _ => 0) (fun h => h.dmaResumeGo ch.toNat))

def Hub.dmaAbortGo (h : Hub) (ch : Nat) : Hub :=
  let d := h.dmaCh ch
  if d.st = 2 ∨ d.st = 3 ∨ d.st = 4 ∨ d.st = 5 ∨ d.st = 6 then
    (((h.opWaits (pDma ch) 0).putDma ch { d with stopFor := if d.stopFor = 4 then 5 else 2, st := 7 }).dmaSettle ch)
  else h.dmaRefuse ch 4 1

def execDmaAbort (init : Initiator) (ch : BitVec 6) (s : State) : Host.Outcome State Fault Refusal :=
  onHub s (fun h => h.go init (pDma ch.toNat) 4 (fun _ => 0) (fun h => h.dmaAbortGo ch.toNat))

/-! The host-memory interface (R275) -/

/-- The host grants credits. -/
def execHmmCreditGrant (seg : BitVec 2) (rd wr : BitVec 7) (s : State) : Host.Outcome State Fault Refusal :=
  onHub s (fun h =>
    if h.inReset then h
    else
      let m := h.hmmIf seg.toNat
      (h.putHmm seg.toNat { m with rd := m.rd + rd.toNat, wr := m.wr + wr.toNat }).hmmSend seg.toNat m.waiting.length)

/-- Sent requests that are still unanswered. -/
def Hub.tidySent (h : Hub) (g : Nat) : Hub :=
  let m := h.hmmIf g
  h.putHmm g { m with sent := m.sent.filter (fun e => (h.findReq e.2.1).isSome) }

/-- The host answers a line operation; an answer to none outstanding is discarded. -/
def execHmmResponse (seg : BitVec 2) (tag : BitVec 16) (line : BitVec 4) (code : BitVec 3) (data : List Sector) (s : State) :
    Host.Outcome State Fault Refusal :=
  onHub s (fun h =>
    let g := seg.toNat
    match (h.hmmIf g).sent.find? (fun e => e.1 == tag.toNat) with
    | none => h
    | some e =>
      match h.findReq e.2.1 with
      | none => h
      | some r =>
        if r.lines ≤ line.toNat ∨ r.answered.contains line.toNat then h
        else ((h.answer e.2.1 line.toNat code.toNat 0 data).tidySent g).hmmSend g (h.hmmIf g).waiting.length)

/-- 7.5 µs after it was sent, an unanswered operation is answered NOT_READY to its channel. -/
def execHmmTimeout (seg : BitVec 2) (tag : BitVec 16) (s : State) : Host.Outcome State Fault Refusal :=
  onHub s (fun h =>
    let g := seg.toNat
    match (h.hmmIf g).sent.find? (fun e => e.1 == tag.toNat) with
    | none => h
    | some e => (((h.reach (e.2.2.1 + 750)).answerAll e.2.1 4).tidySent g))

end Sys2Proof.Machine
end

