-- ==== Sys2Proof/Machine/Far.lean ====
section
/-!
DEFINITION. Peer hubs: frames and their protection (R306 to R309), pairs, their keys and generations (R310, R311, R372 to
R376), link-level retry (R312, R313), requests between hubs (R314 to R320), far-port training (R321, R322) and the operations
of the FARPORT page (R324).
-/
namespace Sys2Proof

/-- The 32-byte frame header (R307). -/
def Frame.headerNat (f : Frame) : Nat :=
  f.typ.toNat + f.hint.toNat * 2 ^ 4 + f.trump.toNat * 2 ^ 6 + f.narrow.toNat * 2 ^ 7 + f.srcHub.toNat * 2 ^ 8 +
  f.dstHub.toNat * 2 ^ 18 + f.be.toNat * 2 ^ 28 + f.exp.toNat * 2 ^ 32 + f.srcPart.toNat * 2 ^ 40 + f.tag.toNat * 2 ^ 48 +
  f.addr.toNat * 2 ^ 64 + f.size.toNat * 2 ^ 128 + f.fmt.toNat * 2 ^ 131 + f.rop.toNat * 2 ^ 134 + f.mod.toNat * 2 ^ 136 +
  f.payload.length % 8192 * 2 ^ 144 + f.counter.toNat * 2 ^ 192
def Frame.header (f : Frame) : List Byte := leBytes 32 f.headerNat

/-- Flits of a frame (R306). -/
def Frame.flits (f : Frame) : Nat := ceilDiv (48 + f.payload.length) 64

/-- A frame's bytes: header, payload, zero bytes up to whole flits, the trailer last (R306). -/
def Frame.bytes (f : Frame) : List Byte :=
  f.header ++ f.payload ++ List.replicate (64 * f.flits - (48 + f.payload.length)) 0 ++ leBytes 16 f.trailer.toNat

/-- One handshake of a lane (R305, R306): the lane, VAL, SOF, EOF and the flit. -/
structure LaneFlit where
  lane : Nat
  val : Bool
  sof : Bool
  eof : Bool
  flit : Sector
  deriving DecidableEq, Repr

/-- The flits of a frame over the active lanes: flit k travels on lane k mod W of them, in ascending order (R305, R306). -/
def Frame.stripe (f : Frame) (active : BitVec 8) : List LaneFlit :=
  let lanes := (List.range 8).filter (bit active)
  (List.range f.flits).map (fun k =>
    ⟨lanes.getD (k % max 1 lanes.length) 0, true, k == 0, k + 1 == f.flits,
      BitVec.ofNat 512 (leNat ((f.bytes.drop (64 * k)).take 64))⟩)

/-- A header of one type between two hubs, every other field 0. -/
def Frame.plain (typ : BitVec 4) (src dst : Nat) (counter : BitVec 64) (payload : List Byte) : Frame :=
  ⟨typ, 0, false, false, BitVec.ofNat 10 src, BitVec.ofNat 10 dst, false, 0, 0, 0, 0, 0, 0, 0, 0, counter, payload, 0⟩

end Sys2Proof
namespace Sys2Proof.Machine

/-! Protection (R309, R373) -/

/-- The nonce of a data frame, most significant byte first (R309). -/
def frameNonce (top : Nat) (f : Frame) (counter : Nat) : List Byte :=
  beBytes 12 ((top * 2 ^ 20 + f.srcHub.toNat * 2 ^ 10 + f.dstHub.toNat) * 2 ^ 64 + counter)

def bytes128 (bs : List Byte) : BitVec 128 := BitVec.ofNat 128 (leNat bs)

/-- A data frame encrypted and tagged (R309). -/
def sealFrame (key : BitVec 256) (f : Frame) : Frame :=
  let n := frameNonce 0 f f.counter.toNat
  let ct := gcmCrypt key n f.payload
  { f with payload := ct, trailer := bytes128 (gcmTag key n f.header ct) }

/-- The tag of a data frame holds. -/
def tagOk (key : BitVec 256) (f : Frame) : Bool :=
  bytes128 (gcmTag key (frameNonce 0 f f.counter.toNat) f.header f.payload) == f.trailer

def openFrame (key : BitVec 256) (f : Frame) : Frame :=
  { f with payload := gcmCrypt key (frameNonce 0 f f.counter.toNat) f.payload }

def frameCrc (f : Frame) : BitVec 128 := (crc32c (f.header ++ f.payload)).setWidth 128
/-- A control frame with its CRC (R309). -/
def crcFrame (f : Frame) : Frame := { f with trailer := frameCrc f }
def crcOk (f : Frame) : Bool := frameCrc f == f.trailer

/-- A KEYX frame (R373). -/
def keyxFrame (master : BitVec 256) (src dst op : Nat) (gen : Word) (start : BitVec 64) (key wrap : BitVec 256) : Frame :=
  let head : List Byte := [BitVec.ofNat 8 op, 0, 0, 0] ++ le32 gen.toNat ++ le64 start.toNat
  let f := Frame.plain 11 src dst (wrap.setWidth 64) []
  let n := frameNonce 0xFFF f f.counter.toNat
  let ct := gcmCrypt master n (bytesOf key)
  crcFrame { f with payload := head ++ ct ++ gcmTag master n head ct }

/-- What a KEYX frame carries, when its tag holds: GEN, START, the unwrapped key (R373). -/
def keyxOpen (master : BitVec 256) (f : Frame) : Option (Word × BitVec 64 × BitVec 256) :=
  let n := frameNonce 0xFFF f f.counter.toNat
  let head := f.payload.take 16
  let ct := (f.payload.drop 16).take 32
  if f.payload.length = 64 ∧ gcmTag master n head ct = f.payload.drop 48 then
    some (BitVec.ofNat 32 (leNat ((head.drop 4).take 4)), BitVec.ofNat 64 (leNat (head.drop 8)),
      BitVec.ofNat 256 (leNat (gcmCrypt master n ct)))
  else none

/-! Far-ports and routes (R310) -/

def Hub.hubId (h : Hub) : Nat := h.fld pFarport 0x40 0 10
/-- What a far-port's lanes carry of the frames it has been handed: whole frames in order (R306). -/
def FarPort.wire (p : FarPort) : List LaneFlit := p.sent.flatMap (fun f => f.stripe p.lanesUsed)

def Hub.badFrames (h : Hub) (n : Nat) : Hub := h.bump pFarport 0x90 0 32 n

/-- The far-port a pair uses; none where none is UP (R310). -/
def Hub.pairPort (h : Hub) (peer : Nat) : Option Nat :=
  ((List.range 4).map (fun i => (h.hubId + peer + i) % 4)).find? (fun i => (h.farPort i).st == 2)

/-- Frames held in the retry buffer of a far-port (R312). -/
def Hub.retryLoad (h : Hub) (i : Nat) : Nat :=
  (h.far.pairs.map (fun e : Nat × Pair => if h.pairPort e.1 = some i then e.2.held.length else 0)).sum

/-- A frame is handed to a pair's far-port; none are sent once THERM_TRIP_N is asserted (R433) (DESIGN CHOICE, log 15). -/
def Hub.emit (h : Hub) (peer : Nat) (f : Frame) : Hub :=
  match h.pairPort peer with
  | some i =>
    if 4 ≤ h.therm.trip then h
    else
      let h := h.putPair peer { h.pair peer with lastTx := h.now }
      h.putFarPort i { h.farPort i with sent := (h.farPort i).sent ++ [f] }
  | none => h

def Hub.sendControl (h : Hub) (peer : Nat) (typ : BitVec 4) (counter : BitVec 64) (payload : List Byte) : Hub :=
  h.emit peer (crcFrame (Frame.plain typ h.hubId peer counter payload))

/-! Keys (R374 to R376) -/

/-- An OFFER is sent with a fresh wrap nonce (R373, R374) (DEDUCED, log 28). -/
def Hub.sendOffer (h : Hub) (peer : Nat) : Hub :=
  match (h.pair peer).master, (h.pair peer).offer with
  | some m, some o =>
    let (w, h) := h.draw false
    let h := h.putPair peer { h.pair peer with offer := some { o with last := h.now } }
    h.emit peer (keyxFrame m h.hubId peer 0 o.gen o.start o.key w)
  | _, _ => h

/-- A new OFFER: O is drawn; no OFFER is sent while the CTR_DRBG is in error (R367, R374). -/
def Hub.newOffer (h : Hub) (peer : Nat) (start : BitVec 64) (rekey : Bool) : Hub :=
  if h.drbgError ∨ (h.pair peer).master.isNone then h
  else
    let (k, h) := h.draw true
    let q := h.pair peer
    (h.putPair peer { q with offer := some ⟨q.txGen + 1, start, k, h.now, h.now, rekey⟩ }).sendOffer peer

/-- PAIR_REKEY of a pair ends (R396). -/
def Hub.rekeyOpEnd (h : Hub) (peer : Nat) : Hub :=
  match h.opOf pSec with
  | some o => if o.opcode = 3 ∧ o.waits ∧ o.index = peer then h.endOp pSec 0 else h
  | none => h

/-! Leaving UP (R311, R315, R319) -/

def Req.peerIs (r : Req) (peer : Nat) : Bool :=
  match r.target with
  | .peer hub _ _ => hub.toNat == peer
  | _ => false

/-- A request is answered PEER_FAIL; its late RESPONSE is awaited if it was sent (R319) (DEDUCED, log 28). -/
def Hub.failReq (h : Hub) (r : Req) (keep : Bool) : Hub :=
  let h := (h.bump pFarport 0x80 0 32 1).answerAll r.id 6
  if keep then h.setLines { h.lines with reqs := h.lines.reqs ++ [{ r with phase := .failed, answered := List.range r.lines }] }
  else h

/-- A response, or the entry into DOWN, returns a credit of the pair (R315). -/
def Hub.creditBack (h : Hub) (peer : Nat) (wr : Bool) : Hub :=
  let q := h.pair peer
  h.putPair peer { q with rdCrd := if wr then q.rdCrd else q.rdCrd + 1, wrCrd := if wr then q.wrCrd + 1 else q.wrCrd }

/-- Every outstanding request of a pair is answered PEER_FAIL at once, wherever it waits; requests that were sent give their
credit back (R311, R315). -/
def Hub.failPeer (h : Hub) (peer : Nat) : Hub :=
  let mine := h.lines.reqs.filter (fun r => r.peerIs peer)
  let h := (mine.filter (fun r => decide (r.phase = .sent) || decide (r.phase = .failed))).foldl
    (fun h r => h.creditBack peer r.hdr.wrCredit) h
  let h := (mine.filter (fun r => decide (r.phase ≠ .failed))).foldl (fun h r => h.failReq r false) h
  h.setLines { h.lines with reqs := h.lines.reqs.filter (fun r => !(r.peerIs peer && decide (r.phase = .failed))) }

/-- The pair enters DOWN, or starts again in DOWN: requests answered PEER_FAIL and their credits returned, counters as at a
restart, session keys discarded and a new exchange begun (R311, R315, R375) (DEDUCED, log 28). -/
def Hub.pairDown (h : Hub) (peer cause : Nat) : Hub :=
  let q := h.pair peer
  if q.st = 0 then h
  else
    let h := if q.st = 2 then
        (h.raise pFarport 3).submitO 0x24 0 (le16 peer ++ [BitVec.ofNat 8 cause])
      else h
    let h := h.failPeer peer
    let q := h.pair peer
    let gen := match q.offer with
      | some o => o.gen
      | none => q.txGen
    let h := h.putPair peer { q with
      st := 1, txNext := 0, rxNext := 0, held := [], unacked := 0
      txKey := none, rxKey := none, txPend := none, rxPend := none, lastQ := none, offer := none, txGen := gen, txFrames := 0 }
    (h.newOffer peer 0 false).rekeyOpEnd peer

/-- With no far-port UP, every pair in service goes DOWN (R311). -/
def Hub.checkPairs (h : Hub) : Hub :=
  if (List.range 4).any (fun i => (h.farPort i).st == 2) then h
  else ((h.far.pairs.filter (fun e : Nat × Pair => e.2.st == 2)).map (·.1)).foldl (fun h p => h.pairDown p 3) h

/-- The pair enters UP: the peer's grant (R311, R315). -/
def Hub.pairUp (h : Hub) (peer : Nat) : Hub :=
  let g := Config.peerGrant peer
  h.putPair peer { h.pair peer with st := 2, rdCrd := g.1.toNat, wrCrd := g.2.toNat, ackAt := h.now }

/-! Training (R321, R322) -/

/-- A far-port trains: it is DOWN meanwhile for its pairs; a disabled one stays DOWN. -/
def Hub.trainFar (h : Hub) (i : Nat) : Hub :=
  let f := h.farPort i
  let go : Bool := f.enable && f.linkUp
  (h.putFarPort i { f with st := if go then 1 else 0, inFrame := false, trainFrom := h.now, lanesUsed := 0 }).checkPairs

def passing (lanes : BitVec 8) : List Nat := (List.range 8).filter (bit lanes)

/-- W and its code of PORT_STATUS.WIDTH (R321). -/
def farWidth (n : Nat) : Nat × Nat := if 8 ≤ n then (8, 0) else if 4 ≤ n then (4, 1) else if 2 ≤ n then (2, 2) else (1, 3)

/-- Training ends with the lanes that passed. -/
def Hub.farTrained (h : Hub) (i : Nat) (lanes : BitVec 8) : Hub :=
  let f := h.farPort i
  let ok := passing lanes
  let (w, code) := farWidth ok.length
  let used := BitVec.ofNat 8 ((ok.take w).map (fun l => 2 ^ l)).sum
  if ok = [] then (h.putFarPort i { f with st := 0, width := 0, lanesOk := 0, lanesUsed := 0 }).checkPairs
  else
    let h := h.putFarPort i { f with st := 2, width := BitVec.ofNat 2 code, lanesOk := lanes, lanesUsed := used }
    if w < 8 then (h.raise pFarport 1).submitO 0x25 0 [BitVec.ofNat 8 i, BitVec.ofNat 8 w] else h

def execFarportTrainingEnd (port : BitVec 2) (lanes : BitVec 8) (s : State) : Host.Outcome State Fault Refusal :=
  onHub s (fun h =>
    if (h.farPort port.toNat).st ≠ 1 then h
    else
      let h := h.farTrained port.toNat lanes
      match h.opOf pFarport with
      | some o => if o.opcode = 2 ∧ o.waits ∧ o.index = port.toNat then h.endOp pFarport 0 else h
      | none => h)

def execOeLinkUpFall (port : BitVec 2) (s : State) : Host.Outcome State Fault Refusal :=
  onHub s (fun h =>
    let f := h.farPort port.toNat
    if h.inReset ∨ !f.linkUp then h
    else
      let h := h.putFarPort port.toNat { f with st := 0, linkUp := false, inFrame := false }
      let h := (h.raise pFarport 2).checkPairs
      match h.opOf pFarport with
      | some o => if o.opcode = 2 ∧ o.waits ∧ o.index = port.toNat then h.endOp pFarport 0 else h
      | none => h)

/-! Sending data frames (R312, R376) -/

/-- Frames one key may seal (R376). -/
def Hub.keyLimit (h : Hub) : Nat := 2 ^ h.fld pSec 0x800 0 6

/-- A rekey of the transmit direction runs. -/
def Pair.rekeying (q : Pair) : Bool := q.offer.isSome || q.txPend.isSome

/-- New data frames wait: the counter has reached START before the ACCEPT, or the present key has no frame left; without a rekey
it keeps the 1,024 frames that a rekey still needs (R376) (DEDUCED, log 28). -/
def Hub.keyHeld (h : Hub) (q : Pair) : Bool :=
  (match q.offer with
    | some o => o.rekey && decide (o.start.toNat ≤ q.txNext.toNat)
    | none => false) ||
  decide (h.keyLimit ≤ q.txFrames + (if q.rekeying then 0 else 1024))

/-- The pair is in service and its far-port can take a new data frame. -/
def Hub.mayTx (h : Hub) (peer : Nat) : Bool :=
  let q := h.pair peer
  let heldBack : Bool := h.keyHeld q
  decide (q.st = 2) && q.txKey.isSome && !heldBack && decide (h.therm.trip < 4) &&
  (match h.pairPort peer with
    | some i => decide (h.retryLoad i < 256)
    | none => false)

/-- The pending transmit key is in use once the counter has reached its START: the rekey is complete, counted and journaled,
and a PAIR_REKEY ends (R376, R396). -/
def Hub.turnTx (h : Hub) (peer : Nat) : Hub :=
  let q := h.pair peer
  match q.txPend with
  | some (k, start) =>
    if q.txNext.toNat < start.toNat then h
    else
      let h := (h.putPair peer { q with txKey := some k, txPend := none, txFrames := 0 }).bump pSec 0x68 0 32 1
      (h.submit 0x12 true (le16 peer ++ [2] ++ le32 q.txGen.toNat)).rekeyOpEnd peer
  | none => h

/-- A rekey begins: the transmit direction, START 1,024 counters on (R376 step 1). -/
def Hub.startRekey (h : Hub) (peer : Nat) : Hub := h.newOffer peer ((h.pair peer).txNext + 1024) true

/-- The present key is near its limit: a rekey is due (R376). -/
def Hub.rekeyDue (h : Hub) (peer : Nat) : Bool :=
  let q := h.pair peer
  decide (q.st = 2) && decide (h.keyLimit - 2 ^ 20 ≤ q.txFrames) && !q.rekeying

/-- A data frame is given the next counter, sent and held for retry. -/
def Hub.sendData (h : Hub) (peer : Nat) (f : Frame) : Hub :=
  let q := h.pair peer
  match q.txKey with
  | none => h
  | some k =>
    let g := sealFrame k { f with counter := q.txNext }
    let h := h.putPair peer { q with
      txNext := q.txNext + 1, txFrames := q.txFrames + 1, held := q.held ++ [g], ackAt := if q.held = [] then h.now else q.ackAt }
    let h := (h.emit peer g).turnTx peer
    if h.rekeyDue peer then h.startRekey peer else h

/-- Frames of a pair sent again, and what that means for its far-port (R312, R322) (DEDUCED, log 28). -/
def Hub.resend (h : Hub) (peer : Nat) (fs : List Frame) : Hub :=
  match h.pairPort peer with
  | none => h
  | some i =>
    let h := (fs.foldl (fun h f => h.emit peer f) h).bump pFarport 0x94 0 32 fs.length
    let p := h.farPort i
    let fresh : Bool := decide (p.resentAt / 100000 ≠ h.now / 100000)
    let n := (if fresh then 0 else p.resent) + fs.length
    let h := h.putFarPort i { p with resent := n, resentAt := h.now }
    let lim := h.fld pFarport 0x800 0 16
    if lim ≠ 0 ∧ lim < n then (h.putFarPort i { h.farPort i with resent := 0 }).trainFar i else h

/-! Requests (R315, R319) -/

/-- The frame of a request to a peer window (R307) (DEDUCED, log 22). -/
def Req.toFrame (r : Req) (src peer exp off tag : Nat) : Frame :=
  let hd := r.hdr
  let data : Bool := decide (hd.opcode ≠ 0)
  let be : Bool := data && decide (hd.size.toNat ≤ 2) && decide (hd.byteEn.toNat % 2 ^ hd.len ≠ 2 ^ hd.len - 1)
  let red : Bool := decide (hd.opcode = 2)
  { Frame.plain (BitVec.ofNat 4 (hd.opcode.toNat + 1)) src peer 0
      ((if be then bytesOf hd.byteEn else []) ++ r.flits.flatMap bytesOf) with
    hint := hd.hint, trump := hd.trump && !data, narrow := hd.narrow && !data, be := be, exp := BitVec.ofNat 8 exp
    srcPart := hd.part, tag := BitVec.ofNat 16 tag, addr := BitVec.ofNat 64 off, size := hd.size
    fmt := if red then hd.fmt else 0, rop := if red then hd.rop else 0, mod := if red then hd.mod else 0 }

/-- A context no request at the far-port endpoints uses. -/
def Hub.freeCtx (h : Hub) : Nat :=
  let used := (h.lines.reqs.filter (fun r => decide (r.phase = .sent) || decide (r.phase = .failed))).map (·.ctx)
  ((List.range (used.length + 1)).find? (fun t => !used.contains t)).getD 0

/-- An earlier request of the same source to the same peer and a common line waits too (R318). -/
def Hub.sendBlocked (h : Hub) (peer : Nat) (r : Req) : Bool :=
  h.lines.reqs.any (fun q => decide (q.id < r.id) && decide (q.src = r.src) && decide (q.phase = .endpoint) && q.peerIs peer &&
    decide (q.span.1 < r.span.2 ∧ r.span.1 < q.span.2))

def Hub.remoteSend (h : Hub) (id : Nat) : Hub :=
  match h.findReq id with
  | none => h
  | some r =>
    match r.target with
    | .peer hub exp off =>
      let peer := hub.toNat
      let q := h.pair peer
      let wr := r.hdr.wrCredit
      if r.phase ≠ .endpoint then h
      else if q.st ≠ 2 then h.failReq r false
      else if (if wr then q.wrCrd else q.rdCrd) = 0 ∨ !h.mayTx peer ∨ h.sendBlocked peer r then h
      else
        let tag := h.freeCtx
        let h := h.putPair peer { q with rdCrd := if wr then q.rdCrd else q.rdCrd - 1, wrCrd := if wr then q.wrCrd - 1 else q.wrCrd }
        ((h.putReq { r with phase := .sent, ctx := tag }).countLine 0x12 1 r.src r.hdr 0 0).sendData peer
          (r.toFrame h.hubId peer exp.toNat off tag)
    | _ => h

def execRemoteSend (req : Nat) (s : State) : Host.Outcome State Fault Refusal := onHub s (fun h => h.withRoom (fun h => h.remoteSend req))

/-- 6 µs after acceptance without a RESPONSE (R319). -/
def execPeerFailTimeout (req : Nat) (s : State) : Host.Outcome State Fault Refusal :=
  onHub s (fun h =>
    match h.findReq req with
    | some r =>
      match r.target with
      | .peer _ _ _ => if r.phase = .failed then h else (h.reach (r.accepted + 600)).failReq r (decide (r.phase = .sent))
      | _ => h
    | none => h)

/-! Receiving (R305, R308, R309, R312, R313) -/

/-- The receiver's framing and addressing: a frame that passes them, or none with the drop counted (DEDUCED, log 27). -/
def Hub.rxFrame (h : Hub) (port : Nat) (f : Frame) : Bool × Hub :=
  let p := h.farPort port
  if h.inReset ∨ p.st ≠ 2 then (false, h)
  else if p.inFrame then (false, (h.putFarPort port { p with inFrame := false }).badFrames f.flits)
  else if f.dstHub.toNat ≠ h.hubId then (false, h.badFrames 1)
  else (true, h)

/-- A control frame that passes its CRC from a pair that is keyed. -/
def Hub.rxControl (h : Hub) (port : Nat) (f : Frame) : Bool × Hub :=
  let (ok, h) := h.rxFrame port f
  if !ok then (false, h)
  else if !crcOk f then (false, h.badFrames 1)
  else if (h.pair f.srcHub.toNat).st = 0 then (false, h)
  else (true, h)

def Hub.heard (h : Hub) (peer : Nat) : Hub := h.putPair peer { h.pair peer with lastRx := h.now }

/-- ACK of everything accepted in order (R312). -/
def Hub.sendAck (h : Hub) (peer : Nat) : Hub :=
  let q := h.pair peer
  (h.putPair peer { q with unacked := 0 }).sendControl peer 9 (q.rxNext - 1) []

def Hub.sendNak (h : Hub) (peer : Nat) : Hub := h.sendControl peer 10 (h.pair peer).rxNext []

/-- The receive key of a counter (R376 step 3) (DEDUCED, log 28). -/
def Pair.rxKeyOf (q : Pair) (c : BitVec 64) : Option (BitVec 256) :=
  match q.rxPend with
  | some (k, start) => if start.toNat ≤ c.toNat then some k else q.rxKey
  | none => q.rxKey

/-- A data frame: checked against its tag and its counter; the opened frame when it is accepted. -/
def Hub.rxData (h : Hub) (port : Nat) (f : Frame) : Option Frame × Hub :=
  let peer := f.srcHub.toNat
  let (ok, h) := h.rxFrame port f
  let q := h.pair peer
  if !ok then (none, h)
  else match q.rxKeyOf f.counter with
    | none => (none, h.badFrames 1)
    | some k =>
      if !tagOk k f then (none, (h.badFrames 1).sendNak peer)
      else
        let h := h.heard peer
        let c := f.counter.toNat
        let want := q.rxNext.toNat
        if want < c then (none, h.sendNak peer)
        else if c < want ∧ want - c ≤ 256 then (none, h.bump pFarport 0x88 0 32 1)
        else if c < want then
          (none, ((h.bump pFarport 0x8C 0 32 1).raise pFarport 4).submit 0x15 true (le16 peer ++ le64 c))
        else
          let turn : Bool := match q.rxPend with
            | some (_, start) => decide (start.toNat ≤ c)
            | none => false
          let q := h.pair peer
          let h := h.putPair peer { q with
            rxNext := q.rxNext + 1
            rxKey := if turn then some k else q.rxKey
            rxPend := if turn then none else q.rxPend
            unacked := q.unacked + 1
            unackedAt := if q.unacked = 0 then h.now else q.unackedAt }
          (some (openFrame k f), if 32 ≤ q.unacked + 1 then h.sendAck peer else h)

/-! Arriving requests (R314, R316) -/

/-- The request header that an arriving frame stands for, at its place in the owner's window (DEDUCED, log 27). -/
def Hub.headerOf (h : Hub) (f : Frame) (e : ExportCfg) : Header :=
  let owner := bitsNat e.ctrl 0 6
  { opcode := BitVec.ofNat 4 (f.typ.toNat - 1), size := f.size, narrow := f.narrow, trump := f.trump && bit e.ctrl 19
    hint := f.hint, part := BitVec.ofNat 6 owner, cls := 0, colour := 0, fstart := false, flen := 0, tag := f.tag
    fmt := f.fmt, rop := f.rop, mod := f.mod, trickId := 0
    addr := (h.part owner).base + BitVec.ofNat 64 (bitsNat e.base 0 21 * 2097152) + f.addr, operand64 := 0
    byteEn := if f.be then BitVec.ofNat 256 (leNat (f.payload.take 32)) else BitVec.allOnes 256 }

/-- The checks of R314 in order, then the local decode (R102, R164); 0 where all pass (DEDUCED, log 27). -/
def Hub.exportCheck (h : Hub) (f : Frame) (e : ExportCfg) (hd : Header) : Nat :=
  let owner := bitsNat e.ctrl 0 6
  let op := hd.opcode.toNat
  let src := f.srcHub.toNat
  let c := h.part owner
  if h.closed then 4
  else if !bit e.ctrl 31 ∨ bitsNat e.size 0 21 * 2097152 < f.addr.toNat + hd.len then 5
  else if src < bitsNat e.peers 0 10 ∨ bitsNat e.peers 16 10 < src ∨ (!bit e.ctrl 14 ∧ f.srcPart.toNat ≠ bitsNat e.ctrl 8 6) then 3
  else if !bit e.ctrl (16 + op) ∨ (op = 0 ∧ hd.hint = 3 ∧ !bit e.ctrl 17) then 3
  else if !c.enabled then 5
  else if !legal hd ∨ c.stale ∨ !c.inWindow hd.addr.toNat then 5
  else if op = 2 ∧ !bit (BitVec.ofNat 64 (h.rd64 pArith 0x44)) owner then 3
  else 0

/-- Sectors of a string of bytes. -/
def toSectors : Nat → List Byte → List Sector
  | 0, _ => []
  | n + 1, bs => BitVec.ofNat 512 (leNat (bs.take 64)) :: toSectors n (bs.drop 64)

/-- An accepted request frame is checked; one that passes counts in REMOTE_IN, with its offset in the export (R445, R450), and its
line operations go to their home slices; or every line has its answer. -/
def Hub.carryOut (h : Hub) (port : Nat) (f : Frame) : Hub :=
  let e := h.exp f.exp.toNat
  let hd := h.headerOf f e
  let body := if f.be then f.payload.drop 32 else f.payload
  let flits := toSectors hd.flitsDue body
  let code := if body.length ≠ 64 * hd.flitsDue then 5 else h.exportCheck f e hd
  let n := hd.lineCount
  let (id, h) := h.fresh
  let ctx := 4 * id + port
  let done (c : Nat) : List (Nat × BitVec 3) := (List.range n).map (fun i => (i, BitVec.ofNat 3 c))
  let put (h : Hub) (codes : List (Nat × BitVec 3)) : Hub :=
    { h with far := { h.far with arrivals := h.far.arrivals ++ [⟨ctx, BitVec.ofNat 2 port, f, h.now, n, codes, []⟩] } }
  if code ≠ 0 then put h (done code)
  else
    let h := h.countLine 0x13 1 (.remote ctx) { hd with addr := f.addr } 0 0
    if noBytes hd then put h (done 0)
    else
      let l := (hd.addr.toNat - (h.part hd.part.toNat).base.toNat) / 256
      let r : Req := ⟨id, .remote ctx, hd, flits, h.now, n, .local l, .passed, [], false, 0, 0⟩
      let h := put h []
      (h.setLines { h.lines with reqs := h.lines.reqs ++ [r] }).makeLines r (bitsNat e.ctrl 20 3)

def Hub.rxRequest (h : Hub) (port : Nat) (f : Frame) : Hub :=
  match h.rxData port f with
  | (some g, h) => h.carryOut port g
  | (none, h) => h

def execRxReadFrame (port : BitVec 2) (f : Frame) (s : State) : Host.Outcome State Fault Refusal :=
  onHubIf (wfFrame 1 f) s (fun h => h.withRoom (fun h => h.rxRequest port.toNat f))
def execRxWriteFrame (port : BitVec 2) (f : Frame) (s : State) : Host.Outcome State Fault Refusal :=
  onHubIf (wfFrame 2 f) s (fun h => h.withRoom (fun h => h.rxRequest port.toNat f))
def execRxReduceFrame (port : BitVec 2) (f : Frame) (s : State) : Host.Outcome State Fault Refusal :=
  onHubIf (wfFrame 3 f) s (fun h => h.withRoom (fun h => h.rxRequest port.toNat f))

/-- The RESPONSE frame of an arriving request whose lines are all answered (R307, R316). -/
def Arrival.response (a : Arrival) (src : Nat) : Frame :=
  let code (i : Nat) : Nat := ((a.codes.find? (fun c => c.1 == i)).map (·.2.toNat)).getD 0
  let data (i : Nat) : List Sector := ((a.data.find? (fun d => d.1 == i)).map (·.2)).getD []
  let f := a.frame
  { Frame.plain 4 src f.srcHub.toNat 0
      (if f.typ = 1 then ((List.range a.lines).filter (fun i => code i == 0)).flatMap (fun i => (data i).flatMap bytesOf) else []) with
    hint := f.hint, trump := f.trump, narrow := f.narrow, exp := f.exp, srcPart := f.srcPart, tag := f.tag
    addr := BitVec.ofNat 64 ((List.range a.lines).map (fun i => code i * 8 ^ i)).sum
    size := f.size, fmt := f.fmt, rop := f.rop, mod := f.mod }

def Hub.dropArrival (h : Hub) (ctx : Nat) : Hub :=
  { h with far := { h.far with arrivals := h.far.arrivals.filter (fun a => a.ctx ≠ ctx) } }

/-- The RESPONSE is handed to the far-port; an arriving request of a pair lost meanwhile has none (R320). -/
def Hub.responseSend (h : Hub) (ctx : Nat) : Hub :=
  match h.far.arrivals.find? (fun a => a.ctx == ctx) with
  | none => h
  | some a =>
    let peer := a.frame.srcHub.toNat
    if a.codes.length < a.lines then h
    else if (h.pair peer).st ≠ 2 then h.dropArrival ctx
    else if !h.mayTx peer then h
    else (h.dropArrival ctx).sendData peer (a.response h.hubId)

def execRemoteResponseSend (ctx : Nat) (s : State) : Host.Outcome State Fault Refusal := onHub s (fun h => h.withRoom (fun h => h.responseSend ctx))

/-- 5 µs after its request frame's arrival a line operation is answered NOT_READY under the rule of R69 (R316)
(DEDUCED, log 28). -/
def Hub.remoteDeadline (h : Hub) (id : Nat) : Hub :=
  match (h.lines.ready ++ h.lines.ordered.filter (fun o => o.kind == .read)).find? (fun o => o.id == id) with
  | some o =>
    (match o.src with
    | .remote _ =>
      let h := (h.reach (o.accepted + 500)).withdrawOp o
      ((h.bump pHub 0x140 0 16 1).answer o.req o.idx 4 0 []).settleOn
    | _ => h)
  | none => h

def execRemoteAnswerTimeout (op : Nat) (s : State) : Host.Outcome State Fault Refusal := onHub s (fun h => h.remoteDeadline op)

/-! RESPONSE frames (R317, R319) -/

/-- Each line of a request is answered from the RESPONSE frame. -/
def Hub.answerFrom (h : Hub) (r : Req) (f : Frame) : Hub :=
  let per := min 4 (r.hdr.len / 64)
  ((List.range r.lines).foldl (fun (a : Hub × List Byte) i =>
    let code := bitsNat f.addr (3 * i) 3
    if code = 0 ∧ r.hdr.opcode = 0 then
      (a.1.answer r.id i 0 0 (toSectors per a.2), a.2.drop (64 * per))
    else (a.1.answer r.id i code 0 [], a.2)) (h, f.payload)).1

def Hub.rxResponse (h : Hub) (port : Nat) (f : Frame) : Hub :=
  match h.rxData port f with
  | (none, h) => h
  | (some g, h) =>
    let peer := f.srcHub.toNat
    match h.lines.reqs.find? (fun r => r.peerIs peer && decide (r.ctx = g.tag.toNat) &&
        (decide (r.phase = .sent) || decide (r.phase = .failed))) with
    | none => h
    | some r =>
      let h := h.creditBack peer r.hdr.wrCredit
      if r.phase = .failed then (h.bump pFarport 0x84 0 32 1).dropReq r.id else h.answerFrom r g

def execRxResponseFrame (port : BitVec 2) (f : Frame) (s : State) : Host.Outcome State Fault Refusal :=
  onHubIf (wfFrame 4 f) s (fun h => h.withRoom (fun h => h.rxResponse port.toNat f))

/-! Control frames (R311, R312, R375) -/

/-- A HEARTBEAT is valid when both generations agree, with both keys installed (R375). -/
def Pair.heartbeatOk (q : Pair) (f : Frame) : Bool :=
  q.txKey.isSome && q.rxKey.isSome && decide (leNat (f.payload.take 4) = q.rxGen.toNat) &&
  decide (leNat ((f.payload.drop 4).take 4) = q.txGen.toNat)

def execRxHeartbeat (port : BitVec 2) (f : Frame) (s : State) : Host.Outcome State Fault Refusal :=
  onHubIf (wfFrame 8 f) s (fun h =>
    let (ok, h) := h.rxControl port.toNat f
    let peer := f.srcHub.toNat
    if !ok ∨ !(h.pair peer).heartbeatOk f then h
    else
      let h := h.heard peer
      if (h.pair peer).st = 1 then h.pairUp peer else h)

def execRxAck (port : BitVec 2) (f : Frame) (s : State) : Host.Outcome State Fault Refusal :=
  onHubIf (wfFrame 9 f) s (fun h =>
    let (ok, h) := h.rxControl port.toNat f
    let peer := f.srcHub.toNat
    if !ok then h
    else
      let h := h.heard peer
      let q := h.pair peer
      let left := q.held.filter (fun g => decide (f.counter.toNat < g.counter.toNat))
      if q.txNext.toNat ≤ f.counter.toNat ∨ left.length = q.held.length then h
      else h.putPair peer { q with held := left, ackAt := h.now })

def execRxNak (port : BitVec 2) (f : Frame) (s : State) : Host.Outcome State Fault Refusal :=
  onHubIf (wfFrame 10 f) s (fun h =>
    let (ok, h) := h.rxControl port.toNat f
    let peer := f.srcHub.toNat
    if !ok then h
    else
      let h := h.heard peer
      h.resend peer ((h.pair peer).held.filter (fun g => decide (f.counter.toNat ≤ g.counter.toNat))))

/-- The last 2 µs brought no ACK progress (R312) (DESIGN CHOICE, log 3). -/
def execRetryTimeout (peer : BitVec 10) (s : State) : Host.Outcome State Fault Refusal :=
  onHub s (fun h =>
    let q := h.pair peer.toNat
    if h.inReset ∨ q.held = [] then h
    else
      let h := h.reach (q.ackAt + 200)
      (h.putPair peer.toNat { q with ackAt := h.now }).resend peer.toNat q.held)

/-- 1 µs after the oldest unacknowledged frame (R312). -/
def execAckDue (peer : BitVec 10) (s : State) : Host.Outcome State Fault Refusal :=
  onHub s (fun h =>
    let q := h.pair peer.toNat
    if h.inReset ∨ q.unacked = 0 then h else (h.reach (q.unackedAt + 100)).sendAck peer.toNat)

/-- PERIOD µs in which the pair was sent no other frame (R311) (DESIGN CHOICE, log 3). -/
def execHeartbeatDue (peer : BitVec 10) (s : State) : Host.Outcome State Fault Refusal :=
  onHub s (fun h =>
    let q := h.pair peer.toNat
    if h.inReset ∨ q.st = 0 then h
    else (h.reach (q.lastTx + 100 * h.fld pFarport 0x74 0 8)).sendControl peer.toNat 8 0 (le32 q.txGen.toNat ++ le32 q.rxGen.toNat))

/-- TIMEOUT µs without a valid frame (R311). -/
def execHeartbeatTimeout (peer : BitVec 10) (s : State) : Host.Outcome State Fault Refusal :=
  onHub s (fun h =>
    let q := h.pair peer.toNat
    if h.inReset ∨ q.st ≠ 2 then h else (h.reach (q.lastRx + 100 * h.fld pFarport 0x74 8 8)).pairDown peer.toNat 1)

/-! Key exchange (R373 to R376) -/

/-- A KEYX frame that passes its CRC and its tag (DEDUCED, log 27). -/
def Hub.rxKeyx (h : Hub) (port : Nat) (f : Frame) : Option (Word × BitVec 64 × BitVec 256) × Hub :=
  let (ok, h) := h.rxControl port f
  if !ok then (none, h)
  else match (h.pair f.srcHub.toNat).master with
    | none => (none, h.badFrames 1)
    | some m =>
      match keyxOpen m f with
      | none => (none, h.badFrames 1)
      | some x => (some x, h.heard f.srcHub.toNat)

/-- The ACCEPT of an OFFER (R374 step 2). -/
def Hub.sendAccept (h : Hub) (peer : Nat) (gen : Word) (start : BitVec 64) (q : BitVec 256) : Hub :=
  match (h.pair peer).master with
  | none => h
  | some m =>
    let (w, h) := h.draw false
    h.emit peer (keyxFrame m h.hubId peer 1 gen start q w)

/-- An OFFER installs the receive key it makes; one from START 0 on a pair in service restarts the pair first (R375)
(DEDUCED, log 28). -/
def Hub.takeOffer (h : Hub) (peer : Nat) (gen : Word) (start : BitVec 64) (o : BitVec 256) : Hub :=
  let known := match (h.pair peer).lastQ with
    | some (g, q, _) => if g = gen then some q else none
    | none => none
  match known with
  | some q => h.sendAccept peer gen start q
  | none =>
    let h := if (h.pair peer).st = 2 ∧ start = 0 then h.pairDown peer 6 else h
    let (q, h) := h.draw true
    let p := h.pair peer
    let key := o ^^^ q
    let p := { p with rxGen := gen, lastQ := some (gen, q, o) }
    (h.putPair peer (if start = 0 then { p with rxKey := some key } else { p with rxPend := some (key, start) })).sendAccept
      peer gen start q

def execRxKeyxOffer (port : BitVec 2) (f : Frame) (s : State) : Host.Outcome State Fault Refusal :=
  onHubIf (wfFrame 11 f && !(f.payload.head? == some 1)) s (fun h =>
    match h.rxKeyx port.toNat f with
    | (none, h) => h
    | (some (gen, start, o), h) =>
      if f.payload.head? = some 0 then h.takeOffer f.srcHub.toNat gen start o else h.badFrames 1)

/-- An ACCEPT of the OFFER under way installs the transmit key from START on (R374 step 3, R376) (DEDUCED, log 28). -/
def Hub.takeAccept (h : Hub) (peer : Nat) (gen : Word) (start : BitVec 64) (q : BitVec 256) : Hub :=
  let p := h.pair peer
  match p.offer with
  | none => h
  | some o =>
    if o.gen ≠ gen ∨ o.start ≠ start then h
    else
      let key := o.key ^^^ q
      let p := { p with offer := none, txGen := gen }
      if o.rekey then (h.putPair peer { p with txPend := some (key, start) }).turnTx peer
      else h.putPair peer { p with txKey := some key, txFrames := 0 }

def execRxKeyxAccept (port : BitVec 2) (f : Frame) (s : State) : Host.Outcome State Fault Refusal :=
  onHubIf (wfFrame 11 f && (f.payload.head? == some 1)) s (fun h =>
    match h.rxKeyx port.toNat f with
    | (none, h) => h
    | (some (gen, start, q), h) => h.withRoom (fun h => h.takeAccept f.srcHub.toNat gen start q))

/-- An OFFER without ACCEPT is repeated; one that could not be drawn is made now, of a pair in DOWN or of a rekey that is due
(R367, R374, R376). -/
def execKeyxRepeat (peer : BitVec 10) (s : State) : Host.Outcome State Fault Refusal :=
  onHub s (fun h =>
    let q := h.pair peer.toNat
    if h.inReset ∨ h.drbgError then h
    else match q.offer with
      | some o => (h.reach (o.last + 1000)).sendOffer peer.toNat
      | none =>
        if q.st = 1 ∧ q.txKey.isNone then h.newOffer peer.toNat 0 false
        else if h.rekeyDue peer.toNat then h.startRekey peer.toNat
        else h)

/-- A rekey without ACCEPT 100 µs after its OFFER (R376 step 4). -/
def execRekeyTimeout (peer : BitVec 10) (s : State) : Host.Outcome State Fault Refusal :=
  onHub s (fun h =>
    match (h.pair peer.toNat).offer with
    | some o => if h.inReset ∨ !o.rekey then h else ((h.reach (o.first + 10000)).raise pSec 1).pairDown peer.toNat 4
    | none => h)

/-! Flits and frames that belong nowhere (R305, R308) -/

def execStrayFlit (port : BitVec 2) (sof eof : Bool) (s : State) : Host.Outcome State Fault Refusal :=
  onHub s (fun h =>
    let p := h.farPort port.toNat
    if h.inReset ∨ p.st ≠ 2 then h
    else if sof == p.inFrame then (h.putFarPort port.toNat { p with inFrame := false }).badFrames 1
    else h.putFarPort port.toNat { p with inFrame := !eof })

def execOtherTypeFrame (port : BitVec 2) (f : Frame) (s : State) : Host.Outcome State Fault Refusal :=
  onHubIf (!frameTypes.contains f.typ) s (fun h =>
    let p := h.farPort port.toNat
    if h.inReset ∨ p.st ≠ 2 then h
    else if p.inFrame then (h.putFarPort port.toNat { p with inFrame := false }).badFrames f.flits
    else h.badFrames 1)

/-! Operations of the FARPORT page (R324) -/

/-- Peers listed by an export's range. -/
def ExportCfg.lists (e : ExportCfg) (peer : Nat) : Bool :=
  bit e.ctrl 31 && decide (bitsNat e.peers 0 10 ≤ peer ∧ peer ≤ bitsNat e.peers 16 10)

/-- Distinct peers listed by valid exports. -/
def listed (es : List ExportCfg) : Nat := ((List.range 1024).filter (fun p => es.any (fun e => e.lists p))).length

/-- Peers that hold this hub's grant: UP, and listed by a valid export (R315). -/
def Hub.granted (h : Hub) : Nat :=
  (h.far.pairs.filter (fun e : Nat × Pair => e.2.st == 2 && h.far.exps.any (fun x : Nat × ExportCfg => x.2.lists e.1))).length

def Hub.stagedExport (h : Hub) : ExportCfg := ⟨h.rd pFarport 0x5C, h.rd pFarport 0x60, h.rd pFarport 0x64, h.rd pFarport 0x68⟩

/-- The checks of EXP_APPLY, in order (DEDUCED, log 38). -/
def Hub.expCheck (h : Hub) (n : Nat) (e : ExportCfg) : Nat :=
  let c := h.part (bitsNat e.ctrl 0 6)
  let size := bitsNat e.size 0 21
  let es := e :: (h.far.exps.filter (fun x : Nat × ExportCfg => x.1 ≠ n)).map (·.2)
  if !c.enabled then 1
  else if size = 0 ∨ c.units < bitsNat e.base 0 21 + size then 2
  else if bitsNat e.peers 16 10 < bitsNat e.peers 0 10 then 3
  else if 4096 < listed es * h.fld pFarport 0x6C 0 8 ∨ 1024 < listed es * h.fld pFarport 0x6C 8 8 then 4
  else 0

def Hub.putExp (h : Hub) (n : Nat) (e : ExportCfg) : Hub :=
  h.setFar { h.far with exps := SMap.set (fun _ => ExportCfg.off) h.far.exps n e }

def execExpApply (init : Initiator) (s : State) : Host.Outcome State Fault Refusal :=
  onHub s (fun h => h.go init pFarport 1 (fun h => h.fld pFarport 0x58 0 8) (fun h =>
    let n := h.fld pFarport 0x58 0 8
    let e := h.stagedExport
    let code := h.expCheck n e
    let h := h.putLongOp pFarport (some ⟨1, code, n, false⟩)
    if code = 0 then h.putExp n e else h))

/-- OE_LINK_UP of a far-port is seen high (R305). -/
def Hub.linkSeen (h : Hub) (i : Nat) (up : Bool) : Hub :=
  if h.inReset ∨ !up then h else h.putFarPort i { h.farPort i with linkUp := true }

/-- PORT_RETRAIN, with the level of OE_LINK_UP of its far-port as sampled (R305, R324). -/
def execPortRetrain (cmd : Retrain) (s : State) : Host.Outcome State Fault Refusal :=
  onHub s (fun h => (h.linkSeen (h.fld pFarport 0x44 0 2) cmd.linkUp).go cmd.init pFarport 2 (fun h => h.fld pFarport 0x44 0 2) (fun h =>
    let i := h.fld pFarport 0x44 0 2
    let f := h.farPort i
    if !f.enable ∨ !f.linkUp then h.putLongOp pFarport (some ⟨2, 5, i, false⟩)
    else (h.opWaits pFarport 0).trainFar i))

def execPeerReset (init : Initiator) (s : State) : Host.Outcome State Fault Refusal :=
  onHub s (fun h => h.go init pFarport 3 (fun h => h.fld pFarport 0x50 0 10) (fun h =>
    let p := h.fld pFarport 0x50 0 10
    if (h.pair p).st = 0 then h.putLongOp pFarport (some ⟨3, 1, p, false⟩) else h.pairDown p 2))

/-- An operation of the FARPORT page ends; a removed export waits for the answers of requests already checked (R320). -/
def Hub.farOpEnd (h : Hub) (o : LongOp) : Hub :=
  let waits : Bool := decide (o.opcode = 1 ∧ o.code = 0) && !bit (h.exp o.index).ctrl 31 &&
    h.far.arrivals.any (fun a => decide (a.frame.exp.toNat = o.index) && decide (a.codes.length < a.lines))
  if waits then h else h.endOp pFarport o.code

end Sys2Proof.Machine
end

