-- ==== Sys2Proof/Machine/Mgmt.lean ====
section
/-!
DEFINITION. Management and security: images and the ROM (R378 to R380, R494), measurements (R386), the management network
(R382, R383, R385, R387, R412, R415), the CTR_DRBG's error state (R367), wipes (R392), and the operations of the SEC page (R396).
-/
namespace Sys2Proof.Machine

/-! The boot record (R378) -/

def bootArea (x : Nat) : Nat := 0x3000000 + 0x8000 * x

/-- SEQ, ACTIVE and PENDING of a valid boot-record copy. -/
def Hub.bootCopy (h : Hub) (x : Nat) : Option (Nat × Nat × Nat) :=
  let a := bootArea x
  if h.flashWord a = 0x4B425352 ∧ h.flashWord (a + 16) = (crc32c (h.flashBytes a 16)).toNat then
    some (h.flashWord (a + 4), h.flashWord (a + 8) % 2, h.flashWord (a + 12) % 2)
  else none

/-- ACTIVE and PENDING in force (R380 step 1). -/
def Hub.bootRecord (h : Hub) : Nat × Nat :=
  let a := h.bootCopy 0
  let b := h.bootCopy 1
  match newerArea (a.map (·.1)) (b.map (·.1)) with
  | some 0 => (a.map (·.2)).getD (0, 0)
  | some _ => (b.map (·.2)).getD (0, 0)
  | none => (0, 0)

/-- A new boot-record copy is written. -/
def Hub.writeBootRecord (h : Hub) (active pend : Nat) : Hub :=
  let (x, seq) := nextArea ((h.bootCopy 0).map (·.1)) ((h.bootCopy 1).map (·.1))
  let bs := le32 0x4B425352 ++ le32 seq ++ le32 active ++ le32 pend
  (h.eraseFlash (bootArea x) 32768).putFlash (bootArea x) (bs ++ le32 (crc32c bs).toNat)

/-! Images (R379, R380) -/

def slotBase (slot : Nat) : Nat := 0x1000000 * slot

def digest (bs : List Byte) : BitVec 384 := BitVec.ofNat 384 (leNat bs)

/-- The header part that measurements 2 and 6 hold (R386). -/
def Hub.imageHeader (h : Hub) (slot : Nat) : List Byte := h.flashBytes (slotBase slot) 0x1D0

def Hub.imageSvn (h : Hub) (slot : Nat) : Nat := h.flashWord (slotBase slot + 8)

/-- The bytes of a slot's body (R379). -/
def Hub.imageBody (h : Hub) (slot : Nat) : List Byte := h.flashBytes (slotBase slot + 0x1000) (h.flashWord (slotBase slot + 16))

/-- Requester trust anchors of the running image: ANCHORS and the first so many ANCHOR_DIGESTs (R379). -/
def Hub.anchors (h : Hub) : List (BitVec 384) :=
  let hd := h.sec.runHeader
  (List.range (min 4 (leNat ((hd.drop 0x1C).take 4)))).map (fun i => digest ((hd.drop (0x50 + 48 * i)).take 48))

/-- Where the firmware data begins in the management core's SRAM (R379). -/
def fwData : Nat := 0x38000

/-- The SRAM with a body loaded at 0; the firmware data stays (R379). -/
def loadBody (sram : SMap Byte) (body : List Byte) : SMap Byte :=
  ((body.zipIdx.filter (fun e => e.1 ≠ 0)).map (fun e => (e.2, e.1))) ++ sram.filter (fun e : Nat × Byte => fwData ≤ e.1)

/-- The checks of a slot, in order (R380 step 3) (DESIGN CHOICE, log 11). -/
def Hub.imageOk (h : Hub) (f : Fuses) (slot : Nat) : Bool :=
  let a := slotBase slot
  if h.flashWord a ≠ 0x4638484B ∨ h.flashWord (a + 4) ≠ 1 then false
  else
    let key := h.flashWord (a + 12)
    let pub := h.flashBytes (a + 0x110) 96
    if f.keys.getD key none ≠ some (sha384 pub) ∨ bit f.revoked key then false
    else if !ecdsaOk pub (sha384 (h.flashBytes a 0x170)) (h.flashBytes (a + 0x170) 96) then false
    else
      let size := h.flashWord (a + 16)
      if size < 4 ∨ 229376 < size ∨ size % 4 ≠ 0 ∨ size ≤ h.flashWord (a + 20) then false
      else if h.flashWord (a + 8) < f.svn then false
      else decide (sha384 (h.imageBody slot) = digest (h.flashBytes (a + 0x20) 48))

/-- The slot the ROM starts, and whether the first one tried failed (R380) (DESIGN CHOICE, log 11). -/
def Hub.romPick (h : Hub) (f : Fuses) : Option (Nat × Bool) :=
  let (active, pend) := h.bootRecord
  let first := if pend = 1 then 1 - active else active
  if h.imageOk f first then some (first, false)
  else if h.imageOk f (1 - first) then some (1 - first, true)
  else none

/-- SEC.STATE as S1 loads it (R395, R397). -/
def Hub.loadSecState (h : Hub) (f : Fuses) (slot svn : Nat) (actFail : Bool) : Hub :=
  let v := slot + (if actFail then 4 else 0) + (if f.provLock then 8 else 0) + (if f.testOpen then 16 else 0) +
    svn % 128 * 2 ^ 8 + f.svn % 128 * 2 ^ 16 + f.revoked.toNat * 2 ^ 24
  h.wr pSec 0x48 (BitVec.ofNat 32 v)

/-- A slot's image runs: its body is in the SRAM (R379, R380 step 4). -/
def Hub.startImage (h : Hub) (f : Fuses) (slot : Nat) (actFail : Bool) : Hub :=
  (h.setSec { h.sec with
    runHeader := h.imageHeader slot, staged := [], update := 0, sram := loadBody h.sec.sram (h.imageBody slot) }).loadSecState
    f slot (h.imageSvn slot) actFail

/-! Measurements (R386) -/

/-- The keyed pairs as a map of 1,024 bits, in 32 words. -/
def Hub.keyedPairs (h : Hub) : List Byte :=
  (List.range 128).map (fun b => BitVec.ofNat 8
    ((List.range 8).map (fun i => if (h.pair (8 * b + i)).master.isSome then 2 ^ i else 0)).sum)

/-- Bit n: slot n ACTIVE (R366). -/
def Hub.keyState (h : Hub) : Nat := ((List.range 64).map (fun p => if (h.keySlot p).isSome then 2 ^ p else 0)).sum

/-- Measurement i (R386). -/
def Hub.measurement (h : Hub) (f : Fuses) (i : Nat) : BitVec 384 :=
  match i with
  | 1 => Config.romDigest
  | 2 => sha384 h.sec.runHeader
  | 3 => sha384 (le32 f.svn ++ le32 f.revoked.toNat ++ le32 f.provLock.toNat ++ le32 f.testOpen.toNat)
  | 4 => sha384 (le32 (h.rd pHub 0x44).toNat ++ le32 (h.fld pHub 0x08 31 1) ++ le32 h.pins.bootSeq.toNat ++
      le32 h.pins.fastOk.toNat)
  | 5 => sha384 (le32 (h.rd pSec 0x44).toNat ++ le64 h.keyState ++ h.keyedPairs)
  | 6 => if h.sec.staged = [] then 0 else sha384 h.sec.staged
  | _ => 0

/-! The management network (R97, R382, R385, R387, R412, R415) -/

/-- Nothing on the management network is answered: under reset, or in legacy order before the end of S2 (R415)
(DEDUCED, log 48). -/
def Hub.mgmtDeaf (h : Hub) : Bool := h.inReset || (h.pins.bootSeq && decide (h.boot.ended < 3))

def Hub.reply (h : Hub) (r : MgmtReply) : Hub := h.setSec { h.sec with mgmtOut := h.sec.mgmtOut ++ [r] }

/-- An answer whose bytes the spec does not give (DESIGN CHOICE, log 7). -/
def Hub.replyContent (h : Hub) : Hub :=
  let n := h.sec.answers
  (h.setSec { h.sec with answers := n + 1 }).reply (.content (Config.mgmtAnswer n))

/-- An update is given up: measurement 6 is cleared and the staged slot stays invalid (R382) (DEDUCED, log 48). -/
def Hub.dropUpdate (h : Hub) : Hub :=
  let slot := 1 - h.fld pSec 0x48 0 1
  let h := if h.sec.update = 0 then h else h.eraseFlash (slotBase slot) 4096
  (h.setSec { h.sec with update := 0, staged := [] }).wrFld pSec 0x48 1 1 0

/-- What the responder answers from the end of S1 on, by the request (R385, R386). A session opens for a requester whose chain ends
at an anchor of the running image, and at most two at once; outside sessions no other request is served. -/
def Hub.spdmAnswer (h : Hub) (f : Fuses) : SpdmCode → Hub
  | .getVersion => h.reply (.versions [(1, 3)])
  | .getCapabilities => h.reply (.capabilities [.cert, .chal, .measSig, .keyEx, .mutAuth, .encrypt, .mac, .hbeat, .keyUpd])
  | .negotiateAlgorithms => h.reply (.algorithms .ecdsaP384 .ecdsaP384 .sha384 .sha384 .secp384r1 .aes256Gcm)
  | .getCertificate => h.reply (.certificate (h.flashBytes 0x3010000 0x100000))
  | .getMeasurements => h.reply (.measurements ((List.range 6).map (fun i => h.measurement f (i + 1))))
  | .getDigests | .challenge => h.replyContent
  | .openSession root =>
    if root.any h.anchors.contains ∧ h.sec.sessions < 2 then
      (h.setSec { h.sec with sessions := h.sec.sessions + 1 }).reply .sessionOpen
    else h.reply .spdmError
  | .endSession ofUpdate =>
    if h.sec.sessions = 0 then h.reply .spdmError
    else
      let g := h.setSec { h.sec with sessions := h.sec.sessions - 1 }
      (if ofUpdate ∨ h.sec.sessions = 1 then g.dropUpdate else g).replyContent
  | .other => if h.sec.sessions = 0 then h.reply .spdmError else h.replyContent

/-- An SPDM request meets the state of the hub first (R387). -/
def Hub.spdm (h : Hub) (f : Fuses) (code : SpdmCode) : Hub :=
  if h.mgmtDeaf then h
  else if code = .getVersion then h.spdmAnswer f code
  else if h.boot.ended < 2 then
    h.reply (if h.fld pBoot 0x40 8 1 = 1 then .unspecified else .responseNotReady 14 13)
  else if h.sec.coreReset then h.reply (.responseNotReady 14 13)
  else h.spdmAnswer f code

/-- An SPDM request on the management network (R385, R387). -/
def execSpdmRequest (code : SpdmCode) (s : State) : Host.Outcome State Fault Refusal := onHub s (fun h => h.spdm s.fuses code)

/-- A management message waits while the core resets alone (R383). -/
def Hub.holdMsg (h : Hub) (discovery : Bool) : Hub := h.setSec { h.sec with held := h.sec.held ++ [discovery] }

/-- The messages that waited are answered: the sessions are closed, so a type 5 request meets ERROR (R382, R383). -/
def Hub.answerHeld (h : Hub) : Hub :=
  h.sec.held.foldl (fun h d => if d then h.replyContent else h.reply .pldmError) (h.setSec { h.sec with held := [] })

/-- A PLDM firmware-update message: what it meets before it is acted on (R382, R383, R412) (DEDUCED, log 48). -/
def Hub.pldm (h : Hub) (inSession : Bool) (f : Hub → Hub) : Hub :=
  if h.mgmtDeaf then h
  else if h.boot.ended < 2 then h.reply .pldmNotReady
  else if h.sec.coreReset then h.holdMsg false
  else if !inSession ∨ h.sec.sessions = 0 then h.reply .pldmError
  else f h

/-- RequestUpdate, PassComponentTable and UpdateComponent (R382 step 1). -/
def execPldmRequestUpdate (inSession : Bool) (s : State) : Host.Outcome State Fault Refusal :=
  onHub s (fun h => h.pldm inSession (fun h =>
    let h := h.dropUpdate
    (h.setSec { h.sec with update := 1 }).replyContent))

/-- Image data go to the slot not running, which is invalid from the first of them; after the last the image is checked
(R382 steps 2 to 4) (DEDUCED, log 48). -/
def Hub.stageData (h : Hub) (f : Fuses) (offset : Nat) (data : List Byte) (last : Bool) : Hub :=
  let slot := 1 - h.fld pSec 0x48 0 1
  if h.sec.update ≠ 1 ∧ h.sec.update ≠ 2 then h.reply .pldmError
  else
    let h := if h.sec.update = 1 then h.eraseFlash (slotBase slot) 0x1000000 else h
    let h := (h.setSec { h.sec with update := 2 }).putFlash (slotBase slot + offset) (data.take (0x1000000 - offset))
    if !last then h.replyContent
    else if h.imageOk f slot then
      ((h.setSec { h.sec with update := 3, staged := h.imageHeader slot }).wrFld pSec 0x48 1 1 1).replyContent
    else h.dropUpdate.replyContent

def execPldmFirmwareData (inSession : Bool) (offset : BitVec 24) (data : List Byte) (last : Bool) (s : State) :
    Host.Outcome State Fault Refusal :=
  onHub s (fun h => h.pldm inSession (fun h => h.stageData s.fuses offset.toNat data last))

/-- A boot record with PENDING = 1, then the management core alone resets (R382 step 5, R383) (DEDUCED, log 48). -/
def execPldmActivateFirmware (inSession : Bool) (s : State) : Host.Outcome State Fault Refusal :=
  onHub s (fun h => h.pldm inSession (fun h =>
    if h.sec.update ≠ 3 then h.reply .pldmError
    else
      let h := (h.writeBootRecord h.bootRecord.1 1).replyContent
      h.setSec { h.sec with coreReset := true, sessions := 0 }))

def execPldmCancelUpdate (inSession : Bool) (s : State) : Host.Outcome State Fault Refusal :=
  onHub s (fun h => h.pldm inSession (fun h => h.dropUpdate.replyContent))

/-- PLDM type 0, answered also outside sessions (R382). -/
def execPldmDiscovery (_payload : List Byte) (s : State) : Host.Outcome State Fault Refusal :=
  onHub s (fun h =>
    if h.mgmtDeaf then h
    else if h.boot.ended < 2 then h.reply .pldmNotReady
    else if h.sec.coreReset then h.holdMsg true
    else h.replyContent)

def execMctpControlMessage (_payload : List Byte) (s : State) : Host.Outcome State Fault Refusal :=
  onHub s (fun h => if h.mgmtDeaf then h else h.replyContent)

/-- ENTDAA gives the target its dynamic address, a second one another; management messages are answered whatever address it holds
(R97) (DESIGN CHOICE, log 60). -/
def execEntdaa (address : BitVec 7) (s : State) : Host.Outcome State Fault Refusal :=
  onHub s (fun h => if h.mgmtDeaf then h else h.setSec { h.sec with i3cAddr := some address })

/-- The management core has reset for an activation: the ROM runs R380, and the firmware started records the outcome (R382 step
6, R383) (DEDUCED, log 48). -/
def Hub.coreRestart (h : Hub) (f : Fuses) : Hub :=
  if !h.sec.coreReset ∨ h.inReset then h
  else
    let old := h.fld pSec 0x48 0 1
    match h.romPick f with
    | none => h
    | some (slot, _) =>
      let fell : Bool := decide (slot = old)
      let h := ((h.setSec { h.sec with coreReset := false, sessions := 0 }).startImage f slot fell).writeBootRecord slot 0
      let h := if fell then h.raise pSec 4 else h
      (h.submit 0x13 true [BitVec.ofNat 8 slot, BitVec.ofNat 8 (h.fld pSec 0x48 8 7), if fell then 1 else 0]).answerHeld

/-- The management core's watchdog expires (R94). -/
def execWatchdogExpiry (s : State) : Host.Outcome State Fault Refusal :=
  onHub s (fun h => if h.inReset then h else h.assertFatal)

/-! The CTR_DRBG's error state (R367) -/

def execDrbgHealthFail (s : State) : Host.Outcome State Fault Refusal :=
  onHub s (fun h =>
    if h.inReset ∨ h.drbgError ∨ h.journalFull then h
    else
      let h := (h.wrFld pSec 0x54 0 1 1).raise pSec 2
      (h.setSec { h.sec with errorAt := h.now }).submit 0x14 true [Config.failingTest h.now])

/-- The health tests repeat, 1 s after the last ones. -/
def execDrbgHealthRetest (pass : Bool) (s : State) : Host.Outcome State Fault Refusal :=
  onHub s (fun h =>
    if h.inReset ∨ !h.drbgError then h
    else
      let h := h.reach (h.sec.errorAt + 100000000)
      if pass then h.wrFld pSec 0x54 0 1 0 else h.setSec { h.sec with errorAt := h.now })

/-! Wipes (R392) -/

/-- W is drawn when its wipe starts (DEDUCED, log 46). -/
def Hub.startWipe (h : Hub) : Hub :=
  match h.sec.wipes with
  | [] => h
  | w :: rest =>
    let (a, h) := h.draw false
    let (b, h) := h.draw false
    h.setSec { h.sec with wipes := { w with k1 := a, k2 := b } :: rest }

/-- A wipe is queued; it starts when none runs (DEDUCED, log 46). -/
def Hub.queueWipe (h : Hub) (p : Nat) (slabs : List (BitVec 11)) : Hub :=
  let idle := h.sec.wipes = []
  let h := h.setSec { h.sec with wipes := h.sec.wipes ++ [⟨BitVec.ofNat 6 p, slabs, 0, 0, 0, 0⟩] }
  if idle then h.startWipe else h

/-- The next offset of the running wipe: zeros under W, or zero metadata (DEDUCED, log 46). -/
def Hub.wipeNext (h : Hub) : Hub :=
  match h.sec.wipes with
  | [] => h
  | w :: rest =>
    match w.slabs[w.at_]? with
    | none => h
    | some k =>
      let ps := (h.lslab k.toNat).phys.toNat
      if h.inReset ∨ (h.stack (slabStack ps)).selfRefresh ∨ h.therm.trip ≠ 0 then h
      else
        let word (i : Nat) : Code :=
          if w.off < h.bigD then rsEncode (xts ⟨w.k1, w.k2, 0⟩ false (xtsTweak k.toNat w.off i) 0) else rsEncode 0
        let h := (h.targets k.toNat).foldl (fun h t => (List.range 4).foldl (fun h i => h.pushWrite t w.off i (word i) none) h) h
        let w' := if w.off + 1 < slabLines h.amap.dens then { w with off := w.off + 1 } else { w with off := 0, at_ := w.at_ + 1 }
        h.setSec { h.sec with wipes := w' :: rest }

def execWipeWrite (s : State) : Host.Outcome State Fault Refusal := onHub s (fun h => h.wipeNext)

/-- Every offset written: W is discarded, and the next wipe starts (DEDUCED, log 46). -/
def execWipeEnd (s : State) : Host.Outcome State Fault Refusal :=
  onHub s (fun h =>
    match h.sec.wipes with
    | [] => h
    | w :: rest =>
      if h.inReset ∨ w.at_ < w.slabs.length ∨ h.journalFull then h
      else
        let h := ((h.setSec { h.sec with wipes := rest }).raise pSec 3).submit 0x16 true [w.part.setWidth 8]
        h.startWipe)

/-! Operations of the SEC page (R396) -/

/-- While the management core resets alone, an operation of the page waits before it begins (R383) (DEDUCED, log 37). -/
def Hub.secGo (h : Hub) (f : Hub → Hub) : Hub := if h.sec.coreReset then h.opWaits pSec notBegun else f h

def secPeer (h : Hub) : Nat := h.fld pSec 0x58 0 10

/-- KEY_BUF as one key, byte 0 first. -/
def Hub.keyBuf (h : Hub) : BitVec 256 :=
  BitVec.ofNat 256 ((List.range 8).map (fun i => (h.rd pSec (0xC0 + 4 * i)).toNat * 2 ^ (32 * i))).sum

def Hub.pairKeyEntry (h : Hub) (peer what : Nat) : Hub :=
  h.submit 0x12 true (le16 peer ++ [BitVec.ofNat 8 what] ++ le32 (h.pair peer).txGen.toNat)

/-- PAIR_INSTALL (R377); it waits while the journal's queue is full (R461). -/
def Hub.pairInstall (h : Hub) : Hub :=
  let p := secPeer h
  let code := if p = h.hubId then 1 else if h.keyBuf = 0 then 2 else 0
  let h := h.putLongOp pSec (some ⟨1, code, p, decide (code = 0) && h.journalFull⟩)
  if code ≠ 0 ∨ h.journalFull then h
  else
    let key := h.keyBuf
    let h := (List.range 8).foldl (fun h i => h.wr pSec (0xC0 + 4 * i) 0) h
    let q := h.pair p
    let h := h.putPair p { q with master := some key, st := if q.st = 0 then 1 else q.st }
    (h.pairDown p 5).pairKeyEntry p 0

def execPairInstall (init : Initiator) (s : State) : Host.Outcome State Fault Refusal :=
  onHub s (fun h => h.go init pSec 1 secPeer (fun h => h.secGo Hub.pairInstall))

/-- PAIR_REMOVE (R377); it waits while the journal's queue is full (R461). -/
def Hub.pairRemove (h : Hub) : Hub :=
  let p := secPeer h
  let code := if (h.pair p).st = 0 then 1 else 0
  let h := h.putLongOp pSec (some ⟨2, code, p, decide (code = 0) && h.journalFull⟩)
  if code ≠ 0 ∨ h.journalFull then h else ((h.pairKeyEntry p 1).failPeer p).putPair p Pair.empty

def execPairRemove (init : Initiator) (s : State) : Host.Outcome State Fault Refusal :=
  onHub s (fun h => h.go init pSec 2 secPeer (fun h => h.secGo Hub.pairRemove))

/-- A PAIR_INSTALL or PAIR_REMOVE that waited for the journal is carried out (R461). -/
def Hub.pairOpGoes (h : Hub) : Hub :=
  match h.opOf pSec with
  | some o =>
    if !o.waits ∨ o.code = notBegun ∨ h.journalFull then h else if o.opcode = 1 then h.pairInstall else if o.opcode = 2 then h.pairRemove else h
  | none => h

/-- PAIR_REKEY: it ends when the new key is in use, or the pair goes DOWN (R376, R396). -/
def Hub.pairRekey (h : Hub) : Hub :=
  let p := secPeer h
  let q := h.pair p
  let code := if q.st ≠ 2 ∨ q.rekeying then 1 else if h.drbgError then 5 else 0
  if code ≠ 0 then h.putLongOp pSec (some ⟨3, code, p, false⟩) else (h.opWaits pSec 0).startRekey p

def execPairRekey (init : Initiator) (s : State) : Host.Outcome State Fault Refusal :=
  onHub s (fun h => h.go init pSec 3 secPeer (fun h => h.secGo Hub.pairRekey))

/-- FUSE_SVN: its journal entry first (R381). -/
def Hub.fuseSvnGo (h : Hub) (f : Fuses) : Hub :=
  let svn := min 64 (h.fld pSec 0x48 8 7)
  if svn ≤ f.svn then h.putLongOp pSec (some ⟨4, 3, 0, false⟩)
  else (h.opWaits pSec 0).submit 0x0A true [4, BitVec.ofNat 8 svn]

def execFuseSvn (init : Initiator) (s : State) : Host.Outcome State Fault Refusal :=
  onHub s (fun h => h.go init pSec 4 (fun _ => 0) (fun h => h.secGo (fun h => h.fuseSvnGo s.fuses)))

/-- KEY_INDEX of the running image (R379). -/
def Hub.runKey (h : Hub) : Nat := leNat ((h.sec.runHeader.drop 12).take 4)

def Hub.signKey (h : Hub) : Nat := h.fld pSec 0x7C 0 2

/-- FUSE_REVOKE: its journal entry first (R381). -/
def Hub.fuseRevokeGo (h : Hub) (f : Fuses) : Hub :=
  let k := h.signKey
  if k = h.runKey ∨ bit f.revoked k then h.putLongOp pSec (some ⟨5, 1, k, false⟩)
  else (h.opWaits pSec 0).submit 0x0A true [5, BitVec.ofNat 8 k]

def execFuseRevoke (init : Initiator) (s : State) : Host.Outcome State Fault Refusal :=
  onHub s (fun h => h.go init pSec 5 (fun h => h.signKey) (fun h => h.secGo (fun h => h.fuseRevokeGo s.fuses)))

/-- An operation of the page that waited for the core's restart begins (R383). -/
def Hub.secResume (h : Hub) (f : Fuses) : Hub :=
  match h.opOf pSec with
  | none => h
  | some o =>
    if o.code ≠ notBegun ∨ h.sec.coreReset then h
    else
      let h := h.putLongOp pSec (some { o with code := 0, waits := false })
      match o.opcode with
      | 1 => h.pairInstall
      | 2 => h.pairRemove
      | 3 => h.pairRekey
      | 4 => h.fuseSvnGo f
      | _ => h.fuseRevokeGo f

def execMgmtCoreReset (s : State) : Host.Outcome State Fault Refusal :=
  onHub s (fun h => h.withRoom (fun h => (h.coreRestart s.fuses).secResume s.fuses))

def execGenIdentity (init : Initiator) (s : State) : Host.Outcome State Fault Refusal :=
  onHub s (fun h => h.go init pSec 6 (fun _ => 0) (fun h => h))

def execLockProv (init : Initiator) (s : State) : Host.Outcome State Fault Refusal :=
  onHub s (fun h => h.go init pSec 7 (fun _ => 0) (fun h => h))

/-- The FUSE entry is committed: the fuses may be blown (R461) (DESIGN CHOICE, log 10; DEDUCED, log 47). -/
def Hub.fuseCommitted (h : Hub) : Hub :=
  match h.opOf pSec with
  | some o => if o.opcode = 4 ∨ o.opcode = 5 then h.putLongOp pSec (some { o with waits := false }) else h
  | none => h

/-- The identity key's public key in IDPUB (R384) (DEDUCED, log 24). -/
def Hub.showIdentity (h : Hub) (key : BitVec 384) : Hub :=
  let bs := ecdsaPublic key
  (List.range 24).foldl (fun h i => h.wr pSec (0x100 + 4 * i) (BitVec.ofNat 32 (leNat ((bs.drop (4 * i)).take 4)))) h

/-- A P-384 private key, 1 to n - 1, from 384 drawn bits (R384) (DESIGN CHOICE, log 6). -/
def identityKey (x : BitVec 384) : BitVec 384 := BitVec.ofNat 384 (x.toNat % (p384Order - 1) + 1)

/-- An operation of the SEC page ends; the fuses it blew (R381, R384, R396). While the management core resets alone it waits
(R383) (DEDUCED, log 47). -/
def secOpEnd (s : State) (o : LongOp) (r : OpEnd) : State :=
  let h := s.hub
  let f := s.fuses
  let fin (h : Hub) (code : Nat) : State := { s with hub := h.endOp pSec code }
  if h.sec.coreReset then s
  else if o.code ≠ 0 then fin h o.code
  else if o.opcode = 4 then
    let n := min 64 (h.fld pSec 0x48 8 7)
    let blown := if r.failed then min (n - 1) (f.svn + r.count.toNat) else n
    let svn := max f.svn blown
    { s with fuses := { f with svn := svn }, hub := (h.wrFld pSec 0x48 16 7 svn).endOp pSec (if r.failed then 4 else 0) }
  else if o.opcode = 5 then
    if r.failed then fin h 4
    else
      let rev := putBit f.revoked o.index true
      { s with fuses := { f with revoked := f.revoked ||| rev }, hub := (h.wrFld pSec 0x48 24 4 (f.revoked ||| rev).toNat).endOp pSec 0 }
  else if o.opcode = 6 then
    if f.provLock ∨ f.identity.isSome then fin h 1
    else if h.drbgError then fin h 5
    else
      let (a, h) := h.draw false
      let (b, h) := h.draw false
      if r.failed then fin h 4
      else
        let key := identityKey ((b.setWidth 128) ++ a)
        { s with fuses := { f with identity := some key }, hub := (h.showIdentity key).endOp pSec 0 }
  else if o.opcode = 7 then
    if f.identity.isNone then fin h 1
    else if r.failed then fin h 4
    else { s with fuses := { f with provLock := true }, hub := (h.wrFld pSec 0x48 3 1 1).endOp pSec 0 }
  else fin h o.code

end Sys2Proof.Machine
end

