-- ==== Sys2Proof/Machine/Parts.lean ====
section
/-!
DEFINITION. The operations of the PART page: partitions enabled and released, peer and host windows (R99, R100, R116, R123 to R125,
R218, R340, R366, R391 to R393).
-/
namespace Sys2Proof.Machine

/-! Windows (R100, R123) -/

/-- Base and bytes of every enabled partition, peer and host window but those named. -/
def Hub.windows (h : Hub) (notPart notPeer notHost : Option Nat) : List (Nat × Nat) :=
  ((List.range 64).filter (fun p => (h.part p).enabled && notPart != some p)).map (fun p =>
    ((h.part p).base.toNat, (h.part p).units * 2097152)) ++
  ((List.range 256).filter (fun i => bit (h.peerWin i).ctrl 31 && notPeer != some i)).map (fun i =>
    ((h.peerWin i).base.toNat, (h.peerWin i).size)) ++
  ((List.range 16).filter (fun i => bit (h.hostWin i).ctrl 31 && notHost != some i)).map (fun i =>
    ((h.hostWin i).base.toNat, (h.hostWin i).size))

def overlapsAny (ws : List (Nat × Nat)) (base size : Nat) : Bool :=
  ws.any (fun w => decide (base < w.1 + w.2 ∧ w.1 < base + size))

/-- ALIGN: size 0, or base plus size passes 2^64. -/
def badSpan (base size : Nat) : Bool := decide (size = 0 ∨ 2 ^ 64 < base + size)

/-! PART_ENABLE (R123, R124, R218, R366) -/

/-- The logical slabs of a partition's set, in the order of the set. -/
def Hub.setSlabs (h : Hub) (c : PartCfg) : List Nat := (List.range c.count).map (fun i => h.setEntry (c.first + i))

/-- The checks of PART_ENABLE in order; the DRBG's error last, as the keys are drawn (R123). -/
def Hub.partCheck (h : Hub) (p : Nat) : Nat :=
  let c := h.part p
  let size := c.units * 2097152
  let set := h.setSlabs c
  if c.enabled then 7
  else if badSpan c.base.toNat size then 1
  else if !c.managed ∧ c.units ≠ c.count * slabUnits h.amap.dens then 3
  else if c.count < 1 ∨ 2048 < c.count ∨ 2048 < c.first + c.count then 4
  else if set.any (fun k => !(decide ((h.lslab k).st = 1 ∨ (h.lslab k).st = 2)) || (h.slabOwner k).isSome ||
      h.sec.wipes.any (fun w => w.slabs.contains (BitVec.ofNat 11 k))) ∨ set.eraseDups.length ≠ set.length then 5
  else if c.quad ∧ set.any (fun k => (h.lslab k).home.toNat ≠ c.seg) then 6
  else if overlapsAny (h.windows (some p) none none) c.base.toNat size then 2
  else if h.drbgError then 7
  else 0

/-- The default deck of a partition of n slabs (R116). -/
def Hub.fillDeck (h : Hub) (p n : Nat) : Hub :=
  let lo := p * 4096
  let new := (List.range 4096).filterMap (fun i =>
    let v := i * 613 % n
    if v = 0 then none else some (lo + i, BitVec.ofNat 16 v))
  let m := h.amap.deck
  h.setAmap { h.amap with
    deck := m.filter (fun e => decide (e.1 < lo)) ++ new ++ m.filter (fun e => decide (lo + 4096 ≤ e.1)) }

/-- Three fresh keys, the generator being reseeded before each (R366, R367) (DEDUCED, log 47). -/
def Hub.drawKeys (h : Hub) (p : Nat) : Hub :=
  let (a, h) := h.draw true
  let (b, h) := h.draw true
  let (c, h) := h.draw true
  (h.putKeySlot p (some ⟨a, b, c⟩)).submit 0x11 true [BitVec.ofNat 8 p, 0]

/-- Regions of a slab (R339). -/
def Hub.regions (h : Hub) : Nat := h.bigD / 8192

/-- Every region of a slab at one map: LIVE at PART_ENABLE of a MANAGED partition, FRESH at PART_RELEASE (R340). -/
def Hub.setRegions (h : Hub) (k : Nat) (m : BitVec 64) : Hub :=
  let filled := (List.range h.regions).foldl (fun f j => SMap.set (fun _ => 0) f (k * 256 + j) m) h.ras.filled
  h.setRas { h.ras with filled := filled, pendChunks := h.ras.pendChunks.filter (fun c => c.slab ≠ k) }

/-- A partition that passed the checks is enabled (DEDUCED, log 38). -/
def Hub.enablePart (h : Hub) (p : Nat) : Hub :=
  let c := h.part p
  let t := h.table p
  let stale : Bool := c.managed && !(t.built && decide (t.units = c.units ∧ t.first = c.first ∧ t.count = c.count) &&
    bit t.ilv 0 == c.quad)
  let h := if c.custom then h else h.fillDeck p c.count
  let h := h.drawKeys p
  let h := if c.managed then (h.setSlabs c).foldl (fun h k => h.setRegions k (BitVec.allOnes 64)) h else h
  let h := h.putPart p { c with enabled := true, stale := stale }
  let h := h.wr pPart 0x6C (BitVec.ofNat 32 ((List.range 32).map (fun i => if (h.part i).enabled then 2 ^ i else 0)).sum)
  let h := h.wr pPart 0x70 (BitVec.ofNat 32 ((List.range 32).map (fun i => if (h.part (32 + i)).enabled then 2 ^ i else 0)).sum)
  if stale then h.raise pPagemgr 3 else h

def partSel (h : Hub) : Nat := h.fld pPart 0x40 0 6

def execPartEnable (init : Initiator) (s : State) : Host.Outcome State Fault Refusal :=
  onHub s (fun h => h.go init pPart 1 partSel (fun h => h))

/-- PART_ENABLE ends: every check, then its effect (DEDUCED, log 47). -/
def Hub.partEnableEnd (h : Hub) (p : Nat) : Hub :=
  let code := h.partCheck p
  if code = 0 then (h.enablePart p).endOp pPart 0 else h.endOp pPart code

/-! SET_PW and SET_HW (R123) -/

def staged64 (h : Hub) (lo : Nat) : Nat := (h.rd pPart lo).toNat / 2097152 * 2097152 + (h.rd pPart (lo + 4)).toNat * 2 ^ 32

/-- The staging copy of a peer window, and of a host window. -/
def Hub.stagedPw (h : Hub) : Window :=
  ⟨BitVec.ofNat 64 (staged64 h 0x84), h.fld pPart 0x8C 0 21, h.rd pPart 0x90, h.rd pPart 0x94⟩
def Hub.stagedHw (h : Hub) : Window := ⟨BitVec.ofNat 64 (staged64 h 0xA4), h.fld pPart 0xAC 0 21, 0, h.rd pPart 0xB0⟩

def Hub.pwCheck (h : Hub) (i : Nat) (w : Window) : Nat :=
  if !(h.part (bitsNat w.ctrl 0 6)).enabled then 7
  else if !bit w.ctrl 31 then 0
  else if badSpan w.base.toNat w.size then 1
  else if overlapsAny (h.windows none (some i) none) w.base.toNat w.size then 2
  else 0

def execSetPw (init : Initiator) (s : State) : Host.Outcome State Fault Refusal :=
  onHub s (fun h => h.go init pPart 2 (fun h => h.fld pPart 0x80 0 8) (fun h => h))

/-- A request to a peer window is not yet answered (R123). -/
def Hub.peerPending (h : Hub) (i : Nat) : Bool :=
  h.lines.reqs.any (fun r => match r.target with
    | .peer _ _ _ => decide (r.phase ≠ .failed) && (h.peerWin i).holds r.hdr.addr.toNat
    | _ => false)

/-- SET_PW ends: its checks, then its effect (R103); the removal of a window waits for the operations to it (R123)
(DEDUCED, log 38). -/
def Hub.setPwEnd (h : Hub) (i : Nat) : Hub :=
  let w := h.stagedPw
  let code := h.pwCheck i w
  if code ≠ 0 then h.endOp pPart code
  else if !bit w.ctrl 31 && h.peerPending i then h
  else (h.setAmap { h.amap with peerWin := SMap.set (fun _ => Window.off) h.amap.peerWin i w }).endOp pPart 0

/-- An enabled channel's current descriptor uses the host window. -/
def Hub.dmaUses (h : Hub) (i : Nat) : Bool :=
  (List.range 64).any (fun c =>
    let d := h.dmaCh c
    decide (2 ≤ d.st.toNat ∨ d.fetch ≠ 0) && (d.usedRanges.map (·.1) ++ [h.descAddr c]).any (fun a => (h.hostWin i).holds a))

/-- The checks of SET_HW in order; a window that a channel's current descriptor uses is neither removed nor given another place
(R123, R300). -/
def Hub.hwCheck (h : Hub) (i : Nat) (w : Window) : Nat :=
  if !(h.part (bitsNat w.ctrl 0 6)).enabled ∨ h.dmaUses i then 7
  else if !bit w.ctrl 31 then 0
  else if badSpan w.base.toNat w.size then 1
  else if bitsNat w.ctrl 8 4 < 8 then 8
  else if overlapsAny (h.windows none none (some i)) w.base.toNat w.size then 2
  else 0

def execSetHw (init : Initiator) (s : State) : Host.Outcome State Fault Refusal :=
  onHub s (fun h => h.go init pPart 3 (fun h => h.fld pPart 0xA0 0 4) (fun h => h))

/-- SET_HW ends: its checks, then its effect (R103) (DEDUCED, log 38). -/
def Hub.setHwEnd (h : Hub) (i : Nat) : Hub :=
  let w := h.stagedHw
  let code := h.hwCheck i w
  if code ≠ 0 then h.endOp pPart code
  else (h.setAmap { h.amap with hostWin := SMap.set (fun _ => Window.off) h.amap.hostWin i w }).endOp pPart 0

/-! PART_RELEASE (R391) -/

/-- Step 1: the RELEASE entry. The index holds the partition, and 256 where a wipe follows (R392). -/
def execPartRelease (init : Initiator) (s : State) : Host.Outcome State Fault Refusal :=
  onHub s (fun h => h.go init pPart 4 partSel (fun h =>
    let p := partSel h
    let wipe := h.fld pSec 0x44 1 1
    if !(h.part p).enabled then h.putLongOp pPart (some ⟨4, 7, p, false⟩)
    else (h.putLongOp pPart (some ⟨4, 0, p + 256 * wipe, true⟩)).submit 0x09 true [BitVec.ofNat 8 p, BitVec.ofNat 8 wipe]))

/-- Step 2, once the RELEASE entry is committed. -/
def Hub.releaseCommitted (h : Hub) (p : Nat) : Hub :=
  let h := h.putPart p { h.part p with enabled := false }
  let a := if p < 32 then 0x6C else 0x70
  let h := h.wr pPart a (putBit (h.rd pPart a) (p % 32) false)
  let off (e : ExportCfg) : ExportCfg := if bitsNat e.ctrl 0 6 = p then { e with ctrl := putBit e.ctrl 31 false } else e
  let left := (h.far.exps.map (fun e : Nat × ExportCfg => (e.1, off e.2))).filter (fun e => e.2 ≠ ExportCfg.off)
  let h := h.setFar { h.far with exps := left }
  match h.opOf pPart with
  | some o => if o.opcode = 4 then h.putLongOp pPart (some { o with waits := false }) else h
  | none => h

/-- Step 3: a line operation of the partition is not yet answered, or a commit has not passed its step 6 (DEDUCED, log 38). -/
def Hub.partBusy (h : Hub) (p : Nat) : Bool :=
  h.lines.reqs.any (fun r => decide (r.hdr.part.toNat = p) && decide (r.phase ≠ .failed)) ||
  (h.lines.ready ++ h.lines.ordered).any (fun o => decide (o.part.toNat = p) && !o.acked) ||
  (List.range 256).any (fun i => decide ((h.trick i).st = 2) && decide ((h.trick i).part.toNat = p))

/-- A partition's table goes, with its entries (R218). -/
def Hub.freeTable (h : Hub) (p : Nat) : Hub :=
  let mine (k : Nat) : Bool := decide (p * 67108864 ≤ k ∧ k < (p + 1) * 67108864)
  (h.setPages { h.pages with fwd := SMap.dropIf mine h.pages.fwd, rev := SMap.dropIf mine h.pages.rev }).putTable p PageTable.unbuilt

/-- Internal tricks that lock a line of the partition end; a retirement tries its batch again (R201). -/
def Hub.dropTricks (h : Hub) (p : Nat) : Hub :=
  (h.pages.itricks.filter (fun t => t.lines.any (fun e => e.1 == p))).foldl (fun h t => h.endItrick t) h

/-- Step 4: the partition's lines, buffer entries, fetches, queued accesses and metadata words go; its kitty windows are disabled
(R151) (DEDUCED, log 38). -/
def Hub.dropPart (h : Hub) (p : Nat) (set : List Nat) : Hub :=
  let mine (f : Fetch) : Bool := f.part.toNat == p && f.kind != .rmw && f.kind != .scrub && f.kind != .repair ||
    set.contains f.slab && (f.kind == .rmw || f.kind == .word)
  let gone := (h.lines.fetches.filter mine).map (·.id)
  let h := h.dropTricks p
  let h := h.setCache { h.cache with
    words := h.cache.words.filter (fun w => !set.contains w.slab)
    chosen := h.cache.chosen.filter (fun e => e.2.1 ≠ p)
    flush := h.cache.flush.filter (fun e => e.1 ≠ p)
    kfill := if h.cache.kfill.1 = p then (0, 0, 0) else h.cache.kfill
    ways := h.cache.ways.filter (fun e : Nat × Way => e.2.part.toNat ≠ p)
    wb := h.cache.wb.filter (fun e => e.part.toNat ≠ p)
    kitty := h.cache.kitty.filter (fun e : Nat × KittyWin => bitsNat e.2.ctrl 0 6 ≠ p) }
  let h := h.setLines { h.lines with
    ready := h.lines.ready.filter (fun o => o.part.toNat ≠ p)
    ordered := h.lines.ordered.filter (fun o => o.part.toNat ≠ p)
    fetches := h.lines.fetches.filter (fun f => !mine f)
    room := h.lines.room.filter (fun id => h.lines.ready.any (fun o => o.id == id && o.part.toNat != p))
    reserved := h.lines.reserved.filter (fun e => e.1.toNat ≠ p) }
  { h with pcs := h.pcs.map (fun e : Nat × Pc => (e.1, ({ e.2 with
      rd := e.2.rd.filter (fun x => !gone.contains x.fetch)
      wr := e.2.wr.filter (fun x => !(x.part == some (BitVec.ofNat 6 p))) } : Pc).takePlaces h.now)) }

/-- Steps 3 to 6, and the wipe that follows (DEDUCED, log 38). -/
def Hub.releaseEnd (h : Hub) (o : LongOp) : Hub :=
  let p := o.index % 64
  if o.code ≠ 0 then h.endOp pPart o.code
  else if h.partBusy p then h
  else
    let c := h.part p
    let set := h.setSlabs c
    let h := (List.range 256).foldl (fun h i =>
      if (h.trick i).st ≠ 0 ∧ (h.trick i).part.toNat = p then h.putTrick i Trick.free else h) h
    let h := h.setPages { h.pages with
      releases := h.pages.releases.filter (fun r => r.part.toNat ≠ p)
      moves := h.pages.moves.filter (fun e : Nat × Option PageMove => match e.2 with
        | some m => m.part.toNat ≠ p
        | none => false) }
    let h := if c.managed then h.freeTable p else h
    let h := h.dropPart p set
    let h := set.foldl (fun h k => h.setRegions k 0) h
    let h := ((h.putKeySlot p none).putPart p { c with stale := false }).submit 0x11 true [BitVec.ofNat 8 p, 1]
    let h := if 256 ≤ o.index then h.queueWipe p (set.map (fun k => BitVec.ofNat 11 k)) else h
    (h.endOp pPart 0).settleOn

/-- An operation of the PART page ends. -/
def Hub.partOpEnd (h : Hub) (o : LongOp) : Hub :=
  match o.opcode with
  | 1 => h.partEnableEnd o.index
  | 2 => h.setPwEnd o.index
  | 3 => h.setHwEnd o.index
  | _ => h.releaseEnd o

end Sys2Proof.Machine
end

