-- ==== Sys2Proof/Machine/Bringup.lean ====
section
/-!
DEFINITION. Resets (R85 to R87, R416), the stages of bring-up and their reports (R398 to R410, R413, R414, R436), and the operations
of the BOOT page (R417, R418, R421).
-/
namespace Sys2Proof.Machine

/-! Resets (R85, R86, R416) -/

/-- Registers a warm reset keeps: the profile, RATE_CFG and the TIMING registers, HUB_ID, TALON_CFG (DEDUCED, log 49). -/
def keptByWarm (a : Nat) : Bool :=
  a == 0x44 || a == 4096 * pFarport + 0x40 || a == 4096 * pMap + 0x4C ||
  (List.range 8).any (fun st => let o := a - 4096 * pStk st
    decide (4096 * pStk st ≤ a) && (o == 0x44 || (decide (0x80 ≤ o ∧ o < 0x9C))))

/-- The registers after a warm reset: the LOCK bit of the HUB page stays, and THERM.STATUS.TRIPPED follows the pin (R443)
(DEDUCED, log 49). -/
def Hub.warmRegs (h : Hub) : SMap Word :=
  let m := h.regs.filter (fun e : Nat × Word => keptByWarm e.1)
  let m := SMap.set regReset m 0x08 (putBit 0 31 (bit (h.rd pHub 0x08) 31))
  SMap.set regReset m (4096 * pTherm + 0x44) (h.rd pTherm 0x44 &&& 2)

/-- The hub after a reset: registers and stacks as given, units empty; flash and the stacks' bytes stay, and so do the counters of
the free values and the numbers already given (R416) (DEDUCED, log 49). -/
def Hub.cleared (h : Hub) (regs : SMap Word) (stk : SMap Stack) : Hub :=
  { Hub.reset with
    now := h.now
    pins := { h.pins with pdAck := 0, pdNak := 0, fatal := false }
    regs := regs
    stk := stk
    lines := { Hub.reset.lines with next := h.lines.next }
    sec := { Hub.reset.sec with draws := h.sec.draws, srDraws := h.sec.srDraws, answers := h.sec.answers, mgmtOut := h.sec.mgmtOut }
    mem := h.mem
    flash := h.flash }

/-- HUB_PORST_N goes low: everything resets, the trip pin is released (R85, R95, R416). -/
def execHubPorstAssert (s : State) : Host.Outcome State Fault Refusal :=
  let h := s.hub.journalAtReset.cleared [] []
  .next { s with hub := h.setPins { h.pins with porst := true }, tripped := false }

/-- Stacks that WARM_PREPARE left in self-refresh stay in it, where it ended before the reset (R416). -/
def Hub.warmStacks (h : Hub) : SMap Stack :=
  if h.boot.warm ≠ 2 ∨ (h.opOf pBoot).any (fun o => o.opcode == 3) then []
  else (h.stk.filter (fun e : Nat × Stack => e.2.selfRefresh)).map (fun e => (e.1, { Stack.absent with selfRefresh := true }))

/-- HUB_WRST_N goes low; under HUB_PORST_N only its level counts (R86) (DESIGN CHOICE, log 32; DEDUCED, log 49). -/
def Hub.warmReset (h : Hub) : Hub :=
  if h.pins.porst ∨ h.pins.wrst then h.setPins { h.pins with wrst := true }
  else
    let h := h.journalAtReset
    let h := h.cleared h.warmRegs h.warmStacks
    (h.setPins { h.pins with wrst := true }).setBoot { h.boot with cold := false }

def execHubWrstAssert (s : State) : Host.Outcome State Fault Refusal := onHub s (fun h => h.warmReset)

/-- S0 may begin; levels that stand at the release are seen: the supply warning, power-down requests (R91, R93, R246)
(DEDUCED, log 29; DEDUCED, log 49). -/
def Hub.leaveReset (h : Hub) : Hub :=
  let h := h.setBoot { h.boot with released := h.now, go := true }
  let h := h.setTm { h.tm with lastTick := h.now }
  let h := h.setPins { h.pins with pdNak := h.pins.pdReq &&& 0x00FF, pdAck := h.pins.pdReq &&& 0xFF00 }
  if h.pins.supplyWarn then h.warnOn else h

/-- HUB_PORST_N goes high: straps are sampled; while HUB_WRST_N is low the hub stays in reset (R85, R86)
(DESIGN CHOICE, log 14). -/
def execHubPorstRelease (bootSeq fastOk : Bool) (stackFit : BitVec 8) (s : State) : Host.Outcome State Fault Refusal :=
  onHub s (fun h =>
    if !h.pins.porst then h
    else
      let h := h.setPins { h.pins with porst := false, bootSeq := bootSeq, fastOk := fastOk, stackFit := stackFit }
      if h.pins.wrst then h else h.leaveReset)

/-- HUB_WRST_N goes high: FAST_OK is sampled, BOOT_SEQ only where this release starts the power-on bring-up (R86). -/
def execHubWrstRelease (bootSeq fastOk : Bool) (s : State) : Host.Outcome State Fault Refusal :=
  onHub s (fun h =>
    if !h.pins.wrst then h
    else
      let h := h.setPins { h.pins with wrst := false }
      if h.pins.porst then h
      else (h.setPins { h.pins with fastOk := fastOk, bootSeq := if h.boot.cold then bootSeq else h.pins.bootSeq }).leaveReset)

/-! Reports (R400, R401, R414) -/

/-- Legacy report of a native stage, and the stages it covers; none where the stage is not its last (R414). -/
def legacyReport (n : Nat) : Option (Nat × List Nat) :=
  match n with
  | 1 => some (0, [0, 1])
  | 2 => some (1, [2])
  | 5 => some (2, [3, 4, 5])
  | 6 => some (3, [6])
  | 7 => some (4, [7])
  | _ => none

/-- The worst result, and its last detail. -/
def worst (rs : List (Nat × Nat)) : Nat × Nat := rs.foldl (fun a r => if a.1 ≤ r.1 then r else a) (0, 0)

/-- Report word r is written and its journal entry submitted; the next stage waits for the commit. -/
def Hub.writeReport (h : Hub) (r result detail : Nat) (fast : Bool) : Hub :=
  let w : Nat := r + (if h.pins.bootSeq then 16 else 0) + (if fast then 32 else 0) + 256 * result + 65536 * (detail % 65536)
  let h := (h.wr pBoot (0x60 + 4 * r) (BitVec.ofNat 32 w)).raise pBoot 1
  let h := if result = 1 ∨ result = 3 then h.raise pBoot 3 else h
  let h := if result = 3 then h.putBoot 8 1 1 else h
  (h.submit 1 true (le32 w)).setBoot { h.boot with waitCommit := true }

/-- RESULT and DETAIL of stage n are reported. -/
def Hub.report (h : Hub) (n result detail : Nat) : Hub :=
  let rs := h.boot.results.take n ++ [(result, detail)]
  let fast : Bool := h.boot.fast && decide (2 ≤ n)
  if h.pins.bootSeq then
    match legacyReport n with
    | none => h
    | some (r, ns) =>
      let (res, det) := worst (ns.map (fun i => rs.getD i (0, 0)))
      h.writeReport r res det fast
  else h.writeReport n result detail fast

/-- Stage n may run now: it has begun, nothing stops it, and no supply episode runs (R399, R413) (DEDUCED, log 23). -/
def Hub.inStage (h : Hub) (n : Nat) : Bool :=
  decide (h.boot.ended = n) && h.boot.go && !h.seqStopped && !h.boot.waitCommit && !h.therm.episode

/-- Stage n ends; S1 without an image does not, and S7 ends with its commit (R380, R400) (DEDUCED, log 23). -/
def Hub.endStage (h : Hub) (n result detail : Nat) : Hub :=
  let stays : Bool := decide ((n = 1 ∧ result = 3) ∨ n = 7)
  let b := h.boot
  let h := h.setBoot { b with
    ended := if stays then n else n + 1
    go := decide (n = 7)
    results := b.results.take n ++ [(result, detail)] }
  (h.report n result detail).proceed

/-! S0 and S1 -/

/-- S0: the cause, the straps, the journal's head (R398, R401, R422, R460). -/
def execStageS0Rom (s : State) : Host.Outcome State Fault Refusal :=
  onHub s (fun h =>
    if !h.inStage 0 then h
    else
      let warm : Bool := !h.boot.cold
      let h := ((h.putBoot 9 1 warm.toNat).putBoot 4 1 h.pins.bootSeq.toNat).findHead
      h.endStage 0 0 (h.pins.bootSeq.toNat + 2 * h.pins.fastOk.toNat + 4 * warm.toNat))

/-- An image starts at S1; an activation that a reset cut short ends (R380, R382) (DEDUCED, log 24). -/
def Hub.bootImage (h : Hub) (f : Fuses) (slot : Nat) : Hub :=
  let (active, pend) := h.bootRecord
  let fell : Bool := decide (pend = 1 ∧ slot = active)
  let h := h.startImage f slot fell
  let h := match f.identity with
    | some k => h.showIdentity k
    | none => h
  if pend = 0 then h
  else
    let h := h.writeBootRecord slot 0
    let h := if fell then h.raise pSec 4 else h
    h.submit 0x13 true [BitVec.ofNat 8 slot, BitVec.ofNat 8 (h.fld pSec 0x48 8 7), if fell then 1 else 0]

/-- S1: the ROM authenticates and starts the firmware (R380, R401) (DESIGN CHOICE, log 11; DEDUCED, log 24). -/
def execStageS1Fw (s : State) : Host.Outcome State Fault Refusal :=
  onHub s (fun h =>
    if !h.inStage 1 then h
    else match h.romPick s.fuses with
      | none => h.endStage 1 3 2
      | some (slot, again) =>
        (h.bootImage s.fuses slot).endStage 1 0 (slot + 2 * again.toNat + 4 * (h.imageSvn slot % 128)))

/-! S2 (R403, R404, R408) -/

/-- The code of a die density in R104. -/
def densCode (d : Nat) : Option Nat := if d = 24 then some 0 else if d = 32 then some 1 else if d = 64 then some 2 else none

/-- Height and density of the table of R104. -/
def stackKnown (r : StackReport) : Bool :=
  (densCode r.density.toNat).isSome && (r.height == 8 || r.height == 12 || r.height == 16)

def noReport : StackReport := ⟨false, 0, 0, false⟩

/-- The reference type: held by the most answering stacks of a supported type, ties to the lowest-numbered stack. -/
def refType (rs : List StackReport) : Option (BitVec 5 × BitVec 7) :=
  let ts := (rs.filter (fun r => r.answered && stackKnown r)).map (fun r => (r.height, r.density))
  ts.foldl (fun best t => match best with
    | none => some t
    | some b => if ts.count b < ts.count t then some t else best) none

/-- DROP_CAUSE of a fitted stack (0: it is populated). -/
def dropCause (ref : Option (BitVec 5 × BitVec 7)) (r : StackReport) : Nat :=
  if !r.answered then 1
  else if !stackKnown r then 2
  else if ref ≠ some (r.height, r.density) then 3
  else if !r.pll then 4
  else 0

/-- Fields of TIMING0 to TIMING6: offset, place, width (R240). -/
def timingFields : List (Nat × Nat × Nat) :=
  ([0x80, 0x84, 0x88, 0x8C].flatMap (fun o => [(o, 0, 8), (o, 8, 8), (o, 16, 8), (o, 24, 8)])) ++
  [(0x90, 0, 8), (0x90, 8, 8), (0x90, 16, 16), (0x94, 0, 16), (0x94, 16, 10), (0x94, 26, 4), (0x98, 0, 16)]

/-- A TIMING field of the stack is zero (R404) (DEDUCED, log 24). -/
def Hub.zeroTiming (h : Hub) (st : Nat) : Bool := timingFields.any (fun f => h.fld (pStk st) f.1 f.2.1 f.2.2 == 0)

def maskOf (l : List Nat) : Nat := (l.map (fun i => 2 ^ i)).sum

def Hub.populated (h : Hub) : List Nat := (List.range 8).filter (fun st => (h.stack st).populated)

/-- The record of the fast path, where every condition of R408 holds. -/
def Hub.fastRecord (h : Hub) : Option Nat :=
  if h.boot.cold ∨ !h.pins.fastOk then none
  else match newerArea (h.trainCopy 0) (h.trainCopy 1) with
    | none => none
    | some x =>
      let a := trainArea x
      if h.flashWord (a + 12) = maskOf h.populated ∧ h.flashWord (a + 0x30) = h.cfgCrc then some x else none

/-- The checks of S2: a zero TIMING field holds it; else the path is chosen and S2 ends. -/
def Hub.endS2 (h : Hub) : Hub :=
  let held := maskOf (h.populated.filter (fun st => h.zeroTiming st))
  let detail := maskOf h.populated + 256 * held
  if held ≠ 0 then ((h.report 2 2 detail).putBoot 6 1 1).raise pBoot 2
  else
    let h := h.putBoot 6 1 0
    let result := if h.fld pBoot 0x4C 8 8 = 0 then 0 else 1
    match h.fastRecord with
    | some x =>
      let h := (h.putFlash (trainArea x + 0x34) (le32 0)).putBoot 5 1 1
      (h.setBoot { h.boot with fast := true, store := x }).endStage 2 result detail
    | none =>
      let h := { h with stk := h.stk.map (fun e : Nat × Stack => (e.1, { e.2 with selfRefresh := false })) }
      ({ h with stk := h.stk.filter (fun e : Nat × Stack => e.2 ≠ Stack.absent) } : Hub).endStage 2 result detail

/-- A stack is found, or dropped with its cause; PRESENT shows it (R240, R403). -/
def Hub.identify (h : Hub) (st cause : Nat) : Hub :=
  let h := h.wrFld pBoot 0x50 (4 * st) 4 cause
  let s := h.stack st
  (h.putStack st { s with populated := decide (cause = 0), selfRefresh := s.selfRefresh && decide (cause = 0) }).wrFld (pStk st) 0x40 0 1
    (decide (cause = 0)).toNat

/-- S2: the fitted stacks are identified (R403). -/
def Hub.stageS2 (h : Hub) (reports : List StackReport) : Hub :=
  let fitted := (List.range 8).filter (fun st => h.pins.stackFit.getLsbD st)
  let of (st : Nat) : StackReport := reports.getD st noReport
  let ref := refType (fitted.map of)
  let h := fitted.foldl (fun h st => h.identify st (dropCause ref (of st))) h
  let h := match ref with
    | some (ht, d) => h.setAmap { h.amap with dens := (densCode d.toNat).getD 0, sids := ht.toNat / 4 }
    | none => h
  let dropped := fitted.filter (fun st => !(h.stack st).populated)
  (h.wr pBoot 0x4C (BitVec.ofNat 32 (maskOf h.populated + 256 * maskOf dropped))).endS2

def execStageS2Phy (reports : List StackReport) (s : State) : Host.Outcome State Fault Refusal :=
  onHubIf (decide (reports.length = 8)) s (fun h => if !h.inStage 2 ∨ h.bootBit 6 then h else h.stageS2 reports)

/-! S3 (R405, R410) -/

/-- RATE_CFG and TIMING0 to TIMING6 come into force at a training (R221, R240). -/
def Hub.takeTiming (h : Hub) (st : Nat) : Hub :=
  h.putStack st { h.stack st with now := (0x44 :: (List.range 7).map (fun i => 0x80 + 4 * i)).map (fun o => h.rd (pStk st) o) }

/-- The stack's training has ended: IN_SERVICE, the rate in force, the retraining series start (R235, R240). -/
def Hub.enterService (h : Hub) (st : Nat) : Hub :=
  let h := h.putStack st { h.stack st with dataDue := h.now, caDue := h.now, nextData := 0, nextCa := 0 }
  ((h.wrFld (pStk st) 0x40 1 1 1).wrFld (pStk st) 0x40 2 1 0).wrFld (pStk st) 0x40 8 5 (bitsNat ((h.stack st).now.headD 0) 0 5)

/-- Channel c of a stack takes state st of R237 after a training: SERVING, or the state given to a failed one. -/
def Hub.setChannel (h : Hub) (stack c : Nat) (failed : Bool) (code : BitVec 3) : Hub :=
  let one (h : Hub) (i : Nat) : Hub :=
    h.putPc i (if failed then { h.pc i with st := code } else (h.pc i).trained)
  one (one h (stack * 64 + 2 * c)) (stack * 64 + 2 * c + 1)

/-- Channels whose training fails: those that no lane repair saves, and while SPARE_EN = 0 those that need one (R405). -/
def Hub.trainFails (h : Hub) (r : TrainReport) : BitVec 32 := if h.sparing then r.failed else r.failed ||| r.spared

/-- Lanes repaired at a training (R405). -/
def Hub.repairedLanes (h : Hub) (r : TrainReport) : Word := if h.sparing then r.repaired.setWidth 32 else 0

/-- Channels that R405 or R410 leaves EXCLUDED, and whether a restored stack fell back to full training. -/
def Hub.excludes (h : Hub) (st : Nat) (r : TrainReport) : BitVec 32 × Bool :=
  if h.boot.fast then
    let a := trainArea h.boot.store
    let ex : BitVec 32 := BitVec.ofNat 32 (h.flashWord (a + 0x10 + 4 * st))
    if h.fld pBoot 0x800 1 1 = 1 ∧ r.drifted &&& ~~~ex ≠ 0 then (h.trainFails r, true) else (ex, false)
  else (h.trainFails r, false)

/-- A stack is trained or restored at S3. -/
def Hub.trainStack (h : Hub) (st : Nat) (r : TrainReport) : Hub :=
  let (ex, _) := h.excludes st r
  let s := h.stack st
  let h := (h.putStack st { s with selfRefresh := false, prepared := false, delays := [] }).takeTiming st
  let h := h.wr (pStk st) 0x68 (h.repairedLanes r)
  let h := (List.range 32).foldl (fun h c => h.setChannel st c (bit ex c) 5) h
  h.enterService st

/-- S3: every populated stack is trained or restored (R405, R410). -/
def Hub.stageS3 (h : Hub) (results : List TrainReport) : Hub :=
  let of (st : Nat) : TrainReport := results.getD st ⟨0, 0, 0, 0⟩
  let ps := h.populated
  let back := ps.filter (fun st => (h.excludes st (of st)).2)
  let n := (ps.map (fun st => ((List.range 32).filter (bit (h.excludes st (of st)).1)).length)).sum
  let h := ps.foldl (fun h st => h.trainStack st (of st)) h
  (h.wrFld pBoot 0x4C 16 9 n).endStage 3 (if n = 0 then 0 else 1) (n + 4096 * back.length)

def execStageS3Train (results : List TrainReport) (s : State) : Host.Outcome State Fault Refusal :=
  onHubIf (decide (results.length = 8)) s (fun h => if h.inStage 3 then h.stageS3 results else h)

/-! S4 (R105 to R110, R124, R406, R407, R463) -/

/-- The physical slab number names no DRAM (R107). -/
def Hub.absentSlab (h : Hub) (ps : Nat) : Bool := !(h.stack (slabStack ps)).populated || decide (h.amap.sids ≤ slabSid ps)

def Hub.slabTrained (h : Hub) (ps : Nat) : Bool := (h.pc (slabPc ps)).st != 5

/-- Talon positions of a stack (R108). -/
def Hub.talonPositions (h : Hub) (st : Nat) : List Nat :=
  (List.range (h.fld pMap 0x4C 0 4)).map (fun j => talonSlab st h.amap.sids j)

/-- State of a physical slab before talon slabs are picked: EXCLUDED, RETIRED, TALON, or LIVE under logical number k (none at a
talon position) (R109 step 2, R406 step 3) (DEDUCED, log 26). -/
def firstState (trained : Bool) (v : SlabPast) (k : Option Nat) : PSlab :=
  let again : Option (BitVec 11) := v.readmitted.map (fun p => BitVec.ofNat 11 p)
  let base : PSlab := { PSlab.absent with
    prev := if v.kind = 0 then again else some (BitVec.ofNat 11 v.prev), readmitted := again.isSome }
  if !trained then { base with st := 5 }
  else if v.kind ≠ 0 then { base with st := 4 }
  else if again.isSome then { base with st := 2 }
  else match k with
    | some k => { base with st := 1, logical := BitVec.ofNat 11 k }
    | none => { base with st := 2 }

/-- Logical numbers in the order of R109 step 1 (DEDUCED, log 26). -/
def Hub.positions (h : Hub) : List Nat :=
  h.populated.flatMap (fun st => ((List.range 256).map (fun i => st * 256 + i)).filter (fun ps =>
    !h.absentSlab ps && !(h.talonPositions st).contains ps))

/-- Within S4 nothing raises TALON_EMPTY (DESIGN CHOICE, log 62). A position that is not LIVE: its number takes a talon slab; else a slab that was still serving stays LIVE and re-enters the
pending list, and any other number stays UNMAPPED (R109 step 3, R406 steps 3 and 4) (DEDUCED, log 26). -/
def Hub.placeNumber (h : Hub) (r : Replay) (k ps : Nat) : Hub :=
  let v := r.past ps
  let map (h : Hub) (b : Nat) : Hub :=
    (h.putPslab b { h.pslab b with st := 1, logical := BitVec.ofNat 11 k }).putLslab k
      ⟨1, BitVec.ofNat 11 b, BitVec.ofNat 2 (slabStack b / 2)⟩
  if (h.pslab ps).st = 1 ∧ (h.lslab k).phys = BitVec.ofNat 11 ps ∧ (h.lslab k).st = 1 then h
  else match h.pickTalon k ps with
    | some b => map h b
    | none =>
      if h.slabTrained ps ∧ (v.kind = 3 ∨ v.kind = 4) then
        let h := h.putPslab ps { h.pslab ps with prev := v.readmitted.map (fun p => BitVec.ofNat 11 p) }
        let h := map h ps
        if v.kind = 3 then h.setRas { h.ras with pending := h.ras.pending ++ [(ps, k, 4)] }
        else (h.setRas { h.ras with pendingSoon := h.ras.pendingSoon ++ [(ps, k, 4)] }).submit 6 true (le16 ps ++ le16 k ++ [4])
      else h

/-- The slab map is built (R109, R406) (DEDUCED, log 26). -/
def Hub.buildMap (h : Hub) (r : Replay) : Hub :=
  let pos := h.positions
  let numbers := pos.zipIdx
  let first (st i : Nat) : Option (Nat × PSlab) :=
    let ps := st * 256 + i
    if h.absentSlab ps then none
    else some (ps, firstState (h.slabTrained ps) (r.past ps) ((numbers.find? (fun e => e.1 == ps)).map (·.2)))
  let phys : SMap PSlab := h.populated.flatMap (fun st => (List.range 256).filterMap (fun i => first st i))
  let live (ps : Nat) : Bool := h.slabTrained ps && decide (r.past ps = SlabPast.clean)
  let logical : SMap LSlab := numbers.map (fun e =>
    (e.2, if live e.1 then ⟨1, BitVec.ofNat 11 e.1, BitVec.ofNat 2 (slabStack e.1 / 2)⟩ else ⟨3, 0, 0⟩))
  let h := h.setAmap { h.amap with
    phys := phys, logical := logical, count := pos.length, talonTotal := h.fld pMap 0x4C 0 4 * h.populated.length }
  numbers.foldl (fun h e => h.placeNumber r e.2 e.1) h

/-- MAPPED logical slabs in ascending order. -/
def Hub.mapped (h : Hub) : List Nat := (List.range h.amap.count).filter (fun k => (h.lslab k).st == 1)

/-- Partition 0 with the values of R124, enabled; entries of the set table from M on stay (DEDUCED, log 24). -/
def Hub.defaultPart (h : Hub) : Hub :=
  let ms := h.mapped
  let set : SMap (BitVec 11) := ((ms.zipIdx).filter (fun e => e.1 ≠ 0)).map (fun e => (e.2, BitVec.ofNat 11 e.1))
  let base : BitVec 64 := BitVec.ofNat 64 (Config.defaultBaseGiB.toNat * 2 ^ 30)
  let later := h.amap.setTable.filter (fun e : Nat × BitVec 11 => ms.length ≤ e.1)
  let h := h.setAmap { h.amap with setTable := set ++ later }
  (h.putPart 0 ⟨0, base, ms.length * slabUnits h.amap.dens, 0, ms.length, 0xFFFFFFFF, BitVec.allOnes 64, false, false⟩).enablePart 0

/-- S4 (R406, R407). GEOM and DATA_LINES are written here; with no mapped slab partition 0 keeps its reset values
(DESIGN CHOICE, log 62). -/
def Hub.stageS4 (h : Hub) : Hub :=
  let (r, ckpt, missing) := replay (fun ps => h.absentSlab ps) h.entries
  let rep : Nat := ckpt.toNat + 256 * min 255 missing + 65536 * min 255 r.ignored + 2 ^ 31
  let h := (h.wr pJournal 0x74 (BitVec.ofNat 32 rep)).setRas { h.ras with table := r.rows }
  let h := h.buildMap r
  let geom := h.amap.dens + 4 * h.amap.sids + 256 * maskOf h.populated
  let h := (h.wr pMap 0x40 (BitVec.ofNat 32 geom)).wr pMap 0x44 (BitVec.ofNat 32 h.bigD)
  let un := h.amap.count - h.mapped.length
  let none_ : Bool := h.mapped.isEmpty
  let h := if none_ then h else h.defaultPart
  h.endStage 4 (if un = 0 ∧ !none_ then 0 else 1) (un % 4096 + 4096 * none_.toNat)

def execStageS4Map (s : State) : Host.Outcome State Fault Refusal := onHub s (fun h => if h.inStage 4 then h.stageS4 else h)

/-! S5 to S7 -/

/-- S5: the reserved areas, the spare-bond map, the seeds of the four reduction units (R169, R406). -/
def execStageS5Cache (bondsOk areasOk : Bool) (spareLinks : BitVec 10) (s : State) : Host.Outcome State Fault Refusal :=
  onHub s (fun h =>
    if !h.inStage 5 then h
    else if !bondsOk ∨ !areasOk then (h.endStage 5 3 spareLinks.toNat).assertFatal
    else
      let h := if h.drbgError then h else (List.range 4).foldl (fun h _ => (h.draw true).2) h
      h.endStage 5 0 spareLinks.toNat)

/-- S6: the enabled far-ports whose optical engine is ready train (R321, R401). -/
def Hub.stageS6 (h : Hub) (linkUp : BitVec 4) (lanes : List (BitVec 8)) : Hub :=
  let h := (List.range 4).foldl (fun h i =>
    let h := h.putFarPort i { h.farPort i with linkUp := bit linkUp i }
    if (h.farPort i).enable ∧ bit linkUp i then h.farTrained i (lanes.getD i 0) else h) h
  let up := (List.range 4).filter (fun i => (h.farPort i).st == 2)
  let narrow := up.filter (fun i => (h.farPort i).width != 0)
  let bad : Bool := !narrow.isEmpty || (List.range 4).any (fun i => (h.farPort i).enable && !up.contains i)
  h.endStage 6 bad.toNat (maskOf up + 16 * maskOf narrow)

def execStageS6Far (linkUp : BitVec 4) (lanes : List (BitVec 8)) (s : State) : Host.Outcome State Fault Refusal :=
  onHubIf (decide (lanes.length = 4)) s (fun h => if h.inStage 6 then h.stageS6 linkUp lanes else h)

/-- S7: the report with the bring-up's duration; its commit opens the ports (R398, R400, R401). -/
def execStageS7Open (s : State) : Host.Outcome State Fault Refusal :=
  onHub s (fun h =>
    if !h.inStage 7 ∨ h.reported7 then h
    else
      let ms := min 65535 ((h.now - h.boot.released) / 100000)
      (h.wr pBoot 0x5C (BitVec.ofNat 32 ms)).endStage 7 0 ms)

/-! Operations of the BOOT page (R421) -/

/-- The operation is to end with a code. -/
def Hub.bootRefuse (h : Hub) (opcode code index : Nat) : Hub := h.putLongOp pBoot (some ⟨opcode, code, index, false⟩)

/-- START: the profile is locked, S2 begins or is held (R399, R421, R491). -/
def Hub.startGo (h : Hub) : Hub :=
  if h.boot.ended < 2 ∨ h.bootBit 11 then h.bootRefuse 1 1 0
  else
    let h := (h.putBoot 11 1 1).wrFld pHub 0x08 31 1 1
    (h.opWaits pBoot 0).proceed.startEnds

def execBootStart (init : Initiator) (s : State) : Host.Outcome State Fault Refusal :=
  onHub s (fun h => h.go init pBoot 1 (fun _ => 0) (fun h => h.startGo))

/-- CONTINUE: the held stage begins, or the checks of S2 are repeated, after the episode where one runs (R399, R404, R413, R421). -/
def Hub.continueGo (h : Hub) : Hub :=
  if !h.bootBit 6 then h.bootRefuse 2 1 0
  else if h.boot.go then (if h.therm.episode then h.bootRefuse 2 notBegun 0 else h.endS2)
  else
    let n := h.boot.ended
    ((h.setBoot { h.boot with go := true }).putBoot 0 4 n).putBoot 6 1 0

def execContinue (init : Initiator) (s : State) : Host.Outcome State Fault Refusal :=
  onHub s (fun h => h.go init pBoot 2 (fun _ => 0) (fun h => h.continueGo))

/-- WARM_PREPARE: its checks and step 1; it waits for the end of a supply episode (R417, R421, R440) (DEDUCED, log 54). -/
def Hub.warmGo (h : Hub) : Hub :=
  let staged : Bool := (List.range 8).any (fun st => bit (h.rd (pStk st) 0x40) 2)
  let active : Bool := (List.range 64).any (fun c =>
    let st := (h.dmaCh c).st
    st == 2 || st == 3 || st == 5 || st == 7)
  if !h.bootBit 7 ∨ h.bootBit 10 ∨ staged then h.bootRefuse 3 1 0
  else if active then h.bootRefuse 3 3 0
  else if h.therm.episode ∨ h.therm.exiting then h
  else h.setBoot { h.boot with warm := 1 }

def execWarmPrepare (init : Initiator) (s : State) : Host.Outcome State Fault Refusal :=
  onHub s (fun h => h.go init pBoot 3 (fun _ => 0) (fun h => h.warmGo))

/-- The bytes of a training record (R409). -/
def Hub.trainRecord (h : Hub) (seq : Nat) : List Byte :=
  let ex (st : Nat) : Nat := maskOf ((List.range 32).filter (fun c => (h.pc (st * 64 + 2 * c)).st == 5))
  let b := le32 0x4B545253 ++ le32 seq ++ le32 implId ++ le32 (maskOf h.populated) ++
    (List.range 8).flatMap (fun st => le32 (ex st)) ++ le32 h.cfgCrc
  let recs := (List.range 256).flatMap (fun r => (List.range 64).map (fun i => Config.channelRecord r i))
  b ++ le32 0xFFFFFFFF ++ bytesOf (crc32c (b ++ recs)) ++ List.replicate 196 0 ++ recs

/-- Steps 2 to 5: drained, the stacks go to self-refresh, the record is written, WARM_READY is submitted (DEDUCED, log 54). -/
def Hub.warmEnd (h : Hub) (failed : Bool) : Hub :=
  let h := h.setBoot { h.boot with warm := 1 }
  if h.lines.reqs ≠ [] then h
  else
    let h := h.allSelfRefresh
    let h := h.populated.foldl (fun h st =>
      (h.putStack st { h.stack st with prepared := true }).wrFld (pStk st) 0x40 1 1 0) h
    let h := h.setBoot { h.boot with warm := 2 }
    if failed then h.endOp pBoot 4
    else
      let (x, seq) := h.nextTrain
      ((h.putFlash (trainArea x) (h.trainRecord seq)).opWaits pBoot 0).submit 0x0B true [BitVec.ofNat 8 (maskOf h.populated)]

/-- WARM_READY is committed: PREPARED, and the operation ends (R417, R461) (DEDUCED, log 54). -/
def Hub.warmCommitted (h : Hub) : Hub :=
  match h.opOf pBoot with
  | some o => if o.opcode = 3 ∧ o.waits then (h.putBoot 10 1 1).endOp pBoot 0 else h
  | none => h

/-- The channels of a stack that are not EXCLUDED go OFFLINE, which RETRAIN_NEED shows (R240, R418, R419) (DEDUCED, log 29). -/
def Hub.stackOffline (h : Hub) (st : Nat) : Hub :=
  let h := h.sliceEnd st [] false
  let h := (List.range 64).foldl (fun h j =>
    let i := st * 64 + j
    if (h.pc i).st = 5 then h
    else (h.putPc i { h.pc i with st := 4, prior := 4 }).wrFld (pStk st) 0x60 (j / 2) 1 1) h
  h.wrFld (pStk st) 0x40 1 1 0

/-- The work of S2 and S3 for one stack ends, while the others serve; its training took RATE_CFG and TIMING at its start
(R240, R403, R405, R418) (DEDUCED, log 29). -/
def Hub.stackRestart (h : Hub) (st : Nat) (r : OpEnd) : Hub :=
  let ref : Option (BitVec 5 × BitVec 7) :=
    some (BitVec.ofNat 5 (4 * h.amap.sids), if h.amap.dens = 0 then 24 else if h.amap.dens = 1 then 32 else 64)
  let cause := dropCause ref r.stack
  if cause ≠ 0 then
    let h := h.identify st cause
    (h.wrFld pBoot 0x4C st 1 0).wrFld pBoot 0x4C (8 + st) 1 1
  else
    let h := (h.putStack st { h.stack st with selfRefresh := false, prepared := false }).lanesSet st (fun _ => true)
    let h := h.wr (pStk st) 0x68 (h.repairedLanes r.train)
    let h := (List.range 32).foldl (fun h c =>
      if (h.pc (st * 64 + 2 * c)).st = 5 then h
      else
        let failed := bit (h.trainFails r.train) c
        (h.setChannel st c failed 4).wrFld (pStk st) 0x60 c 1 failed.toNat) h
    (h.enterService st).startPending

/-- A LIVE or TARGET physical slab lies on the stack (R91, R421). -/
def Hub.stackLive (h : Hub) (st : Nat) : Bool :=
  (List.range 256).any (fun i => let v := h.pslab (st * 256 + i); v.st == 1 || v.st == 3)

def stackSel (h : Hub) : Nat := h.fld pBoot 0x54 0 3

/-- STACK_RESET: its checks and step 1 (R418, R421). -/
def Hub.stackResetGo (h : Hub) : Hub :=
  let st := stackSel h
  if !h.bootBit 7 ∨ h.bootBit 10 ∨ !(h.stack st).populated ∨ h.pins.pdAck.getLsbD st then h.bootRefuse 4 1 st
  else if h.stackLive st then h.bootRefuse 4 2 st
  else ((h.stackOffline st).takeTiming st).submitO 0x26 0 [BitVec.ofNat 8 st, 0, 0]

def execStackReset (init : Initiator) (s : State) : Host.Outcome State Fault Refusal :=
  onHub s (fun h => h.go init pBoot 4 stackSel (fun h => h.stackResetGo))

/-- An operation of the BOOT page ends. -/
def Hub.bootOpEnd (h : Hub) (o : LongOp) (r : OpEnd) : Hub :=
  if o.code = notBegun then (if h.therm.episode then h else h.endS2.endOp pBoot 0)
  else if o.code ≠ 0 ∨ o.opcode < 3 then h.endOp pBoot o.code
  else if o.opcode = 3 then (if h.therm.episode ∨ h.therm.exiting then h else h.warmEnd r.failed)
  else if h.therm.episode ∨ h.therm.exiting then h
  else ((h.stackRestart o.index r).submitO 0x26 0 [BitVec.ofNat 8 o.index, 1, 0]).endOp pBoot 0

end Sys2Proof.Machine
end

