-- ==== Sys2Proof/Machine/Perf.lean ====
section
/-!
DEFINITION. Dumps of the counters into a ring in memory (R451 to R453, R457), and the MSI acknowledge (R96).
-/
namespace Sys2Proof.Machine

/-! The record (R452) -/

def Hub.dumpEngines (h : Hub) : Bool := bit (h.rd pPerf 0x70) 8
def Hub.dumpSize (h : Hub) : Nat := if h.dumpEngines then 4672 else 576
def Hub.dumpBase (h : Hub) : Nat := h.rd64 pPerf 0x78
def Hub.dumpPart (h : Hub) : Nat := h.fld pPerf 0x70 0 6
def Hub.dumpRecords (h : Hub) : Nat := h.fld pPerf 0x80 0 16
def Hub.dumping (h : Hub) : Bool := bit (h.rd pPerf 0x8C) 0

/-- The bytes of the next record, snapshot now. -/
def Hub.dumpBytes (h : Hub) (now : Bool) : List Byte :=
  let mask := h.rd64 pPerf 0x84
  let flags := (if h.dumpEngines then 1 else 0) + (if h.perf.skippedFlag then 2 else 0) + (if now then 4 else 0)
  let glob := (List.range 64).flatMap (fun i =>
    le64 (if mask / 2 ^ i % 2 = 1 then SMap.get (fun _ => 0) h.perf.cnt i else 0))
  let eng := if h.dumpEngines then
      (List.range 1024).flatMap (fun k => le32 (SMap.get (fun _ => 0) h.perf.eng k).toNat)
    else []
  le32 0x504D5544 ++ le32 flags ++ le64 h.perf.seq ++ le64 h.tm.epoch.toNat ++ le32 h.dumpSize ++
    le32 (h.rd pPerf 0x90).toNat ++ le64 mask ++ List.replicate 24 0 ++ glob ++ eng

/-! Writing it (R453) -/

/-- The header of a dump write. -/
def Hub.dumpHeader (h : Hub) (a : Nat) : Header :=
  { opcode := 1, size := 0, narrow := false, trump := false, hint := 2
    part := BitVec.ofNat 6 h.dumpPart, cls := 0, colour := 0, fstart := false, flen := 0, tag := 0, fmt := 0, rop := 0, mod := 0
    trickId := 0, addr := BitVec.ofNat 64 a, operand64 := 0, byteEn := BitVec.allOnes 256 }

/-- A dump write answered other than OK stops the dumping. -/
def Hub.dumpFails (h : Hub) : Hub :=
  let st := putBit (putBit (putBit (h.rd pPerf 0x8C) 0 false) 1 true) 2 false
  ((h.setPerf { h.perf with dump := Dump.idle, stopping := false }).wr pPerf 0x8C st).raise pPerf 4

/-- One 64-byte write of the record's 64 bytes at offset o. -/
def Hub.dumpWrite (h : Hub) (o : Nat) (bs : List Byte) : Hub :=
  let p := h.dumpPart
  let c := h.part p
  let a := h.dumpBase + h.perf.seq % max 1 h.dumpRecords * h.dumpSize + o
  if h.perf.dump.step = 0 then h
  else if h.closed ∨ !c.enabled ∨ c.stale ∨ !c.inWindow a then h.dumpFails
  else
    let (id, h) := h.fresh
    let r : Req := ⟨id, .dump, h.dumpHeader a, [BitVec.ofNat 512 (leNat bs)], h.now, 1, .local ((a - c.base.toNat) / 256), .passed, [], false, 0, 0⟩
    let h := h.setLines { h.lines with reqs := h.lines.reqs ++ [r] }
    (h.setPerf { h.perf with dump := { h.perf.dump with out := h.perf.dump.out ++ [id] } }).makeLines r 0

/-- A record begins: its first 64 bytes with MAGIC = 0. -/
def Hub.dumpBegin (h : Hub) (now : Bool) : Hub :=
  let bs := h.dumpBytes now
  let h := h.setPerf { h.perf with dump := ⟨1, bs, [], now⟩, skippedFlag := false }
  (h.wrFld pPerf 0x8C 2 1 1).dumpWrite 0 (List.replicate 4 0 ++ (bs.take 64).drop 4)

/-- A dump falls due at the tick; one that finds a record being written is skipped (R451). -/
def Hub.dumpDue (h : Hub) : Hub :=
  if !h.dumping ∨ h.perf.ticks < max 1 (h.rd pPerf 0x74).toNat then h
  else
    let h := h.setPerf { h.perf with ticks := 0 }
    if h.therm.episode ∨ h.therm.trip ≠ 0 ∨ h.perf.stopping then h
    else if h.perf.dump.step ≠ 0 then (h.setPerf { h.perf with skippedFlag := true }).bump pPerf 0x90 0 32 1
    else h.dumpBegin false

def execDumpDue (s : State) : Host.Outcome State Fault Refusal := onHub s (fun h => h.dumpDue)

/-- An operation of the page that waits for the record ends (R457). -/
def Hub.dumpOpEnd (h : Hub) : Hub :=
  let h := if h.perf.stopping then (h.setPerf { h.perf with stopping := false }).wrFld pPerf 0x8C 0 1 0 else h
  match h.opOf pPerf with
  | some o => if o.waits then h.endOp pPerf 0 else h
  | none => h

/-- Every write of a step has taken its order instant: the next step (R453), or the record is complete. -/
def Hub.dumpStep (h : Hub) : Hub :=
  let d := h.perf.dump
  if d.step = 0 then h.dumpOpEnd
  else if !d.out.isEmpty then h
  else match d.step with
    | 1 =>
      let h := h.setPerf { h.perf with dump := { d with step := 2 } }
      (List.range (d.bytes.length / 64 - 1)).foldl (fun h i => h.dumpWrite (64 * (i + 1)) ((d.bytes.drop (64 * (i + 1))).take 64)) h
    | 2 => (h.setPerf { h.perf with dump := { d with step := 3 } }).dumpWrite 0 (d.bytes.take 64)
    | _ =>
      let h := h.setPerf { h.perf with dump := Dump.idle, seq := h.perf.seq + 1 }
      let h := ((h.wrFld pPerf 0x8C 2 1 0).wrFld pPerf 0x8C 8 24 h.perf.seq).raise pPerf 3
      h.dumpOpEnd

def execDumpRecordWritten (s : State) : Host.Outcome State Fault Refusal := onHub s (fun h => h.dumpStep)

/-! Operations (R457) -/

/-- The ring lies wholly inside the partition's window, and its period and size are not 0. -/
def Hub.dumpRangeOk (h : Hub) : Bool :=
  let c := h.part h.dumpPart
  let b := h.dumpBase
  let n := h.dumpRecords * h.dumpSize
  decide (h.rd pPerf 0x74 ≠ 0 ∧ h.dumpRecords ≠ 0) && c.enabled &&
    decide (c.base.toNat ≤ b ∧ b + n ≤ c.base.toNat + c.units * 2097152)

/-- DUMP_START at its end. -/
def Hub.dumpStartEnd (h : Hub) : Hub :=
  if h.dumping then h.endOp pPerf 1
  else if h.dumpBase % 64 ≠ 0 then h.endOp pPerf 2
  else if !h.dumpRangeOk then h.endOp pPerf 3
  else
    let h := h.setPerf { h.perf with seq := 0, ticks := 0, skippedFlag := false, stopping := false }
    let st := putBits (putBit (putBit (h.rd pPerf 0x8C) 0 true) 1 false) 8 24 0
    ((h.wr pPerf 0x8C st).wr pPerf 0x90 0).endOp pPerf 0

def execDumpStart (init : Initiator) (s : State) : Host.Outcome State Fault Refusal :=
  onHub s (fun h => h.go init pPerf 1 (fun _ => 0) (fun h => h))

/-- DUMP_STOP ends after the record in progress. -/
def Hub.dumpStopGo (h : Hub) : Hub :=
  if !h.dumping then h.putLongOp pPerf (some ⟨2, 1, 0, false⟩)
  else
    let h := (h.opWaits pPerf 0).setPerf { h.perf with stopping := true }
    if h.perf.dump.step = 0 then h.dumpOpEnd else h

def execDumpStop (init : Initiator) (s : State) : Host.Outcome State Fault Refusal :=
  onHub s (fun h => h.go init pPerf 2 (fun _ => 0) (fun h => h.dumpStopGo))

/-- DUMP_NOW writes one record. -/
def Hub.dumpNowGo (h : Hub) : Hub :=
  if h.perf.dump.step ≠ 0 then h.putLongOp pPerf (some ⟨3, 1, 0, false⟩)
  else if !h.dumpRangeOk then h.putLongOp pPerf (some ⟨3, 3, 0, false⟩)
  else (h.opWaits pPerf 0).dumpBegin true

def execDumpNow (init : Initiator) (s : State) : Host.Outcome State Fault Refusal :=
  onHub s (fun h => h.go init pPerf 3 (fun _ => 0) (fun h => h.dumpNowGo))

/-! MSI (R96) -/

/-- The host acknowledges the message of a vector. -/
def execMsiAck (vector : BitVec 6) (s : State) : Host.Outcome State Fault Refusal :=
  onHub s (fun h => h.setIrq { h.irq with waiting := SMap.set (fun _ => none) h.irq.waiting vector.toNat none })

end Sys2Proof.Machine
end

