-- ==== Sys2Proof/Machine/Epoch.lean ====
section
/-!
DEFINITION. Epoch ticks, the lost strobe, gate lists and deals (R244 to R246, R253, R255, R257 to R267, R272). What falls due at a
tick and has a command of its own (an entry's start, a deal's start) is due from that tick on, and at the latest at the next
tick (DESIGN CHOICE, log 21).
-/
namespace Sys2Proof.Machine

/-! Buckets (R253, R255, R257) -/

/-- A policer at a tick: written values come into force, buckets fill (DESIGN CHOICE, log 52). -/
def Policer.tick (q : Policer) : Policer :=
  let on : Bool := bit q.cfg 0 && !bit q.cfgNow 0
  let full (size : Word) : Nat := 256 * size.toNat
  { q with
    cfgNow := q.cfg, cirNow := q.cir, pirNow := q.pir, cbsNow := q.cbs, pbsNow := q.pbs
    tc := if on then full q.cbs else min (full q.cbs) (q.tc + q.cir.toNat)
    tp := if on then full q.pbs else min (full q.pbs) (q.tp + q.pir.toNat) }

/-- A shaper at a tick, under throttle step s (DESIGN CHOICE, log 52). -/
def Shaper.tick (step : Nat) (x : Shaper) : Shaper :=
  let on : Bool := bit x.cfg 0 && !bit x.cfgNow 0
  let full : Int := (256 * x.burst.toNat : Nat)
  let add : Int := (x.rate.toNat * (8 - step) / 8 : Nat)
  { x with
    cfgNow := x.cfg, rateNow := x.rate, burstNow := x.burst
    tokens := if on then full else if bit x.cfg 0 then min full (x.tokens + add) else x.tokens }

/-! Gate lists -/

/-- Gate event of a list: its DMA channels hear it (R259, R292). -/
def Hub.startEntry (h : Hub) (l bank i : Nat) : Hub :=
  let e := h.gateEntry l bank i
  let h := h.putGate l { h.gate l with cur := i, left := entryDur e }
  if bit e 8 then h.dmaEvent false l else h

/-- Classes whose window starts when the gates change from one entry to another. -/
def opened (old new : Word) : List Nat := (List.range 8).filter (fun c => bit new c && !bit old c)

/-- Windows of class c in a cycle of a bank (R258). -/
def Hub.windowsOf (h : Hub) (l bank c : Nat) : Nat :=
  let n := h.bankLen l bank
  max 1 ((List.range n).filter (fun i => bit (h.gateEntry l bank i) c && !bit (h.gateEntry l bank ((i + n - 1) % n)) c)).length

/-- Frames at the heads of a class's queue that are not admitted are checked at the start of its window: those held and those that
waited at the closed class (R265, R266). -/
def Hub.recheck (h : Hub) (l c : Nat) : Hub :=
  let hs := heads ((h.waiting l).filter (fun r => !r.scav && r.hdr.cls.toNat == c))
  let fs := rising ((hs.filter (fun r => !(h.gframe r.frame).admitted)).map (·.frame))
  fs.foldl (fun h n =>
    let f := h.gframe n
    let g := h.gate l
    if h.fits l c f.bytes then h.putGframe n { f with admitted := true, held := false }
    else if bit g.overrunCfg c then
      (h.putGframe n { f with admitted := true, held := false }).putGate l { g with overrun := satAdd (2 ^ 32 - 1) g.overrun 1 }
    else if h.windowsOf l g.bank.toNat c ≤ f.refused then
      ((h.putGframe n { f with admitted := true, held := false, oversize := true }).putGate l
        { g with oversize := satAdd (2 ^ 32 - 1) g.oversize 1 }).raise pGate 3
    else (h.putGframe n { f with held := true, refused := f.refused + 1 }).putGate l { g with held := satAdd (2 ^ 32 - 1) g.held 1 }) h

/-- The gates change to entry i of a bank. -/
def Hub.changeEntry (h : Hub) (l : Nat) (old : Word) (bank i : Nat) : Hub :=
  let h := h.startEntry l bank i
  (opened old (h.gateEntry l bank i)).foldl (fun h c => h.recheck l c) h

/-- A deal waits, the count has reached its start, and the strobe is not lost (R246, R261) (DESIGN CHOICE, log 21). -/
def Hub.dealDue (h : Hub) (l : Nat) : Bool :=
  let g := h.gate l
  (g.st == 1 || g.st == 3) && !g.stopping && !h.lost && decide (g.start.toNat ≤ h.tm.epoch.toNat)

/-- A deal starts: its bank is active at entry 0 (R261, R263) (DESIGN CHOICE, log 21). -/
def Hub.startDeal (h : Hub) (l : Nat) : Hub :=
  if !h.dealDue l then h
  else
    let g := h.gate l
    let old : Word := if g.running then h.gateEntry l g.bank.toNat g.cur else 0
    let h := (h.putGate l { g with st := 2, bank := g.pend }).raise pGate 2
    h.changeEntry l old g.pend.toNat 0

/-- The entry in force has lasted its ticks, and the strobe is not lost (R246, R258). -/
def Hub.entryDue (h : Hub) (l : Nat) : Bool :=
  let g := h.gate l
  g.running && !g.stopping && !h.lost && g.left == 0

/-- The next entry of a running list starts, unless a deal starts at this tick (R258, R263) (DESIGN CHOICE, log 21). -/
def Hub.nextEntry (h : Hub) (l : Nat) : Hub :=
  if h.dealDue l then h.startDeal l
  else if !h.entryDue l then h
  else
    let g := h.gate l
    let b := g.bank.toNat
    h.changeEntry l (h.gateEntry l b g.cur) b ((g.cur + 1) % max 1 (h.bankLen l b))

def execGateEntryStart (list : BitVec 4) (s : State) : Host.Outcome State Fault Refusal := onHub s (fun h => h.nextEntry list.toNat)
def execDealStart (list : BitVec 4) (s : State) : Host.Outcome State Fault Refusal := onHub s (fun h => h.startDeal list.toNat)

/-- Start of a waiting deal for count c (R261): the start, and the cycles skipped (0: on time). -/
def dealTime (base c cycle : Nat) : Nat × Nat :=
  if c + 1 ≤ base then (base, 0)
  else
    let k := ceilDiv (c + 1 - base) (max 1 cycle)
    (base + k * cycle, k)

/-- A deal's start is fixed for count c: late starts are recorded. -/
def Hub.fixStart (h : Hub) (l c : Nat) : Hub :=
  let g := h.gate l
  let (start, k) := dealTime g.base.toNat c (h.bankCycle l g.pend.toNat)
  let h := h.putGate l { g with start := BitVec.ofNat 64 start, late := decide (k ≠ 0), skipped := min (2 ^ 32 - 1) k }
  if k = 0 then h else h.raise pGate 1

/-- A list stops: idle, all gates open, held frames admitted at their next check (R264). -/
def Hub.stopList (h : Hub) (l : Nat) : Hub :=
  let g := h.gate l
  if !g.stopping then h
  else
    let h := h.putGate l { g with st := 0, stopping := false, late := g.late, cur := 0, left := 0 }
    ((h.waiting l).map (·.frame)).foldl (fun h n => h.putGframe n { h.gframe n with held := false, refused := 0 }) h

/-- A list at a tick: what fell due at the tick before has happened by now; the entry in force has one tick less. -/
def Hub.listTick (h : Hub) (l : Nat) : Hub :=
  let h := h.stopList l
  let g := h.gate l
  if g.running then h.putGate l { g with left := g.left - 1 } else h

/-- The count after a tick: loaded if a load is armed (R245). -/
def Hub.nextCount (h : Hub) : BitVec 64 :=
  if bit (h.rd pHub 0x178) 0 then BitVec.ofNat 64 (h.rd64 pHub 0x160) else h.tm.epoch + 1

/-- Buckets of every policer and shaper at a tick. -/
def Hub.fillBuckets (h : Hub) : Hub :=
  h.setTm { h.tm with
    pol := (h.tm.pol.map (fun e : Nat × Policer => (e.1, e.2.tick))).filter (fun e => e.2 ≠ Policer.off)
    shp := (h.tm.shp.map (fun e : Nat × Shaper => (e.1, Shaper.tick h.throttle e.2))).filter (fun e => e.2 ≠ Shaper.off) }

/-- Waiting deals are judged again at a loading tick (R262). -/
def Hub.rejudge (h : Hub) : Hub :=
  (List.range 16).foldl (fun h l =>
    let g := h.gate l
    if (g.st = 1 ∨ g.st = 3) ∧ g.start.toNat < h.tm.epoch.toNat then h.fixStart l h.tm.epoch.toNat else h) h

/-- One epoch tick (R245, R246, R262) (DESIGN CHOICE, log 21). -/
def Hub.tick (h : Hub) : Hub :=
  let h := h.wrFld pHub 0x178 1 1 0
  let h := ((List.range 16).foldl (fun h l => (h.startDeal l).nextEntry l) h).dumpDue
  let armed := bit (h.rd pHub 0x178) 0
  let h := h.setTm { h.tm with epoch := h.nextCount, lastTick := h.now }
  let h := (h.wrFld pHub 0x178 0 2 0).fillBuckets
  let h := if armed then h.rejudge else h
  let h := (List.range 16).foldl (fun h l => h.listTick l) h
  if h.dumping then h.setPerf { h.perf with ticks := h.perf.ticks + 1 } else h

def execEpochTick (s : State) : Host.Outcome State Fault Refusal := onHub s (fun h => if h.inReset then h else h.tick)

/-- No tick for LOST_US µs: the strobe is lost (R246). -/
def Hub.loseStrobe (h : Hub) : Hub :=
  if h.inReset ∨ h.lost then h
  else
    let h := h.reach (h.tm.lastTick + 100 * h.fld pHub 0x17C 0 16)
    ((h.wrFld pHub 0x178 1 2 3).raise pHub 6).submitO 0x21 0 []

def execEpochLost (s : State) : Host.Outcome State Fault Refusal := onHub s (fun h => h.loseStrobe)

/-! Operations of the GATE page (R267, R272) -/

def Hub.gateSel (h : Hub) : Nat × Nat := (h.fld pGate 0x40 0 4, h.fld pGate 0x40 4 1)

def execDeal (init : Initiator) (s : State) : Host.Outcome State Fault Refusal :=
  onHub s (fun h => h.go init pGate 1 (fun h => h.gateSel.1) (fun h => h))
def execStop (init : Initiator) (s : State) : Host.Outcome State Fault Refusal :=
  onHub s (fun h => h.go init pGate 2 (fun h => h.gateSel.1) (fun h => h))
def execCancel (init : Initiator) (s : State) : Host.Outcome State Fault Refusal :=
  onHub s (fun h => h.go init pGate 3 (fun h => h.gateSel.1) (fun h => h))

/-- DEAL at its end. -/
def Hub.dealEnd (h : Hub) : Hub :=
  let (l, b) := h.gateSel
  let g := h.gate l
  let n := h.bankLen l b
  if g.st = 1 ∨ g.st = 3 then h.endOp pGate 4
  else if g.running ∧ g.bank.toNat = b then h.endOp pGate 3
  else if n = 0 ∨ 64 < n then h.endOp pGate 1
  else if (List.range n).any (fun i => entryDur (h.gateEntry l b i) == 0) then h.endOp pGate 2
  else
    let h := h.putGate l { g with st := if g.st = 0 then 1 else 3, pend := BitVec.ofNat 1 b, late := false, skipped := 0 }
    (h.fixStart l h.tm.epoch.toNat).endOp pGate 0

/-- STOP at its end: idle at the next tick. -/
def Hub.stopEnd (h : Hub) : Hub :=
  let l := h.gateSel.1
  let g := h.gate l
  if g.st = 0 then h.endOp pGate 4 else (h.putGate l { g with stopping := true }).endOp pGate 0

/-- CANCEL at its end. -/
def Hub.cancelEnd (h : Hub) : Hub :=
  let l := h.gateSel.1
  let g := h.gate l
  if g.st = 1 then (h.putGate l { g with st := 0 }).endOp pGate 0
  else if g.st = 3 then (h.putGate l { g with st := 2 }).endOp pGate 0
  else h.endOp pGate 4

end Sys2Proof.Machine
end

