-- ==== Sys2Proof/Machine/HostPorts.lean ====
section
/-!
DEFINITION. The commands of the host ports and the arbiters: requests (R56, R57), protocol errors (R74), accepted responses
(R72), arbiter choices (R249, R251).
-/
namespace Sys2Proof.Machine

/-- A request accepted and, where it takes no line operation, passed as soon as its arbiter would choose it. -/
def Hub.acceptNow (h : Hub) (p : BitVec 5) (hd : Header) (flits : List Sector) : Hub :=
  let (id, h) := h.accept p hd flits
  if id = 0 then h else h.passSoon (.port p) id

/-- READ (R57, R66); an opcode that R57 does not list arrives here too and is answered DECODE. -/
def execRead (port : BitVec 5) (hd : Header) (s : State) : Host.Outcome State Fault Refusal :=
  onHubIf (wfRead hd) s (fun h => (h.accept port hd []).2)

/-- WRITE (R57, R66). -/
def execWrite (port : BitVec 5) (hd : Header) (flits : List Sector) (s : State) : Host.Outcome State Fault Refusal :=
  onHubIf (wfData 1 hd flits) s (fun h => (h.accept port hd flits).2)

/-- REDUCE (R57, R160 to R164). -/
def execReduce (port : BitVec 5) (hd : Header) (flits : List Sector) (s : State) : Host.Outcome State Fault Refusal :=
  onHubIf (wfData 2 hd flits) s (fun h => (h.accept port hd flits).2)

/-- TRICK_OPEN (R184, R187). -/
def execTrickOpen (port : BitVec 5) (hd : Header) (s : State) : Host.Outcome State Fault Refusal :=
  onHubIf (wfOp 3 hd) s (fun h => h.acceptNow port hd [])

/-- TRICK_WRITE (R187 to R189). -/
def execTrickWrite (port : BitVec 5) (hd : Header) (flits : List Sector) (s : State) : Host.Outcome State Fault Refusal :=
  onHubIf (wfData 4 hd flits) s (fun h => h.acceptNow port hd flits)

/-- TRICK_COMPARE (R187 to R191). -/
def execTrickCompare (port : BitVec 5) (hd : Header) (s : State) : Host.Outcome State Fault Refusal :=
  onHubIf (wfOp 5 hd) s (fun h => h.acceptNow port hd [])

/-- TRICK_COMMIT (R192). -/
def execTrickCommit (port : BitVec 5) (hd : Header) (s : State) : Host.Outcome State Fault Refusal :=
  onHubIf (wfOp 6 hd) s (fun h => h.acceptNow port hd [])

/-- TRICK_ABORT (R185, R186). -/
def execTrickAbort (port : BitVec 5) (hd : Header) (s : State) : Host.Outcome State Fault Refusal :=
  onHubIf (wfOp 7 hd) s (fun h => h.acceptNow port hd [])

/-- PAGE_RELEASE (R210). -/
def execPageRelease (port : BitVec 5) (hd : Header) (s : State) : Host.Outcome State Fault Refusal :=
  onHubIf (wfOp 8 hd) s (fun h => h.acceptNow port hd [])

/-- CLEAR_POISON (R336). -/
def execClearPoison (port : BitVec 5) (hd : Header) (s : State) : Host.Outcome State Fault Refusal :=
  onHubIf (wfOp 9 hd) s (fun h => h.acceptNow port hd [])

/-- A data flit no request expects is discarded and recorded (R74 ORPHAN). -/
def execOrphan (port : BitVec 5) (s : State) : Host.Outcome State Fault Refusal :=
  onHub s (fun h => if h.inReset then h else h.protoError port.toNat 2 0)

/-- A slot of type 0b11 is discarded and recorded (R74 SLOT). -/
def execSlot (port : BitVec 5) (s : State) : Host.Outcome State Fault Refusal :=
  onHub s (fun h => if h.inReset then h else h.protoError port.toNat 4 0)

/-- The port accepts the oldest response that waits for it (R72). -/
def execResponseAccepted (port : BitVec 5) (s : State) : Host.Outcome State Fault Refusal :=
  onHub s (fun h => h.acceptResponse port.toNat)

/-- One choice of an arbiter in one of every eight pace cycles (R249, R257). -/
def execArbiterChoice (arb : BitVec 4) (cycle : BitVec 3) (s : State) : Host.Outcome State Fault Refusal :=
  onHub s (fun h => h.arbiterTurn arb.toNat cycle.toNat)

/-- The hold limit (R251). -/
def execHoldLimitExpiry (arb : BitVec 4) (s : State) : Host.Outcome State Fault Refusal :=
  onHub s (fun h => h.holdExpiry arb.toNat)

end Sys2Proof.Machine
end

