-- ==== Sys2Proof/Machine/PageOps.lean ====
section
/-!
DEFINITION. The operations of the CACHE, TRICK and PAGEMGR pages (R143 to R150, R203, R215, R217).
-/
namespace Sys2Proof.Machine

/-! Kitty windows (R144, R148, R149) -/

def Hub.kitty (h : Hub) (i : Nat) : KittyWin := SMap.get (fun _ => KittyWin.off) h.cache.kitty i
def Hub.putKitty (h : Hub) (i : Nat) (w : KittyWin) : Hub :=
  h.setCache { h.cache with kitty := SMap.set (fun _ => KittyWin.off) h.cache.kitty i w }
def kwSel (h : Hub) : Nat := h.fld pCache 0x50 0 4

/-- The staging copy. -/
def Hub.stagedKw (h : Hub) : KittyWin :=
  ⟨(h.rd pCache 0x54).toNat / 65536 * 65536 + (h.rd pCache 0x58).toNat * 2 ^ 32, h.fld pCache 0x5C 0 24, h.rd pCache 0x60⟩

def KittyWin.on (w : KittyWin) : Bool := bit w.ctrl 31
def KittyWin.owner (w : KittyWin) : Nat := bitsNat w.ctrl 0 6
def KittyWin.size (w : KittyWin) : Nat := w.units * 65536
def KittyWin.has (w : KittyWin) (h : Hub) (p l : Nat) : Bool :=
  let a := (h.part p).base.toNat + 256 * l
  decide (w.owner = p ∧ w.base ≤ a ∧ a < w.base + w.size)

/-- The checks of KW_APPLY, in order; ALIGN is for VALID = 1 alone (R149) (DEDUCED, log 38). -/
def Hub.kwCheck (h : Hub) (i : Nat) (w : KittyWin) : Nat :=
  let c := h.part w.owner
  let mask := bitsNat w.ctrl 16 12
  if !c.enabled ∨ (w.on ∧ (h.kitty i).on) then 4
  else if w.on ∧ badSpan w.base w.size then 1
  else if w.base < c.base.toNat ∨ c.base.toNat + c.units * 2097152 < w.base + w.size then 3
  else if mask = 0 ∨ (List.range (12 - min 12 h.cache.k)).any (fun b => mask / 2 ^ b % 2 = 1) then 5
  else if overlapsAny (((List.range 16).filter (fun j => j ≠ i && (h.kitty j).on)).map (fun j => ((h.kitty j).base, (h.kitty j).size)))
      w.base w.size then 2
  else 0

def execKwApply (init : Initiator) (s : State) : Host.Outcome State Fault Refusal :=
  onHub s (fun h => h.go init pCache 1 kwSel (fun h => h.putLongOp pCache (some ⟨1, h.kwCheck (kwSel h) h.stagedKw, kwSel h, false⟩)))

/-- Ways that hold a line of a scope, by place in the set. -/
def Hub.waysOf (h : Hub) (place : Nat → Bool) (scope : Way → Bool) : List Nat :=
  (h.cache.ways.filter (fun e : Nat × Way => place (e.1 % 16) && scope e.2)).map (·.1)

/-- A way that a fill, an update, a lock or a repair holds: the operation waits for it. -/
def Hub.wayBusy (h : Hub) (k : Nat) : Bool :=
  let w := h.way k
  w.held || decide (w.st = .filling ∨ w.st = .reducing ∨ w.st = .locked)

/-- Ways are written back and invalidated; once none of them holds a line the operation ends with f. -/
def Hub.clearThen (h : Hub) (ks : List Nat) (errs : Flips) (f : Hub → Hub) : Hub :=
  let h := h.emptyWays ks Hub.wayBusy errs
  (if ks.all (fun k => (h.way k).st == .invalid) then (f h).endOp pCache 0 else h).settleOn

def Hub.kwEnd (h : Hub) (o : LongOp) (errs : Flips) : Hub :=
  let w := h.stagedKw
  let old := h.kitty o.index
  if o.code ≠ 0 then h.endOp pCache o.code
  else if w.on then
    h.clearThen (h.waysOf (fun n => decide (n < 16 - h.cache.k)) (fun x => w.has h x.part.toNat x.line)) errs (fun h => h.putKitty o.index w)
  else
    h.clearThen (h.waysOf (fun _ => true) (fun x => x.pin && old.on && old.has h x.part.toNat x.line)) errs
      (fun h => h.putKitty o.index KittyWin.off)

/-! KITTY_FILL (R149) -/

/-- A KEEP read of a whole line of a partition, of the hub's own. -/
def keepRead (id p l now : Nat) : LineOp :=
  let part := BitVec.ofNat 6 p
  ⟨id, .read, .kitty, 0, 0, part, l, (ownCause part).hdr, BitVec.allOnes 256, 0, now, 0, false, 0,
    false, 0, false, false⟩

/-- The reads of a KITTY_FILL take their order instants as far as the slices have room: one for each line that is absent
(R133, R149). -/
def Hub.pumpKitty (h : Hub) : Nat → Hub
  | 0 => h
  | n + 1 =>
    let (p, l, left) := h.cache.kfill
    if left = 0 ∨ 256 ≤ h.sliceLoad (h.homeSlice p l) then h
    else
      let h := h.setCache { h.cache with kfill := (p, l + 1, left - 1) }
      if (h.findWay p l).isSome then h.pumpKitty n
      else
        let (id, h) := h.fresh
        (h.setLines { h.lines with ordered := h.lines.ordered ++ [keepRead id p l h.now] }).pumpKitty n

/-- The reads of a KITTY_FILL go on. -/
def Hub.kittyOn (h : Hub) : Hub := (h.pumpKitty h.cache.kfill.2.2).settleOn

/-- First line and number of lines of a window, as line indices of its owner's partition window. -/
def Hub.kittySpan (h : Hub) (w : KittyWin) : Nat × Nat :=
  ((w.base - (h.part w.owner).base.toNat) / 256, w.size / 256)

def execKittyFill (init : Initiator) (s : State) : Host.Outcome State Fault Refusal :=
  onHub s (fun h => h.go init pCache 2 kwSel (fun h =>
    let i := kwSel h
    let w := h.kitty i
    if !w.on then h.putLongOp pCache (some ⟨2, 4, i, false⟩)
    else (h.setCache { h.cache with kfill := (w.owner, h.kittySpan w) }).kittyOn))

/-- KITTY_FILL ends once every line of the window has been read (DEDUCED, log 37). -/
def Hub.kittyFillEnd (h : Hub) (o : LongOp) : Hub :=
  if o.code ≠ 0 then h.endOp pCache o.code
  else
    let h := h.kittyOn
    if h.cache.kfill.2.2 = 0 ∧ h.lines.ordered.all (fun x => !(x.src == .kitty && x.kind == .read)) then h.endOp pCache 0 else h

/-! FLUSH and SET_WAYS (R149) -/

/-- The lines in the scope of FLUSH_CTRL, a kitty window or partition being named by an index. -/
def Hub.flushScope (h : Hub) (scope i : Nat) (p l : Nat) : Bool :=
  if scope = 0 then true else if scope = 1 then p == i else (h.kitty i).has h p l

/-- What a FLUSH acts on: the partition of FLUSH_CTRL, else kitty window KW_SEL; OP_RESULT.INDEX shows it, with a SCOPE that names
neither too (DESIGN CHOICE, log 63). -/
def flushIndex (h : Hub) : Nat := if h.fld pCache 0x64 8 2 = 1 then h.fld pCache 0x64 0 6 else kwSel h

/-- FLUSH reaches every set at its GO: what is dirty then is written back (R149) (DEDUCED, log 37). -/
def execFlush (init : Initiator) (s : State) : Host.Outcome State Fault Refusal :=
  onHub s (fun h => h.go init pCache 3 flushIndex (fun h =>
    let scope := h.fld pCache 0x64 8 2
    let i := flushIndex h
    if scope = 3 ∨ (scope = 2 ∧ !(h.kitty i).on) then h.putLongOp pCache (some ⟨3, 4, i, false⟩)
    else h.setCache { h.cache with flush := h.dirtyLines (h.flushScope scope i) }))

/-- FLUSH ends once each line it found dirty has been written back. -/
def Hub.flushEnd (h : Hub) (o : LongOp) (errs : Flips) : Hub :=
  if o.code ≠ 0 then h.endOp pCache o.code
  else
    let h := h.cleanLines h.cache.flush errs
    let left := h.cache.flush.filter (fun e => h.lineDirty e.1 e.2)
    let h := h.setCache { h.cache with flush := left }
    (if left = [] then h.endOp pCache 0 else h).settleOn

/-- SET_WAYS; it acts on no window and no partition: OP_RESULT.INDEX is 0 (DESIGN CHOICE, log 63). -/
def execSetWays (init : Initiator) (s : State) : Host.Outcome State Fault Refusal :=
  onHub s (fun h => h.go init pCache 4 (fun _ => 0) (fun h =>
    let code := if (List.range 16).any (fun i => (h.kitty i).on) then 4 else if 12 < h.fld pCache 0x48 0 4 then 5 else 0
    h.putLongOp pCache (some ⟨4, code, 0, false⟩)))

/-- SET_WAYS ends: k ways are reserved, and no waiting allocation keeps a victim it chose before. -/
def Hub.setWaysEnd (h : Hub) (o : LongOp) (errs : Flips) : Hub :=
  let k := h.fld pCache 0x48 0 4
  if o.code ≠ 0 then h.endOp pCache o.code
  else h.clearThen (h.waysOf (fun n => decide (16 - k ≤ n)) (fun x => x.st != .invalid)) errs
      (fun h => h.setCache { h.cache with k := k, chosen := [] })

/-- An operation of the CACHE page ends. -/
def Hub.cacheOpEnd (h : Hub) (o : LongOp) (errs : Flips) : Hub :=
  match o.opcode with
  | 1 => h.kwEnd o errs
  | 2 => h.kittyFillEnd o
  | 3 => h.flushEnd o errs
  | _ => h.setWaysEnd o errs

/-! FORCE_FREE (R215) -/

def slotSel (h : Hub) : Nat := h.fld pTrick 0x70 0 8

def execForceFree (init : Initiator) (s : State) : Host.Outcome State Fault Refusal :=
  onHub s (fun h => h.go init pTrick 1 slotSel (fun h => h))

def Hub.forceFreeEnd (h : Hub) (i : Nat) : Hub :=
  let t := h.trick i
  if t.st = 0 ∨ t.st = 2 then h.endOp pTrick 1 else (h.putTrick i Trick.free).endOp pTrick 0

/-! Page tables (R203, R217, R218) -/

def pgSel (h : Hub) : Nat := h.fld pPagemgr 0x40 0 6

/-- Slots of the two ranges of a table in a segment that holds them. -/
def PageTable.slots (t : PageTable) (g : Nat) : List (Nat × Nat) :=
  let quad := bit t.ilv 0
  if !t.built ∨ (quad ∧ bitsNat t.ilv 1 2 ≠ g) then []
  else [(t.fwdFirst, if quad then t.w else ceilDiv t.w 4), (t.revFirst, if quad then t.p else ceilDiv t.p 4)]

/-- Slots in use in a segment: (first, number). -/
def Hub.usedSlots (h : Hub) (g : Nat) : List (Nat × Nat) := h.pages.tables.flatMap (fun e : Nat × PageTable => e.2.slots g)

/-- The lowest place where n slots are free in every segment named, beside ranges already chosen (R203). -/
def Hub.placeSlots (h : Hub) (gs : List Nat) (n : Nat) (taken : List (Nat × Nat)) : Option Nat :=
  let used := taken ++ gs.flatMap h.usedSlots
  let ok (x : Nat) : Bool := decide (x + n ≤ 2097152) && !used.any (fun r => decide (r.1 < x + n ∧ x < r.1 + r.2))
  (((0 :: used.map (fun r => r.1 + r.2)).filter ok).mergeSort (fun a b => decide (a ≤ b))).head?

/-- Free slots of a segment (SLOTS_FREE_SEGn). -/
def Hub.slotsFree (h : Hub) (g : Nat) : Nat := 2097152 - ((h.usedSlots g).map (·.2)).sum

def execTableBuild (init : Initiator) (s : State) : Host.Outcome State Fault Refusal :=
  onHub s (fun h => h.go init pPagemgr 1 pgSel (fun h => h))
def execTableFree (init : Initiator) (s : State) : Host.Outcome State Fault Refusal :=
  onHub s (fun h => h.go init pPagemgr 2 pgSel (fun h => h))
def execXlate (init : Initiator) (s : State) : Host.Outcome State Fault Refusal :=
  onHub s (fun h => h.go init pPagemgr 3 pgSel (fun h => h))

/-- TABLE_BUILD: every page UNALLOCATED, every backing page FREE_DIRTY. -/
def Hub.tableBuildEnd (h : Hub) (p : Nat) : Hub :=
  let c := h.part p
  if c.enabled ∨ (h.table p).built then h.endOp pPagemgr 1
  else if !c.managed then h.endOp pPagemgr 2
  else
    let w := c.units * 32
    let n := c.count * h.bigD / 256
    let gs := if c.quad then [c.seg] else [0, 1, 2, 3]
    let nf := if c.quad then w else ceilDiv w 4
    let nr := if c.quad then n else ceilDiv n 4
    match h.placeSlots gs nf [] with
    | none => h.endOp pPagemgr 3
    | some f =>
      match h.placeSlots gs nr [(f, nf)] with
      | none => h.endOp pPagemgr 3
      | some r =>
        let ilv : BitVec 3 := BitVec.ofNat 3 ((if c.quad then 1 else 0) + 2 * c.seg)
        let h := (h.freeTable p).putTable p ⟨true, c.units, c.first, c.count, ilv, f, r, w, n⟩
        let h := h.setPages { h.pages with noSpace := SMap.set (fun _ => 0) h.pages.noSpace p 0 }
        (h.noteLow p).endOp pPagemgr 0

def Hub.tableFreeEnd (h : Hub) (p : Nat) : Hub :=
  if (h.part p).enabled ∨ !(h.table p).built then h.endOp pPagemgr 1 else ((h.freeTable p).noteLow p).endOp pPagemgr 0

def Hub.xlateEnd (h : Hub) (p : Nat) : Hub :=
  let t := h.table p
  let page := h.fld pPagemgr 0x70 0 26
  let rev := bit (h.rd pPagemgr 0x70) 31
  if !t.built then h.endOp pPagemgr 1
  else if (if rev then t.p else t.w) ≤ page then h.endOp pPagemgr 4
  else (h.wr64 pPagemgr 0x74 (if rev then h.rev p page else h.fwd p page).toNat).endOp pPagemgr 0

def Hub.pagemgrOpEnd (h : Hub) (o : LongOp) : Hub :=
  match o.opcode with
  | 1 => h.tableBuildEnd o.index
  | 2 => h.tableFreeEnd o.index
  | _ => h.xlateEnd o.index

end Sys2Proof.Machine
end

