-- ==== Sys2Proof/Machine/Power.lean ====
section
/-!
DEFINITION. The power-domain handshake (R90 to R92, R295, R419): stack domains 0 to 7, host domains 8 to 15.
-/
namespace Sys2Proof.Machine

def setLvl (x : BitVec 16) (n : Nat) (b : Bool) : BitVec 16 := putBit x n b

def Hub.putAck (h : Hub) (n : Nat) (b : Bool) : Hub := h.setPins { h.pins with pdAck := setLvl h.pins.pdAck n b }
def Hub.putNak (h : Hub) (n : Nat) (b : Bool) : Hub := h.setPins { h.pins with pdNak := setLvl h.pins.pdNak n b }

/-- Channels whose work touches host domain n (R295). -/
def Hub.touching (h : Hub) (n : Nat) : List Nat :=
  (List.range 64).filter (fun c => (h.domains (h.dmaCh c) (h.descAddr c)).contains n)

/-- A channel still at work: running, draining, or with a descriptor access outstanding. -/
def Dma.busy (d : Dma) : Bool := d.st == 2 || d.st == 3 || d.st == 7 || d.fetchReq != 0 || d.finishReq != 0

/-- A running channel stops as PAUSE stops, towards PAUSED_BY_POWER; one whose START or RESUME has issued nothing is held. -/
def Hub.powerStop (h : Hub) (c : Nat) : Hub :=
  let d := h.dmaCh c
  if (d.st = 1 ∨ d.st = 6) ∧ d.fetch ≠ 0 ∧ d.fetchReq = 0 then h.dmaRun c
  else if (d.st = 2 ∨ d.st = 3) ∧ d.stopFor = 0 then (h.putDma c { d with stopFor := 3, prior := d.st, st := 7 }).dmaSettle c else h

/-- PD_REQ rises (R90, R91) (DEDUCED, log 29). -/
def Hub.pdRise (h : Hub) (n : Nat) : Hub :=
  if bit h.pins.pdReq n then h
  else
    let h := h.setPins { h.pins with pdReq := setLvl h.pins.pdReq n true }
    if h.inReset then h
    else if !h.afterS7 then (if n < 8 then h.putNak n true else h.putAck n true)
    else if n < 8 then (if h.stackLive n then h.putNak n true else h)
    else (h.touching n).foldl (fun h c => h.powerStop c) h

def execPdReqRise (domain : BitVec 4) (s : State) : Host.Outcome State Fault Refusal := onHub s (fun h => h.pdRise domain.toNat)

/-- PD_ACK rises: the stack's channels are OFFLINE and its temperature is no longer read, or every touching channel has stopped
(R90, R295, R419, R425). A slab that became
LIVE or TARGET since the request turns it into PD_NAK (DEDUCED, log 29). -/
def Hub.pdAckRise (h : Hub) (n : Nat) : Hub :=
  if h.inReset ∨ !bit h.pins.pdReq n ∨ bit h.pins.pdAck n ∨ bit h.pins.pdNak n then h
  else if n < 8 then
    if h.stackLive n then h.putNak n true else ((h.stackOffline n).unread n).putAck n true
  else if (h.touching n).any (fun c => (h.dmaCh c).busy) then h
  else h.putAck n true

def execPdAckRaise (domain : BitVec 4) (s : State) : Host.Outcome State Fault Refusal :=
  onHub s (fun h => h.pdAckRise domain.toNat)

/-- A channel held by a power-down goes on where it stood, unless another requested domain holds it (R92, R295). -/
def Hub.powerResume (h : Hub) (c : Nat) : Hub :=
  let d := h.dmaCh c
  if (h.domains d (h.descAddr c)).any (fun m => bit h.pins.pdReq m) then h
  else if d.st = 7 ∧ d.stopFor = 3 then (h.putDma c { d with stopFor := 0 }).dmaEnter c d.prior
  else if d.st ≠ 5 then h
  else if d.pausePend then (h.putDma c { d with pausePend := false }).dmaEnter c 4
  else
    let h := (h.dmaEnter c d.prior).dmaSettle c
    if (h.dmaCh c).fetch ≠ 0 ∧ (h.dmaCh c).fetchReq = 0 then h.issueFetch c else h

/-- PD_REQ falls: PD_ACK and PD_NAK fall; paused channels go on, a powered-down stack is brought back (R90 to R92, R419)
(DEDUCED, log 29). -/
def Hub.pdFall (h : Hub) (n : Nat) (r : OpEnd) : Hub :=
  if !bit h.pins.pdReq n then h
  else
    let acked := bit h.pins.pdAck n
    let h := ((h.setPins { h.pins with pdReq := setLvl h.pins.pdReq n false }).putAck n false).putNak n false
    if h.inReset ∨ !h.afterS7 then h
    else if n < 8 then (if acked ∧ (h.stack n).populated then (h.takeTiming n).stackRestart n r else h)
    else (List.range 64).foldl (fun h c => h.powerResume c) h

def execPdReqFall (domain : BitVec 4) (result : OpEnd) (s : State) : Host.Outcome State Fault Refusal :=
  onHub s (fun h => h.pdFall domain.toNat result)

end Sys2Proof.Machine
end

