-- ==== Sys2Proof/Machine/JournalOps.lean ====
section
/-!
DEFINITION. The journal writer's commits and what waits for each (R433, R458, R460 to R462), the operations of the JOURNAL page
(R465, R467), and the end of every page's long operation (R482).
-/
namespace Sys2Proof.Machine

/-! Commits (R458, R461) -/

/-- TRIP is committed: steps 5 and 6 of a trip; credits are granted again (R433, R435). -/
def Hub.tripCommitted (h : Hub) : Hub :=
  let h := (h.setTherm { h.therm with trip := 4 }).wrFld pTherm 0x44 0 2 2
  h.releaseOwed

/-- STAGE is committed: the next stage may begin (R400). -/
def Hub.stageCommitted (h : Hub) : Hub :=
  (h.setBoot { h.boot with waitCommit := h.journal.queue.any (fun e => e.typ == 1) }).proceed.startEnds

/-- An APPEND of a C entry ends at its commit (R467). -/
def Hub.appendCommitted (h : Hub) (e : JEntry) : Hub :=
  match h.opOf pJournal with
  | some o => if o.waits ∧ bit e.flags 0 ∧ bit e.flags 1 then h.endOp pJournal 0 else h
  | none => h

/-- What waits for an entry's commit takes place (DEDUCED, log 25). -/
def Hub.committed (h : Hub) (e : JEntry) : Hub :=
  let p := e.payload
  let w := word32 p 0
  match e.typ.toNat with
  | 1 => h.stageCommitted
  | 2 => h.commitRepair (w % 2048) (w / 2048 % 4) (w / 8192 % 4) (w / 65536 % 32768)
  | 3 => h.commitRetireStart (half16 p 0) (half16 p 1) (half16 p 2)
  | 4 => h.commitRetireEnd (half16 p 0) (half16 p 1) (half16 p 2)
  | 5 => h.commitAbandon (half16 p 0) (half16 p 1) (half16 p 2)
  | 6 => h.commitPending (half16 p 0)
  | 7 => h.commitReadmit (half16 p 0)
  | 8 => h.tripCommitted
  | 9 => h.releaseCommitted (leNat (p.take 1))
  | 10 => h.fuseCommitted
  | 11 => h.warmCommitted
  | _ => h.appendCommitted e

/-- A checkpoint goes in front of the queue when entry n, whose effect has taken place, enters a sector whose index is a multiple of 8 (R462)
(DEDUCED, log 25). -/
def Hub.enterSector (h : Hub) (n : Nat) : Hub :=
  if n % 1024 = 0 ∧ journalSector n % 8 = 0 then h.setJournal { h.journal with queue := h.checkpoint ++ h.journal.queue } else h

/-- The writer writes its next entry: C, H and K entries first; the read-back of both copies is right, or the entry is written
again under the next SEQ. -/
def Hub.writerTurn (h : Hub) (readBack : ReadBack) : Hub :=
  if h.inReset ∨ !h.pastS0 ∨ !h.slotFree then h
  else
    let j := h.journal
    let n := j.seq
    match j.queue, j.ordinary with
    | e :: rest, _ =>
      if readBack ≠ .right then (h.tearEntry e readBack).enterSector n
      else ((((h.setJournal { j with queue := rest }).writeEntry e).committed e).enterSector n).pairOpGoes
    | [], e :: rest =>
      if readBack ≠ .right then (h.tearEntry e readBack).enterSector n
      else (((h.setJournal { j with ordinary := rest }).writeEntry e).committed e).enterSector n
    | [], [] => h

/-- The entry the writer takes next is a trip's. -/
def Hub.nextIsTrip (h : Hub) : Bool := !h.inReset && h.pastS0 && h.slotFree && (match h.journal.queue with
  | e :: _ => e.typ == 8
  | [] => false)

/-- JOURNAL_COMMIT; at the commit of a TRIP entry THERM_TRIP_N is asserted (R433 step 6, R461). -/
def execJournalCommit (readBack : ReadBack) (s : State) : Host.Outcome State Fault Refusal :=
  .next { s with hub := s.hub.writerTurn readBack, tripped := s.tripped || (decide (readBack = .right) && s.hub.nextIsTrip) }

/-- The next of the two sectors ahead of the head that is not erased is erased in both halves (R460). -/
def Hub.eraseAhead (h : Hub) : Hub :=
  if h.inReset ∨ !h.pastS0 then h
  else
    let s := journalSector h.journal.seq
    let go (i : Nat) (h : Hub) : Hub :=
      let t := (s + i) % 128
      [0, 1].foldl (fun h x => h.eraseFlash (0x2000000 + 0x800000 * x + 65536 * t) 65536) h
    if !h.sectorErased ((s + 1) % 128) then go 1 h else if !h.sectorErased ((s + 2) % 128) then go 2 h else h

def execJournalSectorErased (s : State) : Host.Outcome State Fault Refusal := onHub s (fun h => h.eraseAhead)

/-! Operations of the JOURNAL page (R467) -/

/-- READ: entry RD from a valid copy. -/
def Hub.journalReadGo (h : Hub) : Hub :=
  let n := h.rd64 pJournal 0x60
  let slot := n % 131072
  let copies := ([0, 1].filterMap (fun x => h.copyAt ((n + x) % 2) slot))
  let erased : Bool := [0, 1].all (fun x => (h.flashBytes (journalCopy n x) 64).all (fun b => b == 0xFF))
  let result (h : Hub) (code : Nat) : Hub := h.putLongOp pJournal (some ⟨1, code, 0, false⟩)
  if !h.pastS0 then result h 1
  else match copies.find? (fun b => entrySeq b == n), copies with
    | some b, _ => result (h.setJournal { h.journal with rdData := b }) 0
    | none, _ :: _ => result h 2
    | none, [] => if erased then result h 2 else result (h.setJournal { h.journal with rdData := [] }) 3

def execJournalRead (init : Initiator) (s : State) : Host.Outcome State Fault Refusal :=
  onHub s (fun h => h.go init pJournal 1 (fun _ => 0) (fun h => h.journalReadGo))

/-- APPEND: an entry of APPEND_TYPE; a C entry ends when it is committed, an O entry when it is queued. -/
def Hub.appendGo (h : Hub) : Hub :=
  let typ := BitVec.ofNat 16 (h.fld pJournal 0x78 0 16)
  let data := (List.range 9).flatMap (fun i => bytesOf (h.rd pJournal (0xC0 + 4 * i)))
  let result (h : Hub) (code : Nat) : Hub := h.putLongOp pJournal (some ⟨2, code, 0, false⟩)
  if !h.pastS0 then result h 1
  else if h.fld pJournal 0x78 16 1 = 1 then
    (h.opWaits pJournal 0).setJournal { h.journal with queue := h.journal.queue ++ [⟨typ, 3, false, data⟩] }
  else (result h (if h.dropsOrdinary then 4 else 0)).submitO typ.toNat 2 data

def execAppend (init : Initiator) (s : State) : Host.Outcome State Fault Refusal :=
  onHub s (fun h => h.go init pJournal 2 (fun _ => 0) (fun h => h.appendGo))

/-! The end of a long operation (R482) -/

/-- The running operation of a page ends, by the unit that runs it (DEDUCED, log 37). -/
def Hub.opEnd (h : Hub) (page : Nat) (o : LongOp) (r : OpEnd) : Hub :=
  match pageClass page with
  | some .part => h.partOpEnd o
  | some .cache => h.cacheOpEnd o r.errs
  | some .trick => h.forceFreeEnd o.index
  | some .pagemgr => h.pagemgrOpEnd o
  | some .farport => h.farOpEnd o
  | some .boot => h.bootOpEnd o r
  | some .gate => if o.opcode = 1 then h.dealEnd else if o.opcode = 2 then h.stopEnd else h.cancelEnd
  | some .ras => if o.opcode = 1 ∧ o.code = 0 then h.readmitEnd o.index r else h.endOp page o.code
  | some .perf => if o.opcode = 1 then h.dumpStartEnd else h.endOp page o.code
  | _ => h.endOp page o.code

/-- LONG_OP_END; an operation that waits for a commit or for its unit ends there instead (DEDUCED, log 37). -/
def execLongOpEnd (page : BitVec 12) (result : OpEnd) (s : State) : Host.Outcome State Fault Refusal :=
  match s.hub.opOf page.toNat with
  | none => .next s
  | some o =>
    if s.hub.inReset ∨ o.waits then .next s
    else if page.toNat = pSec then .next (secOpEnd s o result)
    else onHub s (fun h => h.withRoom (fun h => h.opEnd page.toNat o result))

end Sys2Proof.Machine
end

