-- ==== Sys2Proof/Machine/RegView.lean ====
section
/-!
DEFINITION. What a register of the window shows when it is read (R471): the common header (R475), the registers that follow a unit
of the hub page by page, and the latched HI halves (R472). A register named here nowhere shows what it holds.
-/
namespace Sys2Proof.Machine

def w32 (n : Nat) : Word := BitVec.ofNat 32 n

/-- An integer in w bits, two's complement. -/
def twos (w : Nat) (i : Int) : Nat := (i % (2 ^ w : Nat)).toNat

/-- Bit i is f i, for the n values from lo. -/
def bitMap (lo n : Nat) (f : Nat → Bool) : Word :=
  w32 ((List.range n).map (fun i => if f (lo + i) then 2 ^ i else 0)).sum

def halfOf (v : Nat) (hi : Bool) : Word := if hi then w32 (v / 2 ^ 32) else w32 v

/-! Units, page by page: the value shown; none: the word held -/

/-- HUB page (R75, R245, R484 to R487) (DESIGN CHOICE, log 14). -/
def Hub.showHub (h : Hub) (off : Nat) : Option Word :=
  match off with
  | 0x40 => some Config.hubInfo
  | 0x4C =>
    some (bitMap 0 16 h.pagePending ||| (bitMap 0x80 8 h.pagePending <<< 16) |||
      (if (List.range 64).any (fun c => h.pagePending (pDma c)) then 0x1000000 else 0))
  | 0x50 => some (bitMap 0x10 32 h.pagePending)
  | 0x54 => some (bitMap 0x30 32 h.pagePending)
  | 0x64 => some (SMap.get routeReset h.irq.route (h.fld pHub 0x60 0 12))
  | 0x6C => some ((SMap.get (fun _ => (0 : BitVec 6)) h.irq.owner (h.fld pHub 0x68 0 6)).setWidth 32)
  | 0x70 => some (bitMap 0 32 (fun v => (SMap.get (fun _ => none) h.irq.waiting v).isSome))
  | 0x74 => some (bitMap 32 32 (fun v => (SMap.get (fun _ => none) h.irq.waiting v).isSome))
  | 0x14C => some (w32 (h.pins.bootSeq.toNat + 2 * h.pins.fastOk.toNat + 4 * h.pins.supplyWarn.toNat))
  | 0x150 => some (w32 (h.pins.pdAck.toNat + 65536 * h.pins.pdNak.toNat))
  | 0x170 => some (halfOf h.tm.epoch.toNat false)
  | 0x174 => some (halfOf h.tm.epoch.toNat true)
  | _ => none

/-- BOOT page (R403, R420): FIT and the excluded channels of STACK_SEL. -/
def Hub.showBoot (h : Hub) (off : Nat) : Option Word :=
  match off with
  | 0x48 => some (h.pins.stackFit.setWidth 32)
  | 0x58 => some (bitMap 0 32 (fun c => (h.pc (h.fld pBoot 0x54 0 3 * 64 + 2 * c)).st == 5))
  | _ => none

/-- PERCENT of the running wipe: offsets of its set written (R392) (DEDUCED, log 46). -/
def Hub.wipePercent (h : Hub) (w : Wipe) : Nat :=
  let n := slabLines h.amap.dens
  100 * (w.at_ * n + w.off) / max 1 (w.slabs.length * n)

/-- SEC page (R394, R395). -/
def Hub.showSec (h : Hub) (f : Fuses) (off : Nat) : Option Word :=
  let q := h.pair (secPeer h)
  if 0x80 ≤ off ∧ off < 0xB0 then some ((h.measurement f (h.fld pSec 0x78 0 3)).extractLsb' (8 * (off - 0x80)) 32)
  else match off with
  | 0x4C => some (halfOf h.keyState false)
  | 0x50 => some (halfOf h.keyState true)
  | 0x5C => some (w32 (q.master.isSome.toNat + 2 * q.offer.isSome.toNat + 65536 * (q.txGen.toNat % 256) +
      16777216 * (q.rxGen.toNat % 256)))
  | 0x60 => some (halfOf q.txFrames false)
  | 0x64 => some (halfOf q.txFrames true)
  | 0x70 => match h.sec.wipes with
    | [] => some 0
    | w :: rest => some (w32 (1 + 256 * w.part.toNat + 65536 * h.wipePercent w + 16777216 * rest.length))
  | _ => none

def partWord (c : PartCfg) (off : Nat) : Word :=
  match off with
  | 0x44 => putBit c.cfg 31 c.enabled
  | 0x48 => halfOf c.base.toNat false
  | 0x4C => halfOf c.base.toNat true
  | 0x50 => w32 c.units
  | 0x54 => w32 c.first
  | 0x58 => w32 c.count
  | 0x5C => c.ports
  | 0x60 => halfOf c.dma.toNat false
  | _ => halfOf c.dma.toNat true

/-- PART page: the partition of PART_SEL (R122). -/
def Hub.showPart (h : Hub) (off : Nat) : Option Word :=
  if 0x44 ≤ off ∧ off < 0x68 then some (partWord (h.part (partSel h)) off) else none

/-- MAP page (R113, R126). EMPTY follows FREE from reset on, though the word's reset value is given as 0 (DESIGN CHOICE, log 62). -/
def Hub.showMap (h : Hub) (off : Nat) : Option Word :=
  match off with
  | 0x48 =>
    some (w32 (h.amap.count + 65536 * ((List.range h.amap.count).filter (fun k => (h.lslab k).st == 3)).length))
  | 0x50 => some (w32 (h.talonFree + 256 * h.amap.talonTotal + (if h.talonFree = 0 then 65536 else 0)))
  | 0x54 => some (halfOf (Config.defaultBaseGiB.toNat * 2 ^ 30) false)
  | 0x58 => some (halfOf (Config.defaultBaseGiB.toNat * 2 ^ 30) true)
  | 0x64 =>
    let k := h.fld pMap 0x60 0 11
    let v := h.lslab k
    let own := match h.slabOwner k with
      | some p => 0x800000 + 0x1000000 * p
      | none => 0
    some (w32 (v.phys.toNat + 4096 * v.home.toNat + 65536 * v.st.toNat + own))
  | 0x6C =>
    let v := h.pslab (h.fld pMap 0x68 0 11)
    let prev := match v.prev with
      | some k => 0x80000 + 0x100000 * k.toNat
      | none => 0
    some (w32 (v.st.toNat + 256 * v.logical.toNat + prev))
  | 0x74 => some (w32 (h.setEntry (h.fld pMap 0x70 0 11)))
  | 0x804 => some (w32 (h.deckEntry (h.fld pMap 0x800 16 6) (h.fld pMap 0x800 0 12)))
  | _ => none

/-- CACHE page (R148). -/
def Hub.showCache (h : Hub) (off : Nat) : Option Word :=
  match off with
  | 0x4C => some (w32 h.cache.k ||| (bitMap 0 16 (fun i => (h.kitty i).on) <<< 16))
  | 0x6C => some (w32 (h.cache.ways.filter (fun e : Nat × Way => e.2.st != .invalid && e.2.pin)).length)
  | _ => none

/-- TRICK page (R214). -/
def Hub.showTrick (h : Hub) (off : Nat) : Option Word :=
  match off with
  | 0x44 => some (w32 (h.tricks.filter (fun e : Nat × Trick => e.2.st != 0)).length)
  | 0x74 =>
    let t := h.trick (slotSel h)
    some (w32 (t.st.toNat + (if t.tooLarge = 0 then 0 else 4) + 256 * t.port.toNat + 65536 * t.part.toNat +
      16777216 * t.lines.length + 536870912 * t.conds.length))
  | _ => none

/-- PAGEMGR page: the partition of SEL (R216). -/
def Hub.showPagemgr (h : Hub) (off : Nat) : Option Word :=
  let p := pgSel h
  let t := h.table p
  let (used, clean, dirty) := h.pageCounts p
  let moving : Bool := h.pages.moves.any (fun e : Nat × Option PageMove => match e.2 with
    | some m => m.part.toNat == p
    | none => false)
  match off with
  | 0x44 => some (w32 (t.built.toNat + 2 * (h.part p).stale.toNat + 4 * moving.toNat + 8 * (h.pageLow p).toNat))
  | 0x48 => some (w32 t.p)
  | 0x4C => some (w32 used)
  | 0x50 => some (w32 clean)
  | 0x54 => some (w32 dirty)
  | 0x58 => some ((SMap.get (fun _ => (0xFFFFFF : BitVec 24)) h.pages.limit p).setWidth 32)
  | 0x5C => some ((SMap.get (fun _ => (0 : BitVec 24)) h.pages.low p).setWidth 32)
  | 0x60 => some ((SMap.get (fun _ => (4 : BitVec 4)) h.pages.weight p).setWidth 32)
  | 0x64 => some (w32 (SMap.get (fun _ => 0) h.pages.noSpace p))
  | 0x68 => some (w32 t.fwdFirst)
  | 0x6C => some (w32 t.revFirst)
  | 0x80 => some (w32 (h.slotsFree 0))
  | 0x84 => some (w32 (h.slotsFree 1))
  | 0x88 => some (w32 (h.slotsFree 2))
  | 0x8C => some (w32 (h.slotsFree 3))
  | _ => none

/-- The policer and the shaper that the TM page shows. -/
def Hub.polSel (h : Hub) : Nat := h.fld pTm 0x40 0 6 * 2 + h.fld pTm 0x40 8 1
def Hub.shpSel (h : Hub) : Nat := h.fld pTm 0x70 0 4 * 8 + h.fld pTm 0x70 4 3

/-- TM page (R268, R269): the values written (DESIGN CHOICE, log 52). -/
def Hub.showTm (h : Hub) (off : Nat) : Option Word :=
  let q := h.policer h.polSel
  let x := h.shaper h.shpSel
  match off with
  | 0x44 => some q.cfg
  | 0x48 => some q.cir
  | 0x4C => some q.pir
  | 0x50 => some q.cbs
  | 0x54 => some q.pbs
  | 0x58 => some (w32 q.green)
  | 0x5C => some (w32 q.yellow)
  | 0x60 => some (w32 q.red)
  | 0x74 => some x.cfg
  | 0x78 => some x.rate
  | 0x7C => some x.burst
  | 0x80 => some (w32 (twos 32 (x.tokens / 256)))
  | _ => none

/-- GATE page: the list, bank and entry shown (R260, R271). -/
def Hub.showGate (h : Hub) (off : Nat) : Option Word :=
  let (l, b) := h.gateSel
  let g := h.gate l
  match off with
  | 0x48 => some (h.gateEntry l b (h.fld pGate 0x44 0 6))
  | 0x4C => some (h.bankCfgOf l b)
  | 0x50 => some (halfOf g.base.toNat false)
  | 0x54 => some (halfOf g.base.toNat true)
  | 0x58 => some (w32 (g.st.toNat + 4 * g.bank.toNat + 8 * g.pend.toNat + 16 * g.late.toNat + 256 * g.cur))
  | 0x5C => some (w32 g.skipped)
  | 0x60 => some (if g.running then w32 (h.bankCycle l g.bank.toNat) else 0)
  | 0x64 => some (halfOf g.start.toNat false)
  | 0x68 => some (halfOf g.start.toNat true)
  | 0x6C => some (w32 g.held)
  | 0x70 => some (w32 g.overrun)
  | 0x74 => some (w32 g.oversize)
  | 0x800 => some (g.overrunCfg.setWidth 32)
  | _ => none

/-- Lines the scrubber walks in a physical slab (R344): its FILLED chunks and its metadata offsets (DESIGN CHOICE, log 30). -/
def Hub.walkLines (h : Hub) (ps : Nat) : Nat :=
  let k := (h.pslab ps).logical.toNat
  let chunks := (h.ras.filled.filter (fun e : Nat × BitVec 64 => e.1 / 256 == k)).map
    (fun e : Nat × BitVec 64 => ((List.range 64).filter (bit e.2)).length)
  128 * chunks.sum + (slabLines h.amap.dens - h.bigD)

/-- Progress of the pass, a slab at a time (DESIGN CHOICE, log 30). -/
def Hub.scrubPercent (h : Hub) : Nat :=
  let slabs := h.scrubStacks.flatMap (fun st => ((List.range 256).map (fun i => (st, i))).filter (fun x => (h.pslab (x.1 * 256 + x.2)).st == 1))
  let size (x : Nat × Nat) : Nat := h.walkLines (x.1 * 256 + x.2)
  let past := slabs.filter (fun x => (h.scrubOf x.1).done || decide (x.2 < (h.scrubOf x.1).ps))
  100 * (past.map size).sum / max 1 (slabs.map size).sum

/-- RAS page (R358, R359): a retirement whose RETIRE_START is not committed yet is no migration. -/
def Hub.showRas (h : Hub) (off : Nat) : Option Word :=
  let running := h.ras.migs.filter (fun m => m.phase != 0)
  let m := running[h.fld pRas 0x90 0 2]?
  match off with
  | 0x7C =>
    let v := h.pslab (h.fld pRas 0x78 0 11)
    some (w32 (v.ce + 65536 * v.ue + 16777216 * v.repairs + 268435456 * v.readmitted.toNat))
  | 0x84 =>
    let run : Bool := decide (h.fld pRas 0x80 31 1 = 1) && !h.scrubStacks.isEmpty
    some (w32 (h.fld pRas 0x84 0 16 + (if run then 16777216 + 65536 * h.scrubPercent else 0)))
  | 0x8C => some (w32 (running.length + 256 * h.ras.pending.length))
  | 0x94 => match m with
    | some x => some (w32 (x.k + 4096 * x.b + 16777216))
    | none => some 0
  | 0x98 => match m with
    | some x => some (w32 x.wm)
    | none => some 0
  | 0x9C => some (w32 (4096 - h.ras.table.length + 65536 * min 31 h.ras.repairs.length))
  | _ => none

/-- The source of the highest reading (R441); the lowest number among equals (DESIGN CHOICE, log 32). -/
def Hub.hottest (h : Hub) : Option Nat :=
  ((List.range 24).filter (fun i => (h.source i).valid)).foldl
    (fun m i => match m with
      | none => some i
      | some j => if (h.source j).last < (h.source i).last then some i else some j) none

/-- THERM page (R430, R441, R442). -/
def Hub.showTherm (h : Hub) (off : Nat) : Option Word :=
  let x := h.source (h.fld pTherm 0x48 0 5)
  match off with
  | 0x4C => some (w32 (if x.valid then degByte x.last + 256 + 512 * x.fail.toNat else 0))
  | 0x50 => some (w32 (twos 12 x.last))
  | 0x54 => match x.rise with
    | some r => some (w32 (twos 12 (r / 2) + 4096))
    | none => some 0
  | 0x58 => match h.hottest with
    | some i => some (w32 (i + 256 * degByte (h.source i).last))
    | none => some 0
  | 0x64 => some (putBits (h.rd pTherm 0x64) 0 3 h.throttle)
  | 0x804 => some ((SMap.get (fun _ => (0 : BitVec 24)) h.therm.coef (h.fld pTherm 0x800 0 3)).setWidth 32)
  | _ => none

/-- PERF page: the oldest sample, and the global counters (R450, R455). -/
def Hub.showPerf (h : Hub) (off : Nat) : Option Word :=
  let r := h.perf.fifo.head?
  let cnt := SMap.get (fun _ => 0) h.perf.cnt ((off - 0x100) / 16)
  if 0x100 ≤ off ∧ off < 0x500 ∧ off % 16 = 4 then some (halfOf cnt false)
  else if 0x100 ≤ off ∧ off < 0x500 ∧ off % 16 = 8 then some (halfOf cnt true)
  else match r, off with
  | some x, 0x58 => some (halfOf x.addr.toNat false)
  | some x, 0x5C => some (halfOf x.addr.toNat true)
  | some x, 0x60 => some x.info
  | some x, 0x64 => some x.src
  | none, 0x58 => some 0
  | none, 0x5C => some 0
  | none, 0x60 => some 0
  | none, 0x64 => some 0
  | _, _ => none

/-- MGMT_ALERT_N is asserted (R95, R464) (DESIGN CHOICE, log 31). -/
def Hub.alert (h : Hub) : Bool :=
  match h.journal.crit, h.journal.ack with
  | some c, some a => decide (a < c)
  | some _, none => true
  | none, _ => false

/-- JOURNAL page (R464 to R466). -/
def Hub.showJournal (h : Hub) (off : Nat) : Option Word :=
  let j := h.journal
  if 0x80 ≤ off ∧ off < 0xC0 then some (w32 (leNat ((j.rdData.drop (off - 0x80)).take 4)))
  else if 0x400 ≤ off ∧ off < 0x800 then
    some (w32 (leNat ((List.range 4).map (fun i => SMap.get (fun _ => (0 : Byte)) j.recent (off - 0x400 + i)))))
  else match off with
  | 0x44 => some (w32 (h.pastS0.toNat + 2 * (!j.queue.isEmpty || !j.ordinary.isEmpty).toNat + 4 * (!h.twoErased).toNat + 8 * h.alert.toNat))
  | 0x48 => some (halfOf (j.head.getD 0) false)
  | 0x4C => some (halfOf (j.head.getD 0) true)
  | 0x50 => some (halfOf (j.crit.getD 0) false)
  | 0x54 => some (halfOf (j.crit.getD 0) true)
  | 0x58 => some j.ackLo
  | 0x5C => some (halfOf (j.ack.getD 0) true)
  | 0x68 => some j.boot
  | _ => none

/-- FARPORT page (R311, R321, R323). -/
def Hub.showFarport (h : Hub) (off : Nat) : Option Word :=
  let p := h.farPort (h.fld pFarport 0x44 0 2)
  let peer := h.fld pFarport 0x50 0 10
  let q := h.pair peer
  match off with
  | 0x48 => some (w32 (p.st.toNat + 4 * p.width.toNat + 16 * p.linkUp.toNat + 256 * p.lanesOk.toNat + 65536 * p.lanesUsed.toNat))
  | 0x4C => some (w32 p.enable.toNat)
  | 0x54 => some (w32 (q.st.toNat + 4 * (h.pairPort peer).getD 0 + 256 * q.rdCrd + 65536 * q.wrCrd))
  | 0x70 => some (w32 (4096 - h.granted * h.fld pFarport 0x6C 0 8 + 65536 * (1024 - h.granted * h.fld pFarport 0x6C 8 8)))
  | _ => none

/-- DMA page of a channel (R290, R302). -/
def Hub.showDma (h : Hub) (ch off : Nat) : Option Word :=
  let d := h.dmaCh ch
  match off with
  | 0x50 => some (w32 (d.st.toNat + 8 * d.pausePend.toNat + 16 * d.result + 256 * d.resp + 2048 * d.overlap.toNat))
  | _ => none

def Hub.queueStatus (h : Hub) (i : Nat) : Word :=
  let c := h.pc i
  w32 (min 64 (c.rd.filter (fun e => !e.narrow)).length + 256 * min 32 (c.rd.filter (fun e => e.narrow)).length +
    65536 * min 64 c.wr.length + (if c.drain = 0 then 0 else 16777216))

/-- CHE page of an engine (R242, R447). -/
def Hub.showChe (h : Hub) (e off : Nat) : Option Word :=
  if 0xD0 ≤ off ∧ off < 0xE0 then some (SMap.get (fun _ => (0 : Word)) h.perf.eng (4 * e + (off - 0xD0) / 4))
  else match off with
  | 0x40 => some (h.queueStatus (2 * e))
  | 0x44 => some (h.queueStatus (2 * e + 1))
  | 0x54 => some (putBits (putBits (h.rd (pChe e) 0x54) 16 2 (h.recentParity (2 * e))) 18 2 (h.recentParity (2 * e + 1)))
  | 0x5C => some (w32 ((h.pc (2 * e)).st.toNat + 16 * (h.pc (2 * e + 1)).st.toNat))
  | _ => none

/-! The header (R475) -/

/-- READY: from the end of the stage at which the page opens to the management core; 0 on the pages of an absent stack and of a
channel EXCLUDED or OFFLINE. -/
def Hub.pageReady (h : Hub) (c : PageClass) (page : Nat) : Bool :=
  h.pageOpen .mgmt c && match c with
    | .stk => (h.stack (page - 0x80)).populated
    | .che =>
      let st := (h.pc (2 * (page - 0x100))).st
      (h.stack ((page - 0x100) / 32)).populated && st != 4 && st != 5
    | _ => true

/-- The words of the header. -/
def Hub.showHeader (h : Hub) (c : PageClass) (page off : Nat) : Word :=
  match off with
  | 0x00 => w32 (1 + 65536 * pageInstance page + 16777216 * c.info.1)
  | 0x04 => c.info.2.1
  | 0x0C =>
    let op := h.opOf page
    let fault : Bool := if page = pHub then h.pins.fatal else h.fld page 0x0C 2 1 == 1
    w32 (op.isSome.toNat + 2 * (h.pageReady c page).toNat + 4 * fault.toNat + 256 * (match op with
      | some o => o.opcode
      | none => 0))
  | 0x1C => putBit (h.rd page 0x1C) 31 (h.opOf page).isSome
  | _ => h.rd page off

/-- What a register shows: an unassigned offset 0 (R481), a WO register 0, a unit's value, else the word held. -/
def Hub.show (h : Hub) (f : Fuses) (c : PageClass) (page off : Nat) : Word :=
  if off < 0x20 then h.showHeader c page off
  else match findRow c.rows off with
    | none => 0
    | some r =>
      let live : Option Word := match c with
        | .hub => h.showHub off
        | .boot => h.showBoot off
        | .sec => h.showSec f off
        | .part => h.showPart off
        | .map => h.showMap off
        | .cache => h.showCache off
        | .arith => none
        | .trick => h.showTrick off
        | .pagemgr => h.showPagemgr off
        | .tm => h.showTm off
        | .gate => h.showGate off
        | .ras => h.showRas off
        | .therm => h.showTherm off
        | .perf => h.showPerf off
        | .journal => h.showJournal off
        | .farport => h.showFarport off
        | .dma => h.showDma (page - 0x10) off
        | .stk => none
        | .che => h.showChe (page - 0x100) off
      live.getD (h.rd page off) &&& ~~~r.wo

/-! Latched halves (R472) -/

/-- The LO registers whose read latches the HI register above them. -/
def latches (c : PageClass) (off : Nat) : Bool :=
  match c with
  | .hub => off == 0x170
  | .sec => off == 0x60
  | .arith => off == 0x50
  | .perf => decide (0x100 ≤ off ∧ off < 0x500 ∧ off % 16 = 4)
  | .journal => off == 0x48 || off == 0x50
  | _ => false

def latchKey (init : Initiator) (page off : Nat) : Nat := initSlot init * 2 ^ 24 + 4096 * page + off

/-- What an initiator reads: the latched value of a latched HI register, else what the register shows. -/
def Hub.readValue (h : Hub) (f : Fuses) (init : Initiator) (c : PageClass) (page off : Nat) : Word :=
  if 4 ≤ off ∧ latches c (off - 4) then SMap.get (fun _ => (0 : Word)) h.latch (latchKey init page off) else h.show f c page off

/-- INDEX of an autoincrementing selector advances after an access to its data register (R126, R271). -/
def Hub.autoinc (h : Hub) (c : PageClass) (off : Nat) : Hub :=
  let next (h : Hub) (page sel n : Nat) : Hub :=
    if bit (h.rd page sel) 31 then h.wrFld page sel 0 n (h.fld page sel 0 n + 1) else h
  match c, off with
  | .map, 0x74 => next h pMap 0x70 11
  | .map, 0x804 => next h pMap 0x800 12
  | .gate, 0x48 => next h pGate 0x44 6
  | _, _ => h

/-- What a read does beside answering: latches, AUTOINC, and SAMPLE_SRC removes the oldest sample (R450, R472). -/
def Hub.readEffects (h : Hub) (f : Fuses) (init : Initiator) (c : PageClass) (page off : Nat) : Hub :=
  let h := if latches c off then
      { h with latch := SMap.set (fun _ => 0) h.latch (latchKey init page (off + 4)) (h.show f c page (off + 4)) }
    else h
  let h := if page = pPerf ∧ off = 0x64 then h.setPerf { h.perf with fifo := h.perf.fifo.tail } else h
  h.autoinc c off

/-- A read of the register at window offset 4096 page + off (R411, R469, R474, R480, R481). -/
def Hub.regRead (h : Hub) (f : Fuses) (init : Initiator) (page off : Nat) : Hub :=
  if h.inReset then h
  else match pageClass page with
    | none => h.refuseUnmapped init page false
    | some c =>
      match h.refusal init c page off false with
      | some r => h.refuse init page off false r
      | none => (h.readEffects f init c page off).respondMmio (h.readValue f init c page off) 0

end Sys2Proof.Machine
end

