-- ==== Sys2Proof/Machine/RegCheck.lean ====
section
/-!
DEFINITION. Writes that a register refuses for the state of its unit (REASON 7, STATE) or for a value its chapter refuses (REASON 8,
VALUE), page by page (R20, R37, R122, R126, R148, R216, R240, R242, R245, R268, R271, R302, R323, R358, R395, R420, R442, R445, R447,
R455, R466, R487).
-/
namespace Sys2Proof.Machine

/-! Refused for the unit's state -/

/-- A stack holds a LIVE or TARGET physical slab. -/
def Hub.stackHolds (h : Hub) (st : Nat) : Bool :=
  (List.range 256).any (fun i =>
    let v := (h.pslab (st * 256 + i)).st
    v == 1 || v == 3)

/-- A set-table entry lies in the range of an enabled partition (R117). -/
def Hub.setHeld (h : Hub) (i : Nat) : Bool :=
  (List.range 64).any (fun p =>
    let c := h.part p
    c.enabled && decide (c.first ≤ i ∧ i < c.first + c.count))

/-- A deal of a list waits (R260). -/
def GateList.waits (g : GateList) : Bool := g.st == 1 || g.st == 3

/-- Writes of a bank of a list are refused: it is active, or its deal waits (R271). -/
def GateList.bankHeld (g : GateList) (b : Nat) : Bool :=
  (g.running && g.bank.toNat == b) || (g.waits && g.pend.toNat == b)

/-- A running counter's selector takes only the write that clears ENABLE and nothing else (R447, R456). -/
def selHeld (old new : Word) : Bool := bit old 31 && new != putBit old 31 false

/-- The unit's state refuses the write of `new` over `old` (DESIGN CHOICE, log 52). -/
def Hub.stateRefuses (h : Hub) (c : PageClass) (page off : Nat) (old new : Word) : Bool :=
  match c with
  | .part => decide (0x44 ≤ off ∧ off < 0x68) && (h.part (partSel h)).enabled
  | .map =>
    (off == 0x74 && h.setHeld (h.fld pMap 0x70 0 11)) || (off == 0x804 && (h.part (h.fld pMap 0x800 16 6)).enabled)
  | .gate =>
    let (l, b) := h.gateSel
    ((off == 0x48 || off == 0x4C) && (h.gate l).bankHeld b) || ((off == 0x50 || off == 0x54) && (h.gate l).waits)
  | .perf =>
    if 0x100 ≤ off ∧ off < 0x500 then
      let sel := h.rd pPerf (off / 16 * 16)
      if off % 16 = 0 then selHeld old new else bit sel 31
    else decide (0x70 ≤ off ∧ off < 0x8C) && h.dumping
  | .farport =>
    (off == 0x40 && (decide (7 ≤ h.boot.ended) || (decide (h.boot.ended = 6) && h.boot.go))) ||
    (off == 0x6C && h.far.exps.any (fun e : Nat × ExportCfg => bit e.2.ctrl 31))
  | .dma =>
    let st := (h.dmaCh (page - 0x10)).st
    if off = 0x40 ∨ off = 0x44 then !(st == 0 || st == 1 || st == 4 || st == 6)
    else if off = 0x48 ∨ off = 0x4C then !(st == 0 || st == 1 || st == 6)
    else decide (0x54 ≤ off ∧ off < 0x70) && !(st == 4 || st == 6)
  | .stk =>
    (off == 0x44 || decide (0x80 ≤ off ∧ off < 0x9C)) && bit (h.rd page 0x40) 1 && h.stackHolds (page - 0x80)
  | .che => decide (0xC0 ≤ off ∧ off < 0xD0) && selHeld old new
  | _ => false

/-! Refused values -/

/-- SELi of PERF (R445, R456): scopes 1 to 4 for events of requests, 8 to 15 for events of the stacks; no filter for 0x15 to 0x19;
no sample for 0x0E, 0x11, 0x14 to 0x1A. -/
def badSel (v : Word) : Bool :=
  let ev := bitsNat v 0 8
  let scope := bitsNat v 8 4
  let stackEv : Bool := decide (0x14 ≤ ev ∧ ev ≤ 0x19)
  let scopeBad : Bool := if ev = 0 then false else if stackEv then decide (scope ≠ 0 ∧ scope < 8) else decide (4 < scope)
  let noFilter : Bool := decide (0x15 ≤ ev ∧ ev ≤ 0x19)
  let noSample : Bool := ev == 0x0E || ev == 0x11 || decide (0x14 ≤ ev ∧ ev ≤ 0x1A)
  decide (0x1B < ev) || decide (ev ≠ 0 ∧ 5 ≤ scope ∧ scope ≤ 7) || scopeBad || (bit v 18 && noFilter) || (bit v 19 && noSample) ||
    (bit v 19 && decide (bitsNat v 20 5 < 8))

/-- PERF_SELn of a channel engine (R447). -/
def badEngSel (v : Word) : Bool :=
  let ev := bitsNat v 0 5
  let filter : Bool := decide (10 ≤ ev ∧ ev ≤ 13) || decide (15 ≤ ev ∧ ev ≤ 17)
  decide (18 < ev) || bitsNat v 5 2 == 3 || (bit v 13 && !filter)

/-- ROR_CFG: a ROR2 not above a set ROR1, a RELAX of 0 (R442). -/
def badRor (v : Word) : Bool :=
  let a := bitsNat v 0 8
  let b := bitsNat v 8 8
  decide (a ≠ 0 ∧ b ≠ 0 ∧ b ≤ a) || bitsNat v 16 16 == 0

def outside (lo hi v : Nat) : Bool := decide (v < lo ∨ hi < v)

/-- The chapter of the page refuses the value written. -/
def valueRefused (c : PageClass) (off : Nat) (v : Word) : Bool :=
  match c, off with
  | .hub, 0x44 => bitsNat v 0 16 != 1
  | .hub, 0x60 => !irqPages.contains (bitsNat v 0 12)
  | .hub, 0x17C => bitsNat v 0 16 == 0
  | .boot, 0x800 => bitsNat v 8 4 == 0
  | .sec, 0x6C => outside 1 64 (bitsNat v 0 8)
  | .sec, 0x78 => outside 1 6 (bitsNat v 0 3)
  | .sec, 0x800 => outside 32 48 (bitsNat v 0 6)
  | .sec, 0x804 => outside 10 20 (bitsNat v 0 5)
  | .map, 0x4C => outside 0 8 (bitsNat v 0 4)
  | .pagemgr, 0x90 => outside 0 128 (bitsNat v 0 8)
  | .tm, 0x7C => bit v 31
  | .ras, 0x80 => decide (bitsNat v 0 20 < 8)
  | .ras, 0x88 => outside 1 64 (bitsNat v 0 8)
  | .ras, 0x800 => outside 1 64 (bitsNat v 0 8) || outside 1 4 (bitsNat v 8 3)
  | .ras, 0x808 => bitsNat v 0 8 == 0
  | .therm, 0x48 => outside 0 23 (bitsNat v 0 5)
  | .therm, 0x60 => badRor v
  | .journal, 0x78 => !bit v 15
  | .farport, 0x6C => bitsNat v 0 8 == 0 || bitsNat v 8 8 == 0
  | .farport, 0x74 => bitsNat v 0 8 == 0 || decide (bitsNat v 8 8 < 2 * bitsNat v 0 8)
  | .dma, 0x40 => decide (4 < bitsNat v 16 3)
  | .dma, 0x44 => (!bit v 6 && decide (15 < bitsNat v 0 6)) || bitsNat v 16 8 == 0
  | .stk, 0x44 => decide (24 < bitsNat v 0 5) || (!bit v 8 && decide (4 < bitsNat v 0 5))
  | .stk, 0x58 => bitsNat v 0 8 == 0
  | .che, 0x48 => outside 2 64 (bitsNat v 0 7) || decide (bitsNat v 0 7 ≤ bitsNat v 8 7)
  | .che, 0x4C => decide (8 < bitsNat v 0 4)
  | .perf, o => decide (0x100 ≤ o ∧ o < 0x500 ∧ o % 16 = 0) && badSel v
  | .che, o => decide (0xC0 ≤ o ∧ o < 0xD0) && badEngSel v
  | _, _ => false

end Sys2Proof.Machine
end

