-- ==== Sys2Proof/Machine/RegWrite.lean ====
section
/-!
DEFINITION. A write of a register of the window: the order of its refusals (R480), what an accepted write does page by page, PAGE_OP
(R482), and the commands of chapter 16 that name one register.
-/
namespace Sys2Proof.Machine

/-! Where a written word is held -/

/-- MSI_ROUTE of the selected page; EN written from 0 to 1 while the page is pending sends one message (R484, R485). -/
def Hub.writeRoute (h : Hub) (v : Word) : Hub :=
  let p := h.fld pHub 0x60 0 12
  let was := bit (SMap.get routeReset h.irq.route p) 31
  let h := h.setIrq { h.irq with route := SMap.set routeReset h.irq.route p v }
  if bit v 31 && !was && h.pagePending p then h.msi p else h

/-- The partition of PART_SEL (R122). -/
def Hub.writePart (h : Hub) (off : Nat) (v : Word) : Hub :=
  let p := partSel h
  let c := h.part p
  let lo (x : BitVec 64) : BitVec 64 := BitVec.ofNat 64 (x.toNat / 2 ^ 32 * 2 ^ 32 + v.toNat)
  let hi (x : BitVec 64) : BitVec 64 := BitVec.ofNat 64 (x.toNat % 2 ^ 32 + v.toNat * 2 ^ 32)
  h.putPart p (match off with
    | 0x44 => { c with cfg := v }
    | 0x48 => { c with base := lo c.base }
    | 0x4C => { c with base := hi c.base }
    | 0x50 => { c with units := v.toNat }
    | 0x54 => { c with first := v.toNat }
    | 0x58 => { c with count := v.toNat }
    | 0x5C => { c with ports := v }
    | 0x60 => { c with dma := lo c.dma }
    | _ => { c with dma := hi c.dma })

/-- PW_SEL: the staging copy takes the window in force (R122). -/
def Hub.loadPw (h : Hub) (v : Word) : Hub :=
  let w := h.peerWin v.toNat
  ((((h.wr pPart 0x80 v).wr64 pPart 0x84 w.base.toNat).wr pPart 0x8C (w32 w.units)).wr pPart 0x90 w.target).wr pPart 0x94 w.ctrl

/-- HW_SEL: the staging copy takes the window in force (R122). -/
def Hub.loadHw (h : Hub) (v : Word) : Hub :=
  let w := h.hostWin v.toNat
  (((h.wr pPart 0xA0 v).wr64 pPart 0xA4 w.base.toNat).wr pPart 0xAC (w32 w.units)).wr pPart 0xB0 w.ctrl

/-- KW_SEL: the staging copy takes the kitty window in force (R148). -/
def Hub.loadKw (h : Hub) (v : Word) : Hub :=
  let w := h.kitty v.toNat
  (((h.wr pCache 0x50 v).wr64 pCache 0x54 w.base).wr pCache 0x5C (w32 w.units)).wr pCache 0x60 w.ctrl

/-- EXP_SEL: the staging copy takes the export in force (R323). -/
def Hub.loadExp (h : Hub) (v : Word) : Hub :=
  let e := h.exp v.toNat
  ((((h.wr pFarport 0x58 v).wr pFarport 0x5C e.base).wr pFarport 0x60 e.size).wr pFarport 0x64 e.peers).wr pFarport 0x68 e.ctrl

/-- The page manager's settings of the partition of SEL (R216). -/
def Hub.writePagemgr (h : Hub) (off : Nat) (v : Word) : Hub :=
  let p := pgSel h
  match off with
  | 0x58 => h.setPages { h.pages with limit := SMap.set (fun _ => 0xFFFFFF) h.pages.limit p (v.setWidth 24) }
  | 0x5C => (h.setPages { h.pages with low := SMap.set (fun _ => 0) h.pages.low p (v.setWidth 24) }).noteLow p
  | _ => h.setPages { h.pages with weight := SMap.set (fun _ => 4) h.pages.weight p (v.setWidth 4) }

/-- The policer of POL_SEL and the shaper of SHP_SEL; in force from the next tick (R253, R255, R270) (DESIGN CHOICE, log 52). -/
def Hub.writeTm (h : Hub) (off : Nat) (v : Word) : Hub :=
  let k := h.polSel
  let q := h.policer k
  let j := h.shpSel
  let x := h.shaper j
  match off with
  | 0x44 => h.putPolicer k { q with cfg := v }
  | 0x48 => h.putPolicer k { q with cir := v }
  | 0x4C => h.putPolicer k { q with pir := v }
  | 0x50 => h.putPolicer k { q with cbs := v }
  | 0x54 => h.putPolicer k { q with pbs := v }
  | 0x74 => h.putShaper j { x with cfg := v }
  | 0x78 => h.putShaper j { x with rate := v }
  | _ => h.putShaper j { x with burst := v }

/-- The list, bank and entry of LIST_SEL and ENTRY_SEL (R271). -/
def Hub.writeGate (h : Hub) (off : Nat) (v : Word) : Hub :=
  let (l, b) := h.gateSel
  let g := h.gate l
  match off with
  | 0x48 =>
    h.setTm { h.tm with entries := SMap.set (fun _ => 0) h.tm.entries ((l * 2 + b) * 64 + h.fld pGate 0x44 0 6) v }
  | 0x4C => h.setTm { h.tm with bankCfg := SMap.set (fun _ => 0) h.tm.bankCfg (l * 2 + b) v }
  | 0x50 => h.putGate l { g with base := BitVec.ofNat 64 (g.base.toNat / 2 ^ 32 * 2 ^ 32 + v.toNat) }
  | 0x54 => h.putGate l { g with base := BitVec.ofNat 64 (g.base.toNat % 2 ^ 32 + v.toNat * 2 ^ 32) }
  | _ => h.putGate l { g with overrunCfg := v.setWidth 8 }

/-- A half of a global counter (R456). -/
def Hub.writeCnt (h : Hub) (off : Nat) (v : Word) : Hub :=
  let i := (off - 0x100) / 16
  let n := SMap.get (fun _ => 0) h.perf.cnt i
  let n' := if off % 16 = 4 then n / 2 ^ 32 * 2 ^ 32 + v.toNat else n % 2 ^ 32 + v.toNat * 2 ^ 32
  h.setPerf { h.perf with cnt := SMap.set (fun _ => 0) h.perf.cnt i n' }

/-- ACK_HI applies ACK; a value above CRIT is CRIT; with no CRIT there is nothing to acknowledge (R464, DESIGN CHOICE, log 31). -/
def Hub.writeAck (h : Hub) (v : Word) : Hub :=
  match h.journal.crit with
  | none => h
  | some c =>
    let n := min c (v.toNat * 2 ^ 32 + h.journal.ackLo.toNat)
    h.setJournal { h.journal with ack := some n, ackLo := w32 n }

/-- CH_CFG and EVT_CFG of a channel; EVT_CREDIT is cleared (R292). -/
def Hub.writeEvt (h : Hub) (page off : Nat) (v : Word) : Hub := (h.wr page off v).wr page 0x70 0

/-- RATE_CFG and the TIMING registers: STAGED while the stack is in service (R240). -/
def Hub.writeTiming (h : Hub) (page off : Nat) (v : Word) : Hub :=
  let h := h.wr page off v
  if bit (h.rd page 0x40) 1 then h.wrFld page 0x40 2 1 1 else h

/-- An accepted word reaches the unit it belongs to, or is held as written. -/
def Hub.store (h : Hub) (c : PageClass) (page off : Nat) (v : Word) : Hub :=
  match c, off with
  | .hub, 0x64 => h.writeRoute v
  | .hub, 0x6C => h.setIrq { h.irq with owner := SMap.set (fun _ => 0) h.irq.owner (h.fld pHub 0x68 0 6) (v.setWidth 6) }
  | .part, 0x80 => h.loadPw v
  | .part, 0xA0 => h.loadHw v
  | .map, 0x74 => h.setAmap { h.amap with setTable := SMap.set (fun _ => 0) h.amap.setTable (h.fld pMap 0x70 0 11) (v.setWidth 11) }
  | .map, 0x804 =>
    h.setAmap { h.amap with
      deck := SMap.set (fun _ => 0) h.amap.deck (h.fld pMap 0x800 16 6 * 4096 + h.fld pMap 0x800 0 12) (v.setWidth 16) }
  | .cache, 0x50 => h.loadKw v
  | .therm, 0x804 =>
    h.setTherm { h.therm with coef := SMap.set (fun _ => 0) h.therm.coef (h.fld pTherm 0x800 0 3) (v.setWidth 24) }
  | .journal, 0x58 => h.setJournal { h.journal with ackLo := v }
  | .journal, 0x5C => h.writeAck v
  | .farport, 0x4C => h.putFarPort (h.fld pFarport 0x44 0 2) { h.farPort (h.fld pFarport 0x44 0 2) with enable := bit v 0 }
  | .farport, 0x58 => h.loadExp v
  | .part, o => if 0x44 ≤ o ∧ o < 0x68 then h.writePart o v else h.wr page o v
  | .pagemgr, o => if 0x58 ≤ o ∧ o < 0x64 then h.writePagemgr o v else h.wr page o v
  | .tm, o => if (0x44 ≤ o ∧ o < 0x58) ∨ (0x74 ≤ o ∧ o < 0x80) then h.writeTm o v else h.wr page o v
  | .gate, o => if (0x48 ≤ o ∧ o < 0x58) ∨ o = 0x800 then h.writeGate o v else h.wr page o v
  | .perf, o => if 0x100 ≤ o ∧ o < 0x500 ∧ o % 16 ≠ 0 then h.writeCnt o v else h.wr page o v
  | .dma, o => if o = 0x40 ∨ o = 0x44 then h.writeEvt page o v else h.wr page o v
  | .stk, o => if o = 0x44 ∨ (0x80 ≤ o ∧ o < 0x9C) then h.writeTiming page o v else h.wr page o v
  | _, o => h.wr page o v

/-! What a write of 1 to a WO or W1C bit does -/

/-- The n words from offset o of a page set to 0. -/
def Hub.clearRegs (h : Hub) (page o n : Nat) : Hub := (List.range n).foldl (fun h i => h.wr page (o + 4 * i) 0) h

/-- Every counter of the TM page (R269). -/
def Hub.clearTm (h : Hub) : Hub :=
  let pol := h.tm.pol.map (fun e : Nat × Policer => (e.1, { e.2 with green := 0, yellow := 0, red := 0 }))
  (h.clearRegs pTm 0x88 2).setTm { h.tm with pol := pol.filter (fun e => e.2 ≠ Policer.off) }

/-- CNT_CTRL of PERF (R456). -/
def Hub.clearPerf (h : Hub) (data : Word) : Hub :=
  let h := if bit data 0 then h.setPerf { h.perf with cnt := [] } else h
  let h := if bit data 1 then h.setPerf { h.perf with eng := [] } else h
  if bit data 2 then (h.setPerf { h.perf with fifo := [] }).wr pPerf 0x68 0 else h

/-- The WO registers (R37, R180, R214, R245, R268, R301, R323, R358, R395, R442, R455). -/
def Hub.writeOnly (h : Hub) (c : PageClass) (page off : Nat) (data : Word) : Hub :=
  match c with
  | .hub =>
    if !bit data 0 then h
    else if off = 0x100 then (List.range 4).foldl (fun h i => h.wr pHub (0x120 + 4 * i) 0xFFFFF) h
    else h.wrFld pHub 0x178 0 1 1
  | .sec => h.wr page off data
  | .perf => h.clearPerf data
  | .arith => if bit data 0 then (h.clearRegs pArith 0x50 7).wrFld pArith 0x70 31 1 0 else h
  | .trick => if bit data 0 then h.clearRegs pTrick 0x50 7 else h
  | .tm => if bit data 0 then h.clearTm else h
  | .ras => if bit data 0 then (h.clearRegs pRas 0x48 10).wr pRas 0xA0 0 else h
  | .therm => if bit data 0 then (h.clearRegs pTherm 0x70 2).wrFld pTherm 0x64 3 29 0 else h
  | .farport => if bit data 0 then h.clearRegs pFarport 0x80 6 else h
  | .dma => if bit data 0 then h.clearRegs page 0x74 5 else h
  | _ => h

/-- W1C bits written 1 are cleared; PORT_PROTO_STATUS.CLR clears DEADLINE_CNT (R75). -/
def Hub.writeOneClear (h : Hub) (page off : Nat) (mask data : Word) : Hub :=
  if page = pHub ∧ off = 0x140 then (if bit data 16 then h.wr pHub 0x140 0 else h)
  else h.wr page off (h.rd page off &&& ~~~(data &&& mask))

/-! A write (R480) -/

/-- Reasons 4 to 8 of R480 for a register with a row; none: the write is accepted. -/
def Hub.writeRefusal (h : Hub) (c : PageClass) (r : RegRow) (page off : Nat) (old data : Word) : Option Nat :=
  let diff := old ^^^ data
  let new := (old &&& ~~~r.rw) ||| (data &&& r.rw)
  if r.w1c = 0 ∧ diff &&& r.ro ≠ 0 then some 4
  else if diff &&& r.x ≠ 0 ∧ !bit (h.rd page 0x08) 1 then some 5
  else if diff &&& r.l ≠ 0 ∧ bit (h.rd page 0x08) 31 then some 6
  else if h.stateRefuses c page off old new then some 7
  else if valueRefused c off new then some 8
  else none

/-- What an accepted write does. -/
def Hub.applyWrite (h : Hub) (c : PageClass) (r : RegRow) (page off : Nat) (old data : Word) : Hub :=
  let h := if r.rw = 0 then h else h.store c page off ((old &&& ~~~r.rw) ||| (data &&& r.rw))
  let h := if r.w1c = 0 then h else h.writeOneClear page off r.w1c data
  let h := if r.wo = 0 then h else h.writeOnly c page off (data &&& r.wo)
  h.autoinc c off

/-! The header (R475 to R478, R484) -/

/-- PAGE_CTRL: the bits that act, LOCK stays once set; a channel is enabled or disabled (R290, R301, R478). -/
def Hub.writeCtrl (h : Hub) (init : Initiator) (c : PageClass) (page : Nat) (data : Word) : Hub :=
  let cap := c.info.2.1
  let old := h.rd page 0x08
  let mask : Word := (if bit cap 3 then 1 else 0) ||| (if bit cap 1 then 2 else 0) ||| (if bit cap 2 then 0x80000000 else 0)
  let new := (data &&& mask) ||| (old &&& 0x80000000)
  if c matches .dma then
    let ch := page - 0x10
    let d := h.dmaCh ch
    if bit data 0 ∧ !h.afterS7 then h.refuse init page 0x08 true 1
    else if bit old 0 ∧ !bit data 0 ∧ d.st ≠ 1 ∧ d.st ≠ 6 then h.refuse init page 0x08 true 7
    else
      let h := (h.wr page 0x08 new).respondMmio 0 0
      if bit old 0 = bit data 0 then h
      else if bit data 0 then (h.putDma ch { d with st := 1 }).wr page 0x70 0
      else h.putDma ch { d with st := 0 }
  else (h.wr page 0x08 new).respondMmio 0 0

/-- PAGE_IRQ_ENABLE: an enable bit written from 0 to 1 over a set status bit raises the vector (R484). -/
def Hub.writeIrqEnable (h : Hub) (c : PageClass) (page : Nat) (data : Word) : Hub :=
  let old := h.rd page 0x14
  let new := data &&& c.info.2.2
  let h := (h.wr page 0x14 new).respondMmio 0 0
  if h.rd page 0x10 &&& new &&& ~~~old ≠ 0 then h.msi page else h

/-- A write of the header other than GO. -/
def Hub.writeHeader (h : Hub) (init : Initiator) (c : PageClass) (page off : Nat) (data : Word) : Hub :=
  match off with
  | 0x08 => h.writeCtrl init c page data
  | 0x10 => (h.wr page 0x10 (h.rd page 0x10 &&& ~~~data)).respondMmio 0 0
  | 0x14 => h.writeIrqEnable c page data
  | 0x1C =>
    if (c matches .dma) ∧ !h.afterS7 then h.refuse init page off true 1
    else if bit data 31 then h.refuse init page off true 8
    else (h.wr page 0x1C (data &&& 0xFF)).respondMmio 0 0
  | _ =>
    let ro : Word := match off with
      | 0x0C => 0xFF07
      | 0x18 => 0x83FFFFFC
      | 0x04 => 0xF0F
      | _ => 0xFFFFFFFF
    if (h.showHeader c page off ^^^ data) &&& ro = 0 then h.respondMmio 0 0 else h.refuse init page off true 4

/-- A write of a register, PAGE_OP with a taken opcode apart. The header offsets 0x020 to 0x03F, which R475 reserves, are no register:
their write is refused UNASSIGNED (R21, R475, R479) (DESIGN CHOICE, log 59). -/
def Hub.regWrite (h : Hub) (f : Fuses) (init : Initiator) (page off : Nat) (data : Word) : Hub :=
  if h.inReset then h
  else match pageClass page with
    | none => h.refuseUnmapped init page true
    | some c =>
      match h.refusal init c page off true with
      | some r => h.refuse init page off true r
      | none =>
        if off < 0x20 then h.writeHeader init c page off data
        else match findRow c.rows off with
          | none => h.refuse init page off true 9
          | some r =>
            let old := h.show f c page off
            match h.writeRefusal c r page off old data with
            | some reason => h.refuse init page off true reason
            | none => (h.applyWrite c r page off old data).respondMmio 0 0

/-! PAGE_OP (R482): the operation a page's opcode names -/

/-- The operations of the pages BOOT, SEC, PART and CACHE. -/
def opA (init : Initiator) (page opcode : Nat) : Option (State → Host.Outcome State Fault Refusal) :=
  match page, opcode with
  | 1, 1 => some (execBootStart init)
  | 1, 2 => some (execContinue init)
  | 1, 3 => some (execWarmPrepare init)
  | 1, 4 => some (execStackReset init)
  | 2, 1 => some (execPairInstall init)
  | 2, 2 => some (execPairRemove init)
  | 2, 3 => some (execPairRekey init)
  | 2, 4 => some (execFuseSvn init)
  | 2, 5 => some (execFuseRevoke init)
  | 2, 6 => some (execGenIdentity init)
  | 2, 7 => some (execLockProv init)
  | 3, 1 => some (execPartEnable init)
  | 3, 2 => some (execSetPw init)
  | 3, 3 => some (execSetHw init)
  | 3, 4 => some (execPartRelease init)
  | 5, 1 => some (execKwApply init)
  | 5, 2 => some (execKittyFill init)
  | 5, 3 => some (execFlush init)
  | 5, 4 => some (execSetWays init)
  | _, _ => none

/-- The operations of the pages TRICK, PAGEMGR, GATE, RAS, PERF, JOURNAL and FARPORT. -/
def opB (init : Initiator) (page opcode : Nat) : Option (State → Host.Outcome State Fault Refusal) :=
  match page, opcode with
  | 7, 1 => some (execForceFree init)
  | 8, 1 => some (execTableBuild init)
  | 8, 2 => some (execTableFree init)
  | 8, 3 => some (execXlate init)
  | 10, 1 => some (execDeal init)
  | 10, 2 => some (execStop init)
  | 10, 3 => some (execCancel init)
  | 11, 1 => some (execReadmit init)
  | 11, 2 => some (execRetire init)
  | 13, 1 => some (execDumpStart init)
  | 13, 2 => some (execDumpStop init)
  | 13, 3 => some (execDumpNow init)
  | 14, 1 => some (execJournalRead init)
  | 14, 2 => some (execAppend init)
  | 15, 1 => some (execExpApply init)
  | 15, 2 => some (execPortRetrain ⟨init, false⟩)
  | 15, 3 => some (execPeerReset init)
  | _, _ => none

/-- The operations of a DMA page and of an STK page. -/
def opC (init : Initiator) (page opcode : Nat) : Option (State → Host.Outcome State Fault Refusal) :=
  match pageClass page, opcode with
  | some .dma, 1 => some (execDmaStart init (BitVec.ofNat 6 (page - 0x10)))
  | some .dma, 2 => some (execDmaPause init (BitVec.ofNat 6 (page - 0x10)))
  | some .dma, 3 => some (execDmaResume init (BitVec.ofNat 6 (page - 0x10)))
  | some .dma, 4 => some (execDmaAbort init (BitVec.ofNat 6 (page - 0x10)))
  | some .stk, 1 => some (execRetrainSlice init (BitVec.ofNat 3 (page - 0x80)))
  | _, _ => none

def opOfCode (init : Initiator) (page opcode : Nat) : Option (State → Host.Outcome State Fault Refusal) :=
  (opA init page opcode).or ((opB init page opcode).or (opC init page opcode))

/-- A write of the word at window offset 4096 page + off: GO with an opcode the page takes starts its operation. -/
def writeReg (init : Initiator) (page off : Nat) (data : Word) (s : State) : Host.Outcome State Fault Refusal :=
  match (if off = 0x1C ∧ bit data 31 then opOfCode init page (bitsNat data 0 8) else none) with
  | some run => run s
  | none => onHub s (fun h => h.regWrite s.fuses init page off data)

/-- A read of the word at window offset 4096 page + off. -/
def readReg (init : Initiator) (page off : Nat) (s : State) : Host.Outcome State Fault Refusal :=
  onHub s (fun h => h.regRead s.fuses init page off)

/-- Page and offset that ADDR[23:2] names (R468, R469). -/
def regPage (reg : BitVec 22) : Nat := reg.toNat / 1024
def regOff (reg : BitVec 22) : Nat := 4 * (reg.toNat % 1024)

end Sys2Proof.Machine
end

