-- ==== Sys2Proof/Machine/Regs.lean ====
section
/-!
DEFINITION. The commands that read or write one register of the window (chapter 16).
-/
namespace Sys2Proof.Machine

/-- REGISTER_WRITE (R480). -/
def execRegisterWrite (init : Initiator) (reg : BitVec 22) (data : Word) (s : State) : Host.Outcome State Fault Refusal :=
  writeReg init (regPage reg) (regOff reg) data s

/-- LATCHED_READ (R472). -/
def execLatchedRead (init : Initiator) (reg : BitVec 22) (s : State) : Host.Outcome State Fault Refusal :=
  readReg init (regPage reg) (regOff reg) s

/-- REFUSED_READ (R480). -/
def execRefusedRead (init : Initiator) (reg : BitVec 22) (s : State) : Host.Outcome State Fault Refusal :=
  readReg init (regPage reg) (regOff reg) s

/-- SAMPLE_SRC_READ (R450). -/
def execSampleSrcRead (init : Initiator) (s : State) : Host.Outcome State Fault Refusal := readReg init pPerf 0x64 s

/-- UNASSIGNED_PAGE_ACCESS (R474): a write where it carries data. -/
def execUnassignedPageAccess (init : Initiator) (reg : BitVec 22) (wdata : Option Word) (s : State) :
    Host.Outcome State Fault Refusal :=
  match wdata with
  | some d => writeReg init (regPage reg) (regOff reg) d s
  | none => readReg init (regPage reg) (regOff reg) s

/-- PAGE_ENABLE (R301). -/
def execPageEnable (init : Initiator) (page : BitVec 12) (data : Word) (s : State) : Host.Outcome State Fault Refusal :=
  writeReg init page.toNat 0x08 data s

/-- EXPERT_UNLOCK (R477). -/
def execExpertUnlock (init : Initiator) (page : BitVec 12) (data : Word) (s : State) : Host.Outcome State Fault Refusal :=
  writeReg init page.toNat 0x08 data s

/-- PAGE_LOCK (R478). -/
def execPageLock (init : Initiator) (page : BitVec 12) (data : Word) (s : State) : Host.Outcome State Fault Refusal :=
  writeReg init page.toNat 0x08 data s

/-- IRQ_ENABLE_WRITE (R484). -/
def execIrqEnableWrite (init : Initiator) (page : BitVec 12) (data : Word) (s : State) : Host.Outcome State Fault Refusal :=
  writeReg init page.toNat 0x14 data s

/-- MSI_ROUTE_WRITE (R484). -/
def execMsiRouteWrite (init : Initiator) (data : Word) (s : State) : Host.Outcome State Fault Refusal := writeReg init pHub 0x64 data s

/-- COMPAT_PROFILE_WRITE (R10 to R12). -/
def execCompatProfileWrite (init : Initiator) (data : Word) (s : State) : Host.Outcome State Fault Refusal :=
  writeReg init pHub 0x44 data s

/-- EPOCH_ARM (R245). -/
def execEpochArm (init : Initiator) (data : Word) (s : State) : Host.Outcome State Fault Refusal := writeReg init pHub 0x168 data s

/-- CLR_MIN (R38). -/
def execClrMin (init : Initiator) (data : Word) (s : State) : Host.Outcome State Fault Refusal := writeReg init pHub 0x100 data s

/-- DEADLINE_CNT_CLR (R75). -/
def execDeadlineCntClr (init : Initiator) (data : Word) (s : State) : Host.Outcome State Fault Refusal := writeReg init pHub 0x140 data s

/-- ARITH_CNT_CLR (R181). -/
def execArithCntClr (init : Initiator) (data : Word) (s : State) : Host.Outcome State Fault Refusal := writeReg init pArith 0x4C data s

/-- TRICK_CNT_CLR (R214). -/
def execTrickCntClr (init : Initiator) (data : Word) (s : State) : Host.Outcome State Fault Refusal := writeReg init pTrick 0x4C data s

/-- TM_CNT_CLR (R269). -/
def execTmCntClr (init : Initiator) (data : Word) (s : State) : Host.Outcome State Fault Refusal := writeReg init pTm 0x90 data s

/-- DMA_CNT_CLR (R302). -/
def execDmaCntClr (init : Initiator) (ch : BitVec 6) (data : Word) (s : State) : Host.Outcome State Fault Refusal :=
  writeReg init (pDma ch.toNat) 0x88 data s

/-- FARPORT_CNT_CLR (R323). -/
def execFarportCntClr (init : Initiator) (data : Word) (s : State) : Host.Outcome State Fault Refusal :=
  writeReg init pFarport 0x98 data s

/-- RAS_CNT_CLR (R359). -/
def execRasCntClr (init : Initiator) (data : Word) (s : State) : Host.Outcome State Fault Refusal := writeReg init pRas 0x44 data s

/-- THERM_CNT_CLR (R442). -/
def execThermCntClr (init : Initiator) (data : Word) (s : State) : Host.Outcome State Fault Refusal := writeReg init pTherm 0x7C data s

/-- CLR_GLOBAL (R456). -/
def execClrGlobal (init : Initiator) (data : Word) (s : State) : Host.Outcome State Fault Refusal := writeReg init pPerf 0x48 data s

/-- CLR_ENGINE (R456). -/
def execClrEngine (init : Initiator) (data : Word) (s : State) : Host.Outcome State Fault Refusal := writeReg init pPerf 0x48 data s

/-- CLR_SAMPLES (R456). -/
def execClrSamples (init : Initiator) (data : Word) (s : State) : Host.Outcome State Fault Refusal := writeReg init pPerf 0x48 data s

/-- KW_SEL_LOAD (R148). -/
def execKwSelLoad (init : Initiator) (data : Word) (s : State) : Host.Outcome State Fault Refusal := writeReg init pCache 0x50 data s

/-- PW_SEL_LOAD (R122). -/
def execPwSelLoad (init : Initiator) (data : Word) (s : State) : Host.Outcome State Fault Refusal := writeReg init pPart 0x80 data s

/-- HW_SEL_LOAD (R122). -/
def execHwSelLoad (init : Initiator) (data : Word) (s : State) : Host.Outcome State Fault Refusal := writeReg init pPart 0xA0 data s

/-- EXP_SEL_LOAD (R323). -/
def execExpSelLoad (init : Initiator) (data : Word) (s : State) : Host.Outcome State Fault Refusal := writeReg init pFarport 0x58 data s

/-- An access that may be a read or a write. -/
def accessReg (init : Initiator) (page off : Nat) (wdata : Option Word) (s : State) : Host.Outcome State Fault Refusal :=
  match wdata with
  | some d => writeReg init page off d s
  | none => readReg init page off s

/-- SET_DATA_ACCESS (R126). -/
def execSetDataAccess (init : Initiator) (wdata : Option Word) (s : State) : Host.Outcome State Fault Refusal :=
  accessReg init pMap 0x74 wdata s

/-- DECK_DATA_ACCESS (R126). -/
def execDeckDataAccess (init : Initiator) (wdata : Option Word) (s : State) : Host.Outcome State Fault Refusal :=
  accessReg init pMap 0x804 wdata s

/-- ENTRY_DATA_ACCESS (R271). -/
def execEntryDataAccess (init : Initiator) (wdata : Option Word) (s : State) : Host.Outcome State Fault Refusal :=
  accessReg init pGate 0x48 wdata s

/-- EVT_CFG_WRITE: a write of CH_CFG (PACE) or of EVT_CFG (R292). -/
def execEvtCfgWrite (init : Initiator) (ch : BitVec 6) (chCfg : Bool) (data : Word) (s : State) :
    Host.Outcome State Fault Refusal :=
  writeReg init (pDma ch.toNat) (if chCfg then 0x40 else 0x44) data s

/-- SHAPER_ENABLE (R255). -/
def execShaperEnable (init : Initiator) (data : Word) (s : State) : Host.Outcome State Fault Refusal := writeReg init pTm 0x74 data s

/-- JOURNAL_ACK_WRITE (R464). -/
def execJournalAckWrite (init : Initiator) (data : Word) (s : State) : Host.Outcome State Fault Refusal :=
  writeReg init pJournal 0x5C data s

end Sys2Proof.Machine
end

