-- ==== Sys2Proof/Machine/Dispatch.lean ====
section
/-!
DEFINITION. One arm per command, each one direct call of its meaning.
-/
namespace Sys2Proof.Machine

def exec (i : Instr) (s : State) : Host.Outcome State Fault Refusal :=
  match i with
  | .hubPorstAssert => Sys2Proof.Machine.execHubPorstAssert s
  | .hubPorstRelease bootSeq fastOk stackFit => Sys2Proof.Machine.execHubPorstRelease bootSeq fastOk stackFit s
  | .hubWrstAssert => Sys2Proof.Machine.execHubWrstAssert s
  | .hubWrstRelease bootSeq fastOk => Sys2Proof.Machine.execHubWrstRelease bootSeq fastOk s
  | .stageS0Rom => Sys2Proof.Machine.execStageS0Rom s
  | .stageS1Fw => Sys2Proof.Machine.execStageS1Fw s
  | .stageS2Phy reports => Sys2Proof.Machine.execStageS2Phy reports s
  | .stageS3Train results => Sys2Proof.Machine.execStageS3Train results s
  | .stageS4Map => Sys2Proof.Machine.execStageS4Map s
  | .stageS5Cache bondsOk areasOk spareLinks => Sys2Proof.Machine.execStageS5Cache bondsOk areasOk spareLinks s
  | .stageS6Far linkUp lanes => Sys2Proof.Machine.execStageS6Far linkUp lanes s
  | .stageS7Open => Sys2Proof.Machine.execStageS7Open s
  | .read port h => Sys2Proof.Machine.execRead port h s
  | .write port h flits => Sys2Proof.Machine.execWrite port h flits s
  | .reduce port h flits => Sys2Proof.Machine.execReduce port h flits s
  | .trickOpen port h => Sys2Proof.Machine.execTrickOpen port h s
  | .trickWrite port h flits => Sys2Proof.Machine.execTrickWrite port h flits s
  | .trickCompare port h => Sys2Proof.Machine.execTrickCompare port h s
  | .trickCommit port h => Sys2Proof.Machine.execTrickCommit port h s
  | .trickAbort port h => Sys2Proof.Machine.execTrickAbort port h s
  | .pageRelease port h => Sys2Proof.Machine.execPageRelease port h s
  | .clearPoison port h => Sys2Proof.Machine.execClearPoison port h s
  | .orphan port => Sys2Proof.Machine.execOrphan port s
  | .slot port => Sys2Proof.Machine.execSlot port s
  | .responseAccepted port => Sys2Proof.Machine.execResponseAccepted port s
  | .arbiterChoice arb cycle => Sys2Proof.Machine.execArbiterChoice arb cycle s
  | .holdLimitExpiry arb => Sys2Proof.Machine.execHoldLimitExpiry arb s
  | .readLineOp op found => Sys2Proof.Machine.execReadLineOp op found s
  | .narrowReadLineOp op found => Sys2Proof.Machine.execNarrowReadLineOp op found s
  | .writeLineOp turn => Sys2Proof.Machine.execWriteLineOp turn s
  | .reduceLineOp turn => Sys2Proof.Machine.execReduceLineOp turn s
  | .reductionUpdateEnd part line => Sys2Proof.Machine.execReductionUpdateEnd part line s
  | .fillArrival fetch errs => Sys2Proof.Machine.execFillArrival fetch errs s
  | .narrowReturn fetch errs => Sys2Proof.Machine.execNarrowReturn fetch errs s
  | .wbHandoff part line errs => Sys2Proof.Machine.execWbHandoff part line errs s
  | .deadlineNotReady op => Sys2Proof.Machine.execDeadlineNotReady op s
  | .trickPhaseOneDone slotId => Sys2Proof.Machine.execTrickPhaseOneDone slotId s
  | .trickPhaseTwoDone slotId => Sys2Proof.Machine.execTrickPhaseTwoDone slotId s
  | .trickCommitTimeout slotId => Sys2Proof.Machine.execTrickCommitTimeout slotId s
  | .trickOpenLimit slotId => Sys2Proof.Machine.execTrickOpenLimit slotId s
  | .internalTrickCommit seg errs => Sys2Proof.Machine.execInternalTrickCommit seg errs s
  | .migrationBatch index errs => Sys2Proof.Machine.execMigrationBatch index errs s
  | .pageMove part seg => Sys2Proof.Machine.execPageMove part seg s
  | .pageZero part => Sys2Proof.Machine.execPageZero part s
  | .pageAllocate op => Sys2Proof.Machine.execPageAllocate op s
  | .pageReleaseCommit part page => Sys2Proof.Machine.execPageReleaseCommit part page s
  | .chunkFilled slab region chunk => Sys2Proof.Machine.execChunkFilled slab region chunk s
  | .backgroundFill slab region => Sys2Proof.Machine.execBackgroundFill slab region s
  | .scrubRead stack errs => Sys2Proof.Machine.execScrubRead stack errs s
  | .pprSequenceEnd stack units noSpare errs => Sys2Proof.Machine.execPprSequenceEnd stack units noSpare errs s
  | .commandSlot engine => Sys2Proof.Machine.execCommandSlot engine s
  | .ageRaise engine pc => Sys2Proof.Machine.execAgeRaise engine pc s
  | .refreshWindow engine pc => Sys2Proof.Machine.execRefreshWindow engine pc s
  | .parityError engine pc => Sys2Proof.Machine.execParityError engine pc s
  | .periodicRetrainSlice stack => Sys2Proof.Machine.execPeriodicRetrainSlice stack s
  | .channelTrainingEnd engine passed repaired => Sys2Proof.Machine.execChannelTrainingEnd engine passed repaired s
  | .stackTempRead stack ok deg => Sys2Proof.Machine.execStackTempRead stack ok deg s
  | .sensorRead sensor ok eighths => Sys2Proof.Machine.execSensorRead sensor ok eighths s
  | .tripDrainDone => Sys2Proof.Machine.execTripDrainDone s
  | .tripFlushDone => Sys2Proof.Machine.execTripFlushDone s
  | .tripFlushCut => Sys2Proof.Machine.execTripFlushCut s
  | .rorCheck => Sys2Proof.Machine.execRorCheck s
  | .powerEstimate => Sys2Proof.Machine.execPowerEstimate s
  | .powerWindowEnd => Sys2Proof.Machine.execPowerWindowEnd s
  | .paceWindowEnd seg cycles => Sys2Proof.Machine.execPaceWindowEnd seg cycles s
  | .supplyWarnAssert => Sys2Proof.Machine.execSupplyWarnAssert s
  | .supplyWarnDeassert => Sys2Proof.Machine.execSupplyWarnDeassert s
  | .supplySelfRefreshDue => Sys2Proof.Machine.execSupplySelfRefreshDue s
  | .supplyNotReadyDue => Sys2Proof.Machine.execSupplyNotReadyDue s
  | .supplyEpisodeEnd => Sys2Proof.Machine.execSupplyEpisodeEnd s
  | .selfRefreshExitDone => Sys2Proof.Machine.execSelfRefreshExitDone s
  | .epochTick => Sys2Proof.Machine.execEpochTick s
  | .epochLost => Sys2Proof.Machine.execEpochLost s
  | .gateEntryStart list => Sys2Proof.Machine.execGateEntryStart list s
  | .dealStart list => Sys2Proof.Machine.execDealStart list s
  | .dumpDue => Sys2Proof.Machine.execDumpDue s
  | .dumpRecordWritten => Sys2Proof.Machine.execDumpRecordWritten s
  | .msiAck vector => Sys2Proof.Machine.execMsiAck vector s
  | .pdReqRise domain => Sys2Proof.Machine.execPdReqRise domain s
  | .pdAckRaise domain => Sys2Proof.Machine.execPdAckRaise domain s
  | .pdReqFall domain result => Sys2Proof.Machine.execPdReqFall domain result s
  | .dmaReqFall line => Sys2Proof.Machine.execDmaReqFall line s
  | .dmaDescFetch ch => Sys2Proof.Machine.execDmaDescFetch ch s
  | .dmaBurstStart ch lineHigh => Sys2Proof.Machine.execDmaBurstStart ch lineHigh s
  | .dmaBurstReadsDone ch => Sys2Proof.Machine.execDmaBurstReadsDone ch s
  | .dmaBurstEnd ch => Sys2Proof.Machine.execDmaBurstEnd ch s
  | .dmaDescComplete ch => Sys2Proof.Machine.execDmaDescComplete ch s
  | .dmaRetryTimer ch => Sys2Proof.Machine.execDmaRetryTimer ch s
  | .hmmResponse seg tag line code data => Sys2Proof.Machine.execHmmResponse seg tag line code data s
  | .hmmTimeout seg tag => Sys2Proof.Machine.execHmmTimeout seg tag s
  | .remoteSend req => Sys2Proof.Machine.execRemoteSend req s
  | .rxReadFrame port f => Sys2Proof.Machine.execRxReadFrame port f s
  | .rxWriteFrame port f => Sys2Proof.Machine.execRxWriteFrame port f s
  | .rxReduceFrame port f => Sys2Proof.Machine.execRxReduceFrame port f s
  | .remoteResponseSend ctx => Sys2Proof.Machine.execRemoteResponseSend ctx s
  | .remoteAnswerTimeout op => Sys2Proof.Machine.execRemoteAnswerTimeout op s
  | .rxResponseFrame port f => Sys2Proof.Machine.execRxResponseFrame port f s
  | .peerFailTimeout req => Sys2Proof.Machine.execPeerFailTimeout req s
  | .rxHeartbeat port f => Sys2Proof.Machine.execRxHeartbeat port f s
  | .rxAck port f => Sys2Proof.Machine.execRxAck port f s
  | .rxNak port f => Sys2Proof.Machine.execRxNak port f s
  | .rxKeyxOffer port f => Sys2Proof.Machine.execRxKeyxOffer port f s
  | .rxKeyxAccept port f => Sys2Proof.Machine.execRxKeyxAccept port f s
  | .heartbeatDue peer => Sys2Proof.Machine.execHeartbeatDue peer s
  | .heartbeatTimeout peer => Sys2Proof.Machine.execHeartbeatTimeout peer s
  | .ackDue peer => Sys2Proof.Machine.execAckDue peer s
  | .retryTimeout peer => Sys2Proof.Machine.execRetryTimeout peer s
  | .keyxRepeat peer => Sys2Proof.Machine.execKeyxRepeat peer s
  | .rekeyTimeout peer => Sys2Proof.Machine.execRekeyTimeout peer s
  | .oeLinkUpFall port => Sys2Proof.Machine.execOeLinkUpFall port s
  | .farportTrainingEnd port lanes => Sys2Proof.Machine.execFarportTrainingEnd port lanes s
  | .watchdogExpiry => Sys2Proof.Machine.execWatchdogExpiry s
  | .mgmtCoreReset => Sys2Proof.Machine.execMgmtCoreReset s
  | .drbgHealthFail => Sys2Proof.Machine.execDrbgHealthFail s
  | .drbgHealthRetest pass => Sys2Proof.Machine.execDrbgHealthRetest pass s
  | .spdmRequest code => Sys2Proof.Machine.execSpdmRequest code s
  | .pldmRequestUpdate inSession => Sys2Proof.Machine.execPldmRequestUpdate inSession s
  | .pldmFirmwareData inSession offset data last => Sys2Proof.Machine.execPldmFirmwareData inSession offset data last s
  | .pldmActivateFirmware inSession => Sys2Proof.Machine.execPldmActivateFirmware inSession s
  | .pldmCancelUpdate inSession => Sys2Proof.Machine.execPldmCancelUpdate inSession s
  | .wipeEnd => Sys2Proof.Machine.execWipeEnd s
  | .journalCommit readBack => Sys2Proof.Machine.execJournalCommit readBack s
  | .journalSectorErased => Sys2Proof.Machine.execJournalSectorErased s
  | .registerWrite init reg data => Sys2Proof.Machine.execRegisterWrite init reg data s
  | .latchedRead init reg => Sys2Proof.Machine.execLatchedRead init reg s
  | .sampleSrcRead init => Sys2Proof.Machine.execSampleSrcRead init s
  | .unassignedPageAccess init reg wdata => Sys2Proof.Machine.execUnassignedPageAccess init reg wdata s
  | .pageEnable init page data => Sys2Proof.Machine.execPageEnable init page data s
  | .expertUnlock init page data => Sys2Proof.Machine.execExpertUnlock init page data s
  | .pageLock init page data => Sys2Proof.Machine.execPageLock init page data s
  | .irqEnableWrite init page data => Sys2Proof.Machine.execIrqEnableWrite init page data s
  | .msiRouteWrite init data => Sys2Proof.Machine.execMsiRouteWrite init data s
  | .compatProfileWrite init data => Sys2Proof.Machine.execCompatProfileWrite init data s
  | .epochArm init data => Sys2Proof.Machine.execEpochArm init data s
  | .clrMin init data => Sys2Proof.Machine.execClrMin init data s
  | .deadlineCntClr init data => Sys2Proof.Machine.execDeadlineCntClr init data s
  | .arithCntClr init data => Sys2Proof.Machine.execArithCntClr init data s
  | .trickCntClr init data => Sys2Proof.Machine.execTrickCntClr init data s
  | .tmCntClr init data => Sys2Proof.Machine.execTmCntClr init data s
  | .dmaCntClr init ch data => Sys2Proof.Machine.execDmaCntClr init ch data s
  | .farportCntClr init data => Sys2Proof.Machine.execFarportCntClr init data s
  | .rasCntClr init data => Sys2Proof.Machine.execRasCntClr init data s
  | .thermCntClr init data => Sys2Proof.Machine.execThermCntClr init data s
  | .clrGlobal init data => Sys2Proof.Machine.execClrGlobal init data s
  | .clrEngine init data => Sys2Proof.Machine.execClrEngine init data s
  | .clrSamples init data => Sys2Proof.Machine.execClrSamples init data s
  | .kwSelLoad init data => Sys2Proof.Machine.execKwSelLoad init data s
  | .pwSelLoad init data => Sys2Proof.Machine.execPwSelLoad init data s
  | .hwSelLoad init data => Sys2Proof.Machine.execHwSelLoad init data s
  | .expSelLoad init data => Sys2Proof.Machine.execExpSelLoad init data s
  | .setDataAccess init wdata => Sys2Proof.Machine.execSetDataAccess init wdata s
  | .deckDataAccess init wdata => Sys2Proof.Machine.execDeckDataAccess init wdata s
  | .entryDataAccess init wdata => Sys2Proof.Machine.execEntryDataAccess init wdata s
  | .evtCfgWrite init ch chCfg data => Sys2Proof.Machine.execEvtCfgWrite init ch chCfg data s
  | .shaperEnable init data => Sys2Proof.Machine.execShaperEnable init data s
  | .journalAckWrite init data => Sys2Proof.Machine.execJournalAckWrite init data s
  | .partEnable init => Sys2Proof.Machine.execPartEnable init s
  | .setPw init => Sys2Proof.Machine.execSetPw init s
  | .setHw init => Sys2Proof.Machine.execSetHw init s
  | .partRelease init => Sys2Proof.Machine.execPartRelease init s
  | .kwApply init => Sys2Proof.Machine.execKwApply init s
  | .kittyFill init => Sys2Proof.Machine.execKittyFill init s
  | .flush init => Sys2Proof.Machine.execFlush init s
  | .setWays init => Sys2Proof.Machine.execSetWays init s
  | .forceFree init => Sys2Proof.Machine.execForceFree init s
  | .tableBuild init => Sys2Proof.Machine.execTableBuild init s
  | .tableFree init => Sys2Proof.Machine.execTableFree init s
  | .xlate init => Sys2Proof.Machine.execXlate init s
  | .deal init => Sys2Proof.Machine.execDeal init s
  | .stop init => Sys2Proof.Machine.execStop init s
  | .cancel init => Sys2Proof.Machine.execCancel init s
  | .retrainSlice init stack => Sys2Proof.Machine.execRetrainSlice init stack s
  | .dmaStart init ch => Sys2Proof.Machine.execDmaStart init ch s
  | .dmaPause init ch => Sys2Proof.Machine.execDmaPause init ch s
  | .dmaResume init ch => Sys2Proof.Machine.execDmaResume init ch s
  | .dmaAbort init ch => Sys2Proof.Machine.execDmaAbort init ch s
  | .expApply init => Sys2Proof.Machine.execExpApply init s
  | .portRetrain cmd => Sys2Proof.Machine.execPortRetrain cmd s
  | .peerReset init => Sys2Proof.Machine.execPeerReset init s
  | .readmit init => Sys2Proof.Machine.execReadmit init s
  | .retire init => Sys2Proof.Machine.execRetire init s
  | .pairInstall init => Sys2Proof.Machine.execPairInstall init s
  | .pairRemove init => Sys2Proof.Machine.execPairRemove init s
  | .pairRekey init => Sys2Proof.Machine.execPairRekey init s
  | .fuseSvn init => Sys2Proof.Machine.execFuseSvn init s
  | .fuseRevoke init => Sys2Proof.Machine.execFuseRevoke init s
  | .genIdentity init => Sys2Proof.Machine.execGenIdentity init s
  | .lockProv init => Sys2Proof.Machine.execLockProv init s
  | .bootStart init => Sys2Proof.Machine.execBootStart init s
  | .continue_ init => Sys2Proof.Machine.execContinue init s
  | .warmPrepare init => Sys2Proof.Machine.execWarmPrepare init s
  | .stackReset init => Sys2Proof.Machine.execStackReset init s
  | .dumpStart init => Sys2Proof.Machine.execDumpStart init s
  | .dumpStop init => Sys2Proof.Machine.execDumpStop init s
  | .dumpNow init => Sys2Proof.Machine.execDumpNow init s
  | .journalRead init => Sys2Proof.Machine.execJournalRead init s
  | .append init => Sys2Proof.Machine.execAppend init s
  | .longOpEnd page result => Sys2Proof.Machine.execLongOpEnd page result s
  | .strayFlit port sof eof => Sys2Proof.Machine.execStrayFlit port sof eof s
  | .otherTypeFrame port f => Sys2Proof.Machine.execOtherTypeFrame port f s
  | .hmmCreditGrant seg rd wr => Sys2Proof.Machine.execHmmCreditGrant seg rd wr s
  | .scrubberReadIssue stack => Sys2Proof.Machine.execScrubberReadIssue stack s
  | .wipeWrite => Sys2Proof.Machine.execWipeWrite s
  | .retrainingSliceEnd stack lanes => Sys2Proof.Machine.execRetrainingSliceEnd stack lanes s
  | .refusedRead init reg => Sys2Proof.Machine.execRefusedRead init reg s
  | .entdaa address => Sys2Proof.Machine.execEntdaa address s
  | .mctpControlMessage payload => Sys2Proof.Machine.execMctpControlMessage payload s
  | .pldmDiscovery payload => Sys2Proof.Machine.execPldmDiscovery payload s

end Sys2Proof.Machine
end

