-- ==== Sys2Proof/Machine/Step.lean ====
section
/-!
DEFINITION. One step of the block: the command at the front of the queue takes effect; with no command waiting the interval
counter advances by one unit of 10 ns (R35).
-/
namespace Sys2Proof.Machine

/-- Time passes and nothing happens: the interval counter of R35 advances by one unit (DESIGN CHOICE, log 1). -/
def idle (s : State) : State := { s with hub := s.hub.reach (s.hub.now + 1) }

/-- The command at the front of the queue runs with the rest of the queue; an empty queue idles. -/
def step (s : State) : Host.Outcome State Fault Refusal :=
  match s.pending with
  | [] => .next (idle s)
  | c :: rest => exec c { s with pending := rest }

/-- The state with the command a word spells at the front of its queue; unchanged where the word spells none. -/
def State.withFetchWord (s : State) (nbits w : Nat) : State :=
  match decodeTableWord nbits w with
  | some c => { s with pending := c :: s.pending }
  | none => s

end Sys2Proof.Machine
end

