-- ==== Sys2Proof/Safety.lean ====
section
/-!
DEFINITION. The words the statements are written in: a command that completes, the conditions under which an access of the window or
the start of a long operation is taken, and what every reachable state keeps.
-/
namespace Sys2Proof.Machine

/-- The outcome is a next state. -/
def Completes (o : Host.Outcome State Fault Refusal) : Prop := ∃ t, o = .next t

/-- The outcome is a next state of which P holds. -/
def Ends (o : Host.Outcome State Fault Refusal) (P : State → Prop) : Prop := ∃ t, o = .next t ∧ P t

/-- The outcome is the next state that differs from s in the hub alone, and the hub is h. -/
def Becomes (o : Host.Outcome State Fault Refusal) (s : State) (h : Hub) : Prop := o = .next { s with hub := h }

/-- An access by an initiator to a register of a page is answered by the page: no reset, and no reason 1 to 3 of R480. -/
def Hub.takes (h : Hub) (init : Initiator) (c : PageClass) (page off : Nat) (wr : Bool) : Prop :=
  h.inReset = false ∧ pageClass page = some c ∧ h.refusal init c page off wr = none

/-- A write of PAGE_OP with GO is taken on a page that is neither a PART nor a DMA page (R482). -/
def Hub.starts (h : Hub) (init : Initiator) (c : PageClass) (page : Nat) : Prop := h.takes init c page 0x1C true

/-- The hub at the moment a long operation has begun: the write is answered, BUSY, OPCODE, no FAULT (R482). -/
def Hub.begun (h : Hub) (page opcode index : Nat) : Hub := (h.respondMmio 0 0).beginOp page opcode index

/-- Every fuse blown in f is blown in g (R98). -/
def Fuses.keeps (f g : Fuses) : Prop :=
  f.svn ≤ g.svn ∧ f.keys = g.keys ∧ (∀ i, f.revoked.getLsbD i = true → g.revoked.getLsbD i = true) ∧
  (∀ k, f.identity = some k → g.identity = some k) ∧ (f.provLock = true → g.provLock = true) ∧ f.testOpen = g.testOpen

/-- The stacks' bytes and the flash are in their canonical form. -/
def Hub.storesWf (h : Hub) : Prop := Memory.wf h.mem = true ∧ SMap.wf (fun _ => 0xFF) h.flash = true

/-- The stack a command's report must come from, for the commands that report an event of a stack (R403). -/
def stackOf : Instr → Option Nat
  | .parityError e _ => some (e.toNat / 32)
  | .periodicRetrainSlice st => some st.toNat
  | .retrainingSliceEnd st _ => some st.toNat
  | .channelTrainingEnd e _ _ => some (e.toNat / 32)
  | .stackTempRead st _ _ => some st.toNat
  | .pprSequenceEnd st _ _ _ => some st.toNat
  | _ => none

/-- The stack that the command reports from, if any, is fitted. -/
def fitted (i : Instr) (s : State) : Prop := ∀ st, stackOf i = some st → s.hub.pins.stackFit.getLsbD st = true

/-- The choice of a port's arbiter right after it took request id passes that request: it waits there no longer (R187, R249). -/
def Hub.passesAtOnce (h : Hub) (id : Nat) (port : BitVec 5) : Prop :=
  ∀ r, (h.choose (port.toNat / 2)).findReq id = some r → r.phase ≠ .arbiter

/-- The last entry of the journal's queue that is never dropped has this TYPE and payload (R461). -/
def Hub.lastEntry (h : Hub) (typ : Nat) (payload : List Byte) : Prop :=
  ∃ e, h.journal.queue.getLast? = some e ∧ e.typ = BitVec.ofNat 16 typ ∧ e.payload = payload

/-- A frame reaches the receiver of an UP far-port outside any other frame and names this hub (R305, R308). -/
def Hub.hears (h : Hub) (port : Nat) (f : Frame) : Prop :=
  h.inReset = false ∧ (h.farPort port).st = 2 ∧ (h.farPort port).inFrame = false ∧ f.dstHub.toNat = h.hubId

/-- Requests to a peer hub that were sent and whose RESPONSE has not arrived, by the kind of credit they hold (R315). -/
def Hub.outstanding (h : Hub) (peer : Nat) (wr : Bool) : Nat :=
  (h.lines.reqs.filter (fun r =>
    r.peerIs peer && (decide (r.phase = .sent) || decide (r.phase = .failed)) && r.hdr.wrCredit == wr)).length

/-- A control frame of a pair in service passes its CRC (R309). -/
def Hub.hearsControl (h : Hub) (port : Nat) (f : Frame) : Prop :=
  h.hears port f ∧ crcOk f = true ∧ (h.pair f.srcHub.toNat).st ≠ 0

/-- A data frame carries the counter its pair expects and a tag that holds under the receive key k (R309, R312, R376). -/
def Hub.hearsNext (h : Hub) (port : Nat) (f : Frame) (k : BitVec 256) : Prop :=
  h.hears port f ∧ (h.pair f.srcHub.toNat).rxKeyOf f.counter = some k ∧ tagOk k f = true ∧
  f.counter = (h.pair f.srcHub.toNat).rxNext

/-- A write of a register beyond the header is accepted: the page takes it, and no reason 4 to 8 of R480 stands against it. -/
def Hub.writable (h : Hub) (f : Fuses) (init : Initiator) (c : PageClass) (page off : Nat) (data : Word) : Prop :=
  h.takes init c page off true ∧
  ∃ r, findRow c.rows off = some r ∧ h.writeRefusal c r page off (h.show f c page off) data = none

/-- The n registers from offset o of a page hold v. -/
def Hub.holds (h : Hub) (page o n : Nat) (v : Word) : Prop := ∀ i, i < n → h.rd page (o + 4 * i) = v

end Sys2Proof.Machine

namespace Sys2Proof

/-- The commands that write to the stacks: a command slot of an engine issues column writes (R227), a trip completes what the engines
hold (R433, R434), and READMIT's test writes its slab (R355). Every other write of a sector waits in a write queue (R222). -/
def Instr.writesStacks : Instr → Bool
  | .commandSlot _ | .tripFlushDone | .tripFlushCut | .longOpEnd _ _ => true
  | _ => false

end Sys2Proof
end

