-- ==== Sys2Proof/Certificates/Slice0/Obligations.lean ====
section
/-!
DEFINITION. The statements about the block, from the numbered rules of the spec.
-/
open Sys2Proof Sys2Proof.Machine

/-! The block as a whole -/

/-- The command at the front of the queue runs on the state with the rest of the queue. -/
def Obligations.StepRunsTheFrontCommand : Prop :=
  ∀ (s : State) (c : Instr) (rest : List Instr), s.pending = c :: rest → step s = exec c { s with pending := rest }

/-- A step that goes on takes one command from the front of the queue and no other; with no command waiting only the interval counter
moves, by one unit of 10 ns: the model's choice (log 1). -/
def Obligations.QueueLosesOnlyItsFront : Prop :=
  (∀ (s t : State), step s = .next t → t.pending = s.pending.tail) ∧
  (∀ s : State, s.pending = [] → step s = .next { s with hub := { s.hub with now := s.hub.now + 1 } })

/-- Fuses only ever gain bits, whatever the command: the anti-rollback count never falls, a revoked key stays revoked, an identity key
stays, PROV_LOCK stays (R98, R380, R384). -/
def Obligations.FusesOnlyGain : Prop :=
  ∀ (s t : State), step s = .next t → s.fuses.keeps t.fuses

/-- THERM_TRIP_N is asserted by the commit of a TRIP entry alone and released by HUB_PORST_N alone (R95, R433). -/
def Obligations.TripPinChanges : Prop :=
  ∀ (i : Instr) (s t : State), exec i s = .next t →
    (t.tripped = s.tripped ∨ (i = .hubPorstAssert ∧ t.tripped = false) ∨
      (i = .journalCommit .right ∧ s.hub.nextIsTrip = true ∧ t.tripped = true))

/-- Every command of the table completes, from every state, if it is well formed and the stack it reports from is fitted. What well-formed
and fitted mean is the model's choice (log 12). -/
def Obligations.WellFormedCommandsComplete : Prop :=
  ∀ (i : Instr) (s : State), i.wf = true → fitted i s → Completes (exec i s)

/-- A refusal means an ill-formed command, a fault an unfitted stack. Which stops there are is the model's choice (log 12). -/
def Obligations.StopsAreIllFormedOrUnfitted : Prop :=
  ∀ (i : Instr) (s : State), (∀ r, exec i s = .refused r → r = .illFormed ∧ i.wf = false) ∧
    (∀ f, exec i s = .fault f → f = .noStack ∧ ¬ fitted i s)

/-- The stacks' bytes and the flash keep their canonical form in every step. -/
def Obligations.StoresStayCanonical : Prop :=
  ∀ (s t : State), s.hub.storesWf → step s = .next t → t.hub.storesWf

/-- The stacks' bytes and the flash are canonical at reset. -/
def Obligations.ResetStoresCanonical : Prop := State.reset.hub.storesWf

/-! Resets and bring-up -/

/-- Under HUB_PORST_N every register reads its reset value, nothing is outstanding and the trip pin is released, while what the stacks
store stays (R85, R95, R416). Its release samples the straps and, unless HUB_WRST_N is low, starts S0 (R85). A warm reset keeps the
registers R416 lists, the LOCK bit of the HUB page and THERM.STATUS.TRIPPED, resets every other register and drops what is outstanding
(R86, R416, R443); its release resamples FAST_OK and starts S0 again (R86). -/
def Obligations.Resets : Prop :=
  ((∀ s : State, Ends (exec .hubPorstAssert s) fun t =>
    t.hub.pins.porst = true ∧ t.tripped = false ∧ t.hub.lines.reqs = [] ∧ t.hub.lines.ready = [] ∧ t.hub.lines.ordered = [] ∧
    t.hub.mem = s.hub.mem ∧ ∀ p o, t.hub.rd p o = regReset (4096 * p + o)) ∧
  (∀ (s : State) (bootSeq fastOk : Bool) (fit : BitVec 8), s.hub.pins.porst = true → s.hub.pins.wrst = false →
    Ends (exec (.hubPorstRelease bootSeq fastOk fit) s) fun t =>
      t.hub.pins.porst = false ∧ t.hub.pins.bootSeq = bootSeq ∧ t.hub.pins.fastOk = fastOk ∧ t.hub.pins.stackFit = fit ∧
      t.hub.boot.go = true ∧ t.hub.boot.released = s.hub.now ∧ t.hub.mem = s.hub.mem) ∧
  (∀ (s : State) (bootSeq fastOk : Bool) (fit : BitVec 8), s.hub.pins.porst = true → s.hub.pins.wrst = true →
    Becomes (exec (.hubPorstRelease bootSeq fastOk fit) s) s (s.hub.setPins
      { s.hub.pins with porst := false, bootSeq := bootSeq, fastOk := fastOk, stackFit := fit }))) ∧
  ((∀ s : State, s.hub.inReset = false → Ends (exec .hubWrstAssert s) fun t =>
    t.hub.pins.wrst = true ∧ t.hub.boot.cold = false ∧ t.hub.lines.reqs = [] ∧ t.hub.mem = s.hub.mem ∧
    ∀ p o, t.hub.rd p o =
      if 4096 * p + o = 4096 * pTherm + 0x44 then s.hub.rd pTherm 0x44 &&& 2
      else if 4096 * p + o = 0x08 then putBit 0 31 (bit (s.hub.rd pHub 0x08) 31)
      else if keptByWarm (4096 * p + o) then s.hub.rd p o else regReset (4096 * p + o)) ∧
  (∀ (s : State) (bootSeq fastOk : Bool), s.hub.pins.wrst = true → s.hub.pins.porst = false →
    Ends (exec (.hubWrstRelease bootSeq fastOk) s) fun t =>
      t.hub.pins.wrst = false ∧ t.hub.pins.fastOk = fastOk ∧
      t.hub.pins.bootSeq = (if s.hub.boot.cold then bootSeq else s.hub.pins.bootSeq) ∧
      t.hub.boot.go = true ∧ t.hub.boot.released = s.hub.now ∧ t.hub.mem = s.hub.mem))

/-- A stage that has begun, runs and ends: the next one is due, and its result is recorded (R398, R400, R401). S1 needs an image that the
ROM accepts (R380), S2 TIMING registers without a zero field (R404), S5 good bonds and areas (R406). S7 reports the bring-up's duration in
milliseconds and waits for the commit of its report (R398, R400, R401). When a stage's command takes effect is the model's choice (log
23). -/
def Obligations.StagesEnd : Prop :=
  ((∀ s : State, s.hub.inStage 0 = true → Ends (exec .stageS0Rom s) fun t =>
    t.hub.boot.ended = 1 ∧
    t.hub.boot.results.getLast? =
      some (0, s.hub.pins.bootSeq.toNat + 2 * s.hub.pins.fastOk.toNat + 4 * (!s.hub.boot.cold).toNat)) ∧
  (∀ s : State, s.hub.inStage 1 = true → Ends (exec .stageS1Fw s) fun t =>
    (∀ slot again, s.hub.romPick s.fuses = some (slot, again) →
      t.hub.boot.ended = 2 ∧ ∃ detail, t.hub.boot.results.getLast? = some (0, detail)) ∧
    (s.hub.romPick s.fuses = none → t.hub.boot.ended = 1 ∧ t.hub.boot.results.getLast? = some (3, 2))) ∧
  (∀ (s : State) (reports : List StackReport), reports.length = 8 → s.hub.inStage 2 = true → s.hub.bootBit 6 = false →
    (∀ st, st < 8 → s.hub.zeroTiming st = false) → Ends (exec (.stageS2Phy reports) s) fun t =>
      t.hub.boot.ended = 3 ∧ ∃ result detail, t.hub.boot.results.getLast? = some (result, detail) ∧ result ≤ 1) ∧
  (∀ (s : State) (results : List TrainReport), results.length = 8 → s.hub.inStage 3 = true →
    Ends (exec (.stageS3Train results) s) fun t =>
      t.hub.boot.ended = 4 ∧ ∃ result detail, t.hub.boot.results.getLast? = some (result, detail) ∧ result ≤ 1) ∧
  (∀ s : State, s.hub.inStage 4 = true → Ends (exec .stageS4Map s) fun t =>
    t.hub.boot.ended = 5 ∧ ∃ result detail, t.hub.boot.results.getLast? = some (result, detail) ∧ result ≤ 1) ∧
  (∀ (s : State) (links : BitVec 10), s.hub.inStage 5 = true → Ends (exec (.stageS5Cache true true links) s) fun t =>
    t.hub.boot.ended = 6 ∧ t.hub.boot.results.getLast? = some (0, links.toNat)) ∧
  (∀ (s : State) (up : BitVec 4) (lanes : List (BitVec 8)), lanes.length = 4 → s.hub.inStage 6 = true →
    Ends (exec (.stageS6Far up lanes) s) fun t =>
      t.hub.boot.ended = 7 ∧ ∃ result detail, t.hub.boot.results.getLast? = some (result, detail) ∧ result ≤ 1)) ∧
  (∀ s : State, s.hub.inStage 7 = true → s.hub.reported7 = false → Ends (exec .stageS7Open s) fun t =>
    t.hub.rd pBoot 0x5C = BitVec.ofNat 32 (min 65535 ((s.hub.now - s.hub.boot.released) / 100000)) ∧
    t.hub.boot.waitCommit = true ∧ t.hub.reported7 = true ∧ t.hub.mem = s.hub.mem)

/-- The operations of the BOOT page begin (R399, R404, R417, R418, R421, R482): START locks the profile, CONTINUE lifts a hold,
WARM_PREPARE begins step 1, STACK_RESET takes the stack out of service. -/
def Obligations.BootOperationsBegin : Prop :=
  (∀ (s : State) (init : Initiator), s.hub.starts init .boot pBoot → 2 ≤ s.hub.boot.ended → s.hub.bootBit 11 = false →
    Ends (exec (.bootStart init) s) fun t =>
      bit (t.hub.rd pBoot 0x40) 11 = true ∧ bit (t.hub.rd pHub 0x08) 31 = true ∧ t.hub.mmio = (0, 0) ∧
      t.hub.mem = s.hub.mem) ∧
  (∀ (s : State) (init : Initiator), s.hub.starts init .boot pBoot → s.hub.bootBit 6 = true → s.hub.boot.go = false →
    Ends (exec (.continue_ init) s) fun t =>
      t.hub.boot.go = true ∧ t.hub.bootBit 6 = false ∧ t.hub.opOf pBoot = some ⟨2, 0, 0, false⟩ ∧ t.hub.mem = s.hub.mem) ∧
  (∀ (s : State) (init : Initiator), s.hub.starts init .boot pBoot → s.hub.bootBit 7 = true → s.hub.bootBit 10 = false →
    (∀ st, st < 8 → bit (s.hub.rd (pStk st) 0x40) 2 = false) →
    (∀ c, c < 64 → (s.hub.dmaCh c).st = 0 ∨ (s.hub.dmaCh c).st = 1 ∨ (s.hub.dmaCh c).st = 4 ∨ (s.hub.dmaCh c).st = 6) →
    s.hub.therm.episode = false → s.hub.therm.exiting = false →
    Becomes (exec (.warmPrepare init) s) s
      ((s.hub.begun pBoot 3 0).setBoot { s.hub.boot with warm := 1 })) ∧
  (∀ (s : State) (init : Initiator), s.hub.starts init .boot pBoot → s.hub.bootBit 7 = true → s.hub.bootBit 10 = false →
    (s.hub.stack (stackSel s.hub)).populated = true → s.hub.pins.pdAck.getLsbD (stackSel s.hub) = false →
    s.hub.stackLive (stackSel s.hub) = false →
    Becomes (exec (.stackReset init) s) s
      ((((s.hub.begun pBoot 4 (stackSel s.hub)).stackOffline (stackSel s.hub)).takeTiming (stackSel s.hub)).submitO 0x26 0
        [BitVec.ofNat 8 (stackSel s.hub), 0, 0]))

/-! Temperature, power, supply -/

/-- A reading of a source is its last reading; a broken one, by a stack one that fails or lies below −40 °C, counts as 106 °C and sets its
bit of FAILED (R238, R428, R429). -/
def Obligations.SourcesAreRead : Prop :=
  (∀ (s : State) (st : BitVec 3) (ok : Bool) (deg : BitVec 8), s.hub.pins.stackFit.getLsbD st.toNat = true → s.hub.inReset = false →
    s.hub.awake st.toNat = true → Ends (exec (.stackTempRead st ok deg) s) fun t =>
      (t.hub.source (16 + st.toNat)).last = (if ok = true ∧ -40 ≤ deg.toInt then deg.toInt * 8 else 848) ∧
      (t.hub.source (16 + st.toNat)).fail = (!ok || decide (deg.toInt < -40)) ∧
      (ok = true → bitsNat (t.hub.rd (pStk st.toNat) 0x64) 0 8 = deg.toNat ∧ bit (t.hub.rd (pStk st.toNat) 0x64) 8 = true) ∧
      bit (t.hub.rd (pStk st.toNat) 0x64) 9 = !ok ∧
      bit (t.hub.rd pTherm 0x5C) (16 + st.toNat) = (!ok || decide (deg.toInt < -40)) ∧
      t.hub.mem = s.hub.mem) ∧
  (∀ (s : State) (i : BitVec 4) (e : BitVec 12), s.hub.inReset = false → -320 ≤ e.toInt → e.toInt ≤ 1200 →
    Ends (exec (.sensorRead i true e) s) fun t =>
      (t.hub.source i.toNat).last = e.toInt ∧ (t.hub.source i.toNat).fail = false ∧
      (t.hub.source i.toNat).hot = decide (840 < e.toInt) ∧ bit (t.hub.rd pTherm 0x5C) i.toNat = false ∧ t.hub.mem = s.hub.mem) ∧
  (∀ (s : State) (i : BitVec 4) (ok : Bool) (e : BitVec 12), s.hub.inReset = false →
    (ok = false ∨ e.toInt < -320 ∨ 1200 < e.toInt) → Ends (exec (.sensorRead i ok e) s) fun t =>
      (t.hub.source i.toNat).last = 848 ∧ (t.hub.source i.toNat).fail = true ∧ (t.hub.source i.toNat).hot = true ∧
      bit (t.hub.rd pTherm 0x5C) i.toNat = true ∧ t.hub.mem = s.hub.mem)

/-- Two successive readings of a sensor above 105 °C start a thermal trip (R432, R433). -/
def Obligations.SecondHotReadingTrips : Prop :=
  ∀ (s : State) (i : BitVec 4) (e : BitVec 12), s.hub.inReset = false → 840 < e.toInt → e.toInt ≤ 1200 →
    (s.hub.source i.toNat).hot = true → s.hub.therm.trip = 0 → Ends (exec (.sensorRead i true e) s) fun t =>
      t.hub.therm.trip = 1 ∧ t.hub.therm.tripAt = s.hub.now ∧ bit (t.hub.rd pTherm 0x44) 0 = true ∧
      bit (t.hub.rd pTherm 0x10) 3 = true ∧ bitsNat (t.hub.rd pTherm 0x78) 0 5 = i.toNat ∧ bit (t.hub.rd pTherm 0x78) 31 = true

/-- Once a millisecond: the throttle step rises with Rmax (R431), and the power estimate is taken (R426); every 100 ms POWER_W takes the
mean (R427). A pace window ends: PACE_CNT takes its count, its SLOW and VALID bits, PACE_MIN its least, and SLOW_SEEN the segment of a
slow one with PACE where it rises (R38, R39). -/
def Obligations.ThrottlePowerAndPace : Prop :=
  ((∀ (s : State) (r : Int), s.hub.inReset = false → s.hub.rmax = some r → bitsNat (s.hub.rd pTherm 0x60) 0 8 ≠ 0 →
    (2 * bitsNat (s.hub.rd pTherm 0x60) 0 8 : Nat) ≤ r →
    (bitsNat (s.hub.rd pTherm 0x60) 8 8 = 0 ∨ r < (2 * bitsNat (s.hub.rd pTherm 0x60) 8 8 : Nat)) →
    s.hub.throttle < 7 → 9 ≤ s.hub.therm.sinceRise → Ends (exec .rorCheck s) fun t =>
      t.hub.throttle = s.hub.throttle + 1 ∧ t.hub.therm.sinceRise = 0 ∧ bit (t.hub.rd pTherm 0x10) 0 = true ∧
      t.hub.mem = s.hub.mem) ∧
  (∀ s : State, s.hub.inReset = false → Becomes (exec .powerEstimate s) s
    ((s.hub.setTherm { s.hub.therm with
        act := [0, 0, 0, 0, 0], sum := s.hub.therm.sum + min (2 ^ 24 - 1) s.hub.estimate, num := s.hub.therm.num + 1 }).wr
      pTherm 0x6C (BitVec.ofNat 32 (min (2 ^ 24 - 1) s.hub.estimate)))) ∧
  (∀ s : State, s.hub.inReset = false → s.hub.therm.num ≠ 0 → Becomes (exec .powerWindowEnd s) s
    ((s.hub.setTherm { s.hub.therm with sum := 0, num := 0 }).wr pTherm 0x68
      (BitVec.ofNat 32 (min 1023 (s.hub.therm.sum / s.hub.therm.num / 1000)))))) ∧
  (∀ (s : State) (g : BitVec 2) (c : BitVec 20), s.hub.inReset = false → Ends (exec (.paceWindowEnd g c) s) fun t =>
    bitsNat (t.hub.rd pHub (0x110 + 4 * g.toNat)) 0 20 = c.toNat ∧
    bit (t.hub.rd pHub (0x110 + 4 * g.toNat)) 30 = decide (c.toNat < 43116) ∧
    bit (t.hub.rd pHub (0x110 + 4 * g.toNat)) 31 = true ∧
    (t.hub.rd pHub (0x120 + 4 * g.toNat)).toNat = min c.toNat (s.hub.fld pHub (0x120 + 4 * g.toNat) 0 20) ∧
    (c.toNat < 43116 → bit (t.hub.rd pHub 0x104) g.toNat = true ∧
      (bit (s.hub.rd pHub 0x104) g.toNat = false → bit (t.hub.rd pHub 0x10) 4 = true)) ∧
    (43116 ≤ c.toNat → t.hub.rd pHub 0x104 = s.hub.rd pHub 0x104) ∧ t.hub.mem = s.hub.mem)

/-- The steps of a thermal trip: drained, flushed, once no dirty sector is left, or cut at 1.2 ms, then self-refresh and the TRIP entry
(R433, R434). Where the clause
moves the interval counter to a due time, that is the model's choice (log 3). -/
def Obligations.TripSteps : Prop :=
  (∀ s : State, s.hub.therm.trip = 1 → s.hub.drained = true →
    Becomes (exec .tripDrainDone s) s (s.hub.setTherm { s.hub.therm with trip := 2 })) ∧
  (∀ (s : State) (h : Hub), s.hub.therm.trip = 2 → (s.hub.therm.episode && s.hub.therm.warn) = false →
    s.hub.therm.selfDone = false → s.hub.therm.exiting = false → s.hub.flushAll = (true, h) →
    Ends (exec .tripFlushDone s) fun t =>
      t.hub = h.tripShut false ∧ t.hub.therm.trip = 3 ∧ ∃ src deg, t.hub.lastEntry 8 [src, deg, 0]) ∧
  (∀ (s : State) (h : Hub), s.hub.therm.trip = 2 → (s.hub.therm.episode && s.hub.therm.warn) = false →
    s.hub.therm.selfDone = false → s.hub.therm.exiting = false → s.hub.flushAll = (false, h) →
    Becomes (exec .tripFlushDone s) s h) ∧
  (∀ s : State, s.hub.therm.trip = 1 ∨ s.hub.therm.trip = 2 → Ends (exec .tripFlushCut s) fun t =>
    t.hub = ((s.hub.reach (s.hub.therm.tripAt + 120000)).dropDirty).tripShut true ∧ t.hub.therm.trip = 3 ∧
    (∃ src deg, t.hub.lastEntry 8 [src, deg, 1]) ∧ t.hub.cache.wb = [] ∧
    t.hub.now = max s.hub.now (s.hub.therm.tripAt + 120000))

/-- A supply episode: it starts with the warning, the stacks are in self-refresh at 5 µs, what is unanswered is answered NOT_READY at 7
µs, and it ends 2 µs after the last deassertion (R437, R438). Where the clause moves the interval counter to a due time, that is the
model's choice (log 3). -/
def Obligations.SupplyEpisode : Prop :=
  (∀ s : State, s.hub.inReset = false → s.hub.pins.supplyWarn = false → s.hub.therm.episode = false →
    Ends (exec .supplyWarnAssert s) fun t =>
      t.hub.pins.supplyWarn = true ∧ t.hub.therm.episode = true ∧ t.hub.therm.warn = true ∧ t.hub.therm.start = s.hub.now ∧
      bit (t.hub.rd pTherm 0x44) 2 = true ∧ t.hub.noTopUp = true ∧ t.hub.mem = s.hub.mem) ∧
  (∀ s : State, s.hub.inReset = false → s.hub.pins.supplyWarn = true → Becomes (exec .supplyWarnDeassert s) s
    ((s.hub.setPins { s.hub.pins with supplyWarn := false }).setTherm { s.hub.therm with warn := false, quietAt := s.hub.now })) ∧
  (∀ s : State, s.hub.therm.episode = true → s.hub.therm.warn = true → s.hub.therm.selfDone = false →
    Ends (exec .supplySelfRefreshDue s) fun t =>
      t.hub.therm.selfDone = true ∧ bit (t.hub.rd pTherm 0x44) 3 = true ∧
      t.hub.now = max s.hub.now (s.hub.therm.start + 500) ∧
      (∀ st, st < 8 → s.hub.awake st = true → (t.hub.stack st).selfRefresh = true) ∧ t.hub.mem = s.hub.mem) ∧
  (∀ s : State, s.hub.therm.episode = true → s.hub.therm.warn = true → s.hub.therm.selfDone = true → s.hub.therm.notReady = false →
    let h := s.hub.reach (s.hub.therm.start + 700)
    Becomes (exec .supplyNotReadyDue s) s ((h.setTherm { h.therm with notReady := true }).withdrawAll).releaseOwed) ∧
  (∀ s : State, s.hub.therm.episode = true → s.hub.therm.warn = false → s.hub.therm.selfDone = true → s.hub.therm.trip < 3 →
    Ends (exec .supplyEpisodeEnd s) fun t =>
      t.hub.therm.episode = false ∧ t.hub.therm.notReady = false ∧ t.hub.therm.exiting = true ∧
      t.hub.now = max s.hub.now (s.hub.therm.quietAt + 200) ∧ t.hub.mem = s.hub.mem) ∧
  (∀ s : State, s.hub.therm.exiting = true → s.hub.therm.trip < 3 → Becomes (exec .selfRefreshExitDone s) s
    (((List.range 8).foldl (fun h st => h.leaveSelfRefresh st) s.hub).afterEpisode))

/-! Epochs and gates -/

/-- A tick adds 1 to the epoch count, or loads it where a load is armed, and at every tick fillBuckets adds to each bucket its rate, up to
its size (R245, R253, R255); a strobe lost is flagged and recorded (R246). -/
def Obligations.EpochTicks : Prop :=
  (∀ s : State, s.hub.inReset = false → s.hub.fld pHub 0x178 0 1 = 0 → Ends (exec .epochTick s) fun t =>
    t.hub.tm.epoch = s.hub.tm.epoch + 1 ∧ t.hub.tm.lastTick = s.hub.now ∧ t.hub.lost = false) ∧
  (∀ s : State, s.hub.inReset = false → s.hub.fld pHub 0x178 0 1 = 1 → Ends (exec .epochTick s) fun t =>
    t.hub.tm.epoch = BitVec.ofNat 64 (s.hub.rd64 pHub 0x160) ∧ t.hub.fld pHub 0x178 0 1 = 0 ∧ t.hub.lost = false) ∧
  (∀ s : State, s.hub.inReset = false → s.hub.lost = false → Ends (exec .epochLost s) fun t =>
    t.hub.lost = true ∧ bit (t.hub.rd pHub 0x10) 6 = true ∧ t.hub.tm = s.hub.tm ∧ t.hub.mem = s.hub.mem) ∧
  (∀ (h : Hub) (k : Nat), SMap.wf (fun _ => Policer.off) h.tm.pol = true → bit (h.policer k).cfg 0 = bit (h.policer k).cfgNow 0 →
    (h.fillBuckets.policer k).tc = min (256 * (h.policer k).cbs.toNat) ((h.policer k).tc + (h.policer k).cir.toNat) ∧
    (h.fillBuckets.policer k).tp = min (256 * (h.policer k).pbs.toNat) ((h.policer k).tp + (h.policer k).pir.toNat)) ∧
  (∀ (h : Hub) (k : Nat), SMap.wf (fun _ => Shaper.off) h.tm.shp = true → bit (h.shaper k).cfg 0 = true →
    (h.fillBuckets.shaper k).tokens = (if bit (h.shaper k).cfgNow 0 = false then (((256 * (h.shaper k).burst.toNat : Nat)) : Int)
      else min ((256 * (h.shaper k).burst.toNat : Nat) : Int)
        ((h.shaper k).tokens + (((h.shaper k).rate.toNat * (8 - h.throttle) / 8 : Nat) : Int))))

/-- A gate entry that has lasted its ticks gives way to the next, and a waiting deal whose start the count has reached makes its bank
active at entry 0 (R258, R260, R261). -/
def Obligations.GateListsAdvance : Prop :=
  (∀ (s : State) (l : BitVec 4), s.hub.dealDue l.toNat = false → s.hub.entryDue l.toNat = true →
    Ends (exec (.gateEntryStart l) s) fun t =>
      (t.hub.gate l.toNat).cur =
        ((s.hub.gate l.toNat).cur + 1) % max 1 (s.hub.bankLen l.toNat (s.hub.gate l.toNat).bank.toNat) ∧
      (t.hub.gate l.toNat).bank = (s.hub.gate l.toNat).bank ∧ (t.hub.gate l.toNat).st = (s.hub.gate l.toNat).st ∧
      t.hub.mem = s.hub.mem) ∧
  (∀ (s : State) (l : BitVec 4), s.hub.dealDue l.toNat = true → Ends (exec (.dealStart l) s) fun t =>
    (t.hub.gate l.toNat).st = 2 ∧ (t.hub.gate l.toNat).bank = (s.hub.gate l.toNat).pend ∧ (t.hub.gate l.toNat).cur = 0 ∧
    bit (t.hub.rd pGate 0x10) 2 = true ∧ t.hub.mem = s.hub.mem)

/-! Host ports and arbiters -/

/-- A header's flit spells that header back, and the slots that carry a request's header and its data stand for its command (R52, R56,
R57). A READ, a WRITE or a REDUCE with the credits it needs, that passes the checks of R66, waits at its arbiter (R66, R247). -/
def Obligations.PortRequestsQueue : Prop :=
  (∀ d : Header, Header.ofFlit d.toFlit = d) ∧
  (∀ (port : BitVec 5) (d : Header) (flits : List Sector), flits.length = d.flitsDue →
    commandsOf port none (.header d.toFlit :: flits.map Slot.data) = [d.command port flits]) ∧
  (∀ (s : State) (port : BitVec 5) (hd : Header) (tgt : Target), hd.opcode = 0 → s.hub.inReset = false →
    hd.lineCount ≤ (s.hub.port port.toNat).held false → s.hub.closed = false → legal hd = true →
    s.hub.decode (.port port) hd = .ok tgt → Ends (exec (.read port hd) s) fun t =>
      ∃ r, t.hub.lines.reqs = s.hub.lines.reqs ++ [r] ∧ r.src = .port port ∧ r.hdr = hd ∧ r.flits = [] ∧ r.phase = .arbiter ∧
        r.target = tgt ∧ r.lines = hd.lineCount ∧ r.accepted = s.hub.now ∧ r.answered = [] ∧ t.hub.mem = s.hub.mem) ∧
  (∀ (s : State) (port : BitVec 5) (hd : Header) (flits : List Sector) (tgt : Target), hd.opcode = 1 → s.hub.inReset = false →
    hd.lineCount ≤ (s.hub.port port.toNat).held true → flits.length = hd.flitsDue → s.hub.closed = false → legal hd = true →
    s.hub.decode (.port port) hd = .ok tgt → noBytes hd = false → Ends (exec (.write port hd flits) s) fun t =>
      ∃ r, t.hub.lines.reqs = s.hub.lines.reqs ++ [r] ∧ r.src = .port port ∧ r.hdr = hd ∧ r.flits = flits ∧ r.phase = .arbiter ∧
        r.target = tgt ∧ r.lines = hd.lineCount ∧ r.accepted = s.hub.now ∧ r.answered = [] ∧ t.hub.mem = s.hub.mem) ∧
  (∀ (s : State) (port : BitVec 5) (hd : Header) (flits : List Sector) (tgt : Target), hd.opcode = 2 → s.hub.inReset = false →
    hd.lineCount ≤ (s.hub.port port.toNat).held true → flits.length = hd.flitsDue → s.hub.closed = false → legal hd = true →
    s.hub.decode (.port port) hd = .ok tgt → noBytes hd = false → Ends (exec (.reduce port hd flits) s) fun t =>
      ∃ r, t.hub.lines.reqs = s.hub.lines.reqs ++ [r] ∧ r.src = .port port ∧ r.hdr = hd ∧ r.flits = flits ∧ r.phase = .arbiter ∧
        r.target = tgt ∧ r.lines = hd.lineCount ∧ r.accepted = s.hub.now ∧ r.answered = [] ∧ t.hub.mem = s.hub.mem)

/-- A trick request, a PAGE_RELEASE or a CLEAR_POISON whose arbiter passes it at once leaves the hub as that choice does: the trick's
record changes, holds are placed or the poison's order instant is taken (R187, R192, R210, R249, R336). -/
def Obligations.ImmediateRequestsPass : Prop :=
  ∀ (s : State) (port : BitVec 5) (hd : Header) (flits : List Sector) (id : Nat) (h : Hub),
    s.hub.accept port hd flits = (id, h) → id ≠ 0 → h.passesAtOnce id port →
    (hd.opcode = 3 → flits = [] → Becomes (exec (.trickOpen port hd) s) s (h.choose (port.toNat / 2))) ∧
    (hd.opcode = 4 → flits.length ≤ hd.flitsDue → Becomes (exec (.trickWrite port hd flits) s) s (h.choose (port.toNat / 2))) ∧
    (hd.opcode = 5 → flits = [] → Becomes (exec (.trickCompare port hd) s) s (h.choose (port.toNat / 2))) ∧
    (hd.opcode = 6 → flits = [] → Becomes (exec (.trickCommit port hd) s) s (h.choose (port.toNat / 2))) ∧
    (hd.opcode = 7 → flits = [] → Becomes (exec (.trickAbort port hd) s) s (h.choose (port.toNat / 2))) ∧
    (hd.opcode = 8 → flits = [] → Becomes (exec (.pageRelease port hd) s) s (h.choose (port.toNat / 2))) ∧
    (hd.opcode = 9 → flits = [] → Becomes (exec (.clearPoison port hd) s) s (h.choose (port.toNat / 2)))

/-- What a passed trick request does to its slot (R184, R185, R187 to R189, R192): TRICK_OPEN takes the lowest FREE slot of the port's
segment, TRICK_COMPARE stages its condition, TRICK_COMMIT of a record that is not empty enters COMMITTING, TRICK_ABORT frees the slot. -/
def Obligations.TrickRequestsActOnTheirSlot : Prop :=
  (∀ (h : Hub) (r : Req) (p : BitVec 5) (i : Nat), r.src = .port p →
    (List.range 64).find? (fun j => (h.trick (64 * (p.toNat / 8) + j)).st == 0) = some i →
    ((h.recordOpen r).trick (64 * (p.toNat / 8) + i)).st = 1 ∧
    ((h.recordOpen r).trick (64 * (p.toNat / 8) + i)).port = p ∧
    ((h.recordOpen r).trick (64 * (p.toNat / 8) + i)).part = r.hdr.part ∧
    ((h.recordOpen r).trick (64 * (p.toNat / 8) + i)).lines = []) ∧
  (∀ (h : Hub) (r : Req), (h.trick r.hdr.trickId.toNat).owns r = true → (h.trick r.hdr.trickId.toNat).st = 1 →
    (h.trick r.hdr.trickId.toNat).tooLarge = 0 → (h.trick r.hdr.trickId.toNat).conds.length < 4 →
    ((h.recordCompare r).trick r.hdr.trickId.toNat).conds =
      (h.trick r.hdr.trickId.toNat).conds ++ [⟨r.line, r.hdr.operand64, bit r.hdr.mod 0⟩]) ∧
  (∀ (h : Hub) (r : Req), (h.trick r.hdr.trickId.toNat).owns r = true → (h.trick r.hdr.trickId.toNat).st = 1 →
    (h.trick r.hdr.trickId.toNat).tooLarge = 0 →
    ¬ ((h.trick r.hdr.trickId.toNat).lines = [] ∧ (h.trick r.hdr.trickId.toNat).conds = []) →
    ((h.recordCommit r).trick r.hdr.trickId.toNat).st = 2 ∧ ((h.recordCommit r).trick r.hdr.trickId.toNat).phase = 1 ∧
    ((h.recordCommit r).trick r.hdr.trickId.toNat).req = r.id) ∧
  (∀ (h : Hub) (r : Req), (h.trick r.hdr.trickId.toNat).owns r = true →
    (h.trick r.hdr.trickId.toNat).st = 1 ∨ (h.trick r.hdr.trickId.toNat).st = 3 →
    (h.recordAbort r).trick r.hdr.trickId.toNat = Trick.free)

/-- A stray data flit and a slot of type 0b11 are discarded and recorded in PROTO_ERR and PORTS, with the interrupt of the port's first
error (R74 to R76). -/
def Obligations.PortErrorsAreRecorded : Prop :=
  (∀ (s : State) (port : BitVec 5), s.hub.inReset = false → Ends (exec (.orphan port) s) fun t =>
    t.hub.rd pHub 0x144 = BitVec.ofNat 32 (port.toNat + 64) ∧ bit (t.hub.rd pHub 0x148) port.toNat = true ∧
    (bit (s.hub.rd pHub 0x148) port.toNat = false → bit (t.hub.rd pHub 0x10) 5 = true) ∧
    t.hub.lines = s.hub.lines ∧ t.hub.ports = s.hub.ports ∧ t.hub.mem = s.hub.mem) ∧
  (∀ (s : State) (port : BitVec 5), s.hub.inReset = false → Ends (exec (.slot port) s) fun t =>
    t.hub.rd pHub 0x144 = BitVec.ofNat 32 (port.toNat + 128) ∧ bit (t.hub.rd pHub 0x148) port.toNat = true ∧
    (bit (s.hub.rd pHub 0x148) port.toNat = false → bit (t.hub.rd pHub 0x10) 5 = true) ∧
    t.hub.lines = s.hub.lines ∧ t.hub.ports = s.hub.ports ∧ t.hub.mem = s.hub.mem)

/-- The port takes its oldest response; a read credit returns with it, and the bundle that carried it carried grants, at most 127 of each
kind (R52, R72, R73). -/
def Obligations.ResponsesLeaveInOrder : Prop :=
  ∀ (s : State) (port : BitVec 5) (r : Response) (rest : List Response), (s.hub.port port.toNat).out = r :: rest →
    Ends (exec (.responseAccepted port) s) fun t =>
      (t.hub.port port.toNat).out = rest ∧ t.hub.lines = s.hub.lines ∧ t.hub.regs = s.hub.regs ∧ t.hub.mem = s.hub.mem ∧
      (r.credit = false → t.hub.poolRd = s.hub.poolRd ∧ (t.hub.port port.toNat).rdHeld = (s.hub.port port.toNat).rdHeld) ∧
      (r.credit = true → t.hub = (s.hub.putPort port.toNat { s.hub.port port.toNat with
        out := rest
        rdGrant := (s.hub.port port.toNat).rdGrant - (s.hub.port port.toNat).bundle.rdCrd.toNat
        wrGrant := (s.hub.port port.toNat).wrGrant - (s.hub.port port.toNat).bundle.wrCrd.toNat }).giveBack false port.toNat)

/-- In a cycle the throttle leaves it, an arbiter first passes a host request that has waited 1 µs and is held back only by the hold limit
(R249, R251, R257); the hold limit passes it in any cycle. A line operation of a port or channel unanswered at 7.5 µs is answered
NOT_READY, withdrawn and counted in DEADLINE_CNT (R69). Where the clause moves the interval counter to a due time, that is the model's
choice (log 3). -/
def Obligations.TimeLimitsPassAndAnswer : Prop :=
  ((∀ (s : State) (a : BitVec 4) (cycle : BitVec 3) (r : Req), cycle.toNat < 8 - s.hub.throttle →
    s.hub.holdHead a.toNat = some r → r.accepted + 100 ≤ s.hub.now →
    Becomes (exec (.arbiterChoice a cycle) s) s (s.hub.passHeld a.toNat r)) ∧
  (∀ (s : State) (a : BitVec 4) (r : Req), s.hub.holdHead a.toNat = some r →
    Becomes (exec (.holdLimitExpiry a) s) s ((s.hub.reach (r.accepted + 100)).passHeld a.toNat r))) ∧
  (∀ (s : State) (id : Nat) (o : LineOp),
    (s.hub.lines.ready ++ s.hub.lines.ordered.filter (fun o => o.kind == .read)).find? (fun o => o.id == id) = some o →
    (∀ c, o.src ≠ .remote c) → o.src ≠ .kitty →
    Becomes (exec (.deadlineNotReady id) s) s
      (((((s.hub.reach (o.accepted + 750)).withdrawOp o).bump pHub 0x140 0 16 1).answer o.req o.idx 4 0 []).settleOn) ∧
    ∀ x ∈ ((s.hub.reach (o.accepted + 750)).withdrawOp o).lines.ready ++
      ((s.hub.reach (o.accepted + 750)).withdrawOp o).lines.ordered, x.id ≠ o.id)

/-! Home slices -/

/-- A line operation that may take its order instant takes it: a read joins the ordered operations and is served as the slice allows; a
write, or a reduction of a partition whose RED_EN is still set, is answered OK at that instant (R42, R47, R48, R134, R135, R147, R172,
R182). One that an earlier operation of its sender to its line is still to precede stays where it is (R43). -/
def Obligations.LineOperationsTakeTheirOrder : Prop :=
  (∀ (s : State) (id : Nat) (o : LineOp) (found : Flips), s.hub.mayOrder o = true →
    let h := ((s.hub.takeOrder o).inject o.part.toNat o.line found).settleOn
    (s.hub.lines.ready.find? (fun x => x.id == id && (x.kind == .read && !x.hdr.narrow)) = some o →
      Becomes (exec (.readLineOp id found) s) s h) ∧
    (s.hub.lines.ready.find? (fun x => x.id == id && (x.kind == .read && x.hdr.narrow)) = some o →
      Becomes (exec (.narrowReadLineOp id found) s) s h) ∧
    (s.hub.lines.ready.find? (fun x => x.id == id && x.kind == .write) = some o →
      Becomes (exec (.writeLineOp ⟨id, found⟩) s) s h) ∧
    (s.hub.lines.ready.find? (fun x => x.id == id && x.kind == .reduce) = some o →
      Becomes (exec (.reduceLineOp ⟨id, found⟩) s) s h)) ∧
  (∀ (h : Hub) (o : LineOp), o.kind = .read ∨ o.kind = .write ∨
      (o.kind = .reduce ∧ bit (BitVec.ofNat 64 (h.rd64 pArith 0x44)) o.part.toNat = true) →
    (h.takeOrder o).lines.ready = h.lines.ready.filter (fun x => x.id != o.id) ∧
    ∃ o' : LineOp, (h.takeOrder o).lines.ordered = h.lines.ordered ++ [o'] ∧ o'.id = o.id ∧ o'.kind = o.kind ∧ o'.line = o.line ∧
      o'.part = o.part ∧ o'.data = o.data ∧ o'.en = o.en ∧ o'.acked = decide (o.kind ≠ .read)) ∧
  (∀ (s : State) (id : Nat) (o : LineOp) (found : Flips), s.hub.behindOwn o = true →
    s.hub.lines.ready.find? (fun x => x.id == id && (x.kind == .read && !x.hdr.narrow)) = some o →
    Becomes (exec (.readLineOp id found) s) s s.hub)

/-- The reduction unit writes the computed elements into a line in REDUCING, which returns to VALID with the touched sectors dirty, and
the line's next operation is served (R172, R173). Sectors fetched for a line arrive whole and good: they enter the way or buffer entry
that waits for them, and what waits is served (R333, R134); a metadata sector enters the cache of its lines' slices (R331); a narrow
read's 64 bytes answer it and fill nothing (R147). Each waits while the journal's queue is full and it has an entry to leave (R461). -/
def Obligations.UpdatesAndFetchesEnd : Prop :=
  (∀ (s : State) (part : BitVec 6) (line : BitVec 34) (o o' : LineOp) (k : Nat) (x : Line) (h h' : Hub),
    s.hub.lines.ordered.find? (fun o => o.part.toNat == part.toNat && o.line == line.toNat) = some o → o.kind = .reduce →
    s.hub.findWay part.toNat line.toNat = some k → (s.hub.way k).st = .reducing →
    s.hub.readTarget o = (o', h) → o'.sectors &&& ~~~(h.way k).v = 0 → h.computeUpdate o' (h.way k).data = (x, h') →
    Becomes (exec (.reductionUpdateEnd part line) s) s
      ((h'.putWay k { h.way k with
          st := .valid, m := (h.way k).m ||| (o'.sectors &&& ~~~o'.skip), data := x
          flaw := rewritten (h.way k).flaw (o'.sectors &&& ~~~o'.skip) }).dropOp o'.id).settleOn) ∧
  ((∀ (s : State) (id : Nat) (errs : Flips) (f : Fetch) (r : Found) (h : Hub), s.hub.findFetch id = some f → f.got = f.want →
    (f.kind = .fill ∨ f.kind = .merge ∨ f.kind = .reduce ∨ f.kind = .wb ∨ f.kind = .clear) → s.hub.journalFull = false →
    s.hub.judge f errs = (r, h) → r.lost = [] → r.macFail = false →
    Becomes (exec (.fillArrival id errs) s) s
      (((((h.placeFetch f r).reduceLost f r).dropFetch f.id).settleLine f.part f.line).orderClears).advanceRepairs) ∧
  (∀ (s : State) (id : Nat) (errs : Flips) (f : Fetch) (w : Nat × Code) (i : Nat), s.hub.findFetch id = some f → f.got = f.want →
    f.kind = .word → s.hub.journalFull = false → (List.range 4).find? (bit f.want) = some i → f.words = [w] →
    (rsDecode (received w.2 errs w.1)).1 = .clean →
    ∃ h : Hub, h.lines.fetches = ((s.hub.dropFetch f.id).landSector f.slab f.off i).lines.fetches ∧
      h.cache = ((s.hub.dropFetch f.id).landSector f.slab f.off i).cache ∧
      Becomes (exec (.fillArrival id errs) s) s (h.gatherOn.settleOn).advanceRepairs) ∧
  (∀ (s : State) (id : Nat) (errs : Flips) (f : Fetch) (r : Found) (h : Hub) (o : LineOp), s.hub.findFetch id = some f →
    f.got = f.want → f.kind = .narrow → s.hub.journalFull = false → s.hub.judge f errs = (r, h) → r.lost = [] →
    r.macFail = false → (h.dropFetch id).lines.ordered.find? (fun o => o.id == f.op) = some o →
    ((h.dropFetch id).lineMeta f.part.toNat f.line).poison = false →
    Becomes (exec (.narrowReturn id errs) s) s
      (((h.dropFetch id).finishRead o 0 (r.data.map (·.2)) (decide (o.hdr.hint = 3))).settleOn)))

/-- A write-back buffer entry of a FILLED chunk, with its metadata word and the tags of absent sectors at hand and room in the write queues,
is handed to the channel engines and leaves the buffer (R136, R332, R341). -/
def Obligations.WriteBackHandoff : Prop :=
  ∀ (s : State) (part : BitVec 6) (line : BitVec 34) (errs : Flips) (e : WbEntry) (k off : Nat),
    s.hub.findWb part.toNat line.toNat = some e → s.hub.place part.toNat line.toNat = some (k, off) →
    let h := s.hub.askWrite e k off errs
    h.writeReady e k off = true → h.queueRoom e k off = true →
    let h := h.readWb part.toNat line.toNat e.m
    let e' := (h.findWb part.toNat line.toNat).getD e
    ∃ (smp : Sample) (seg : Nat), seg = e'.seg.toNat ∧ Becomes (exec (.wbHandoff part line errs) s) s
      ((((h.writeOut e' k off errs).dropWb part.toNat line.toNat).count
        ⟨0x0D, 1, some seg, none, some e'.part, some smp⟩).settleOn)

/-! Tricks -/

/-- Phase one ends with every line present: the locks of phase two are placed, line by line; votes that are all in decide the trick: with
every condition met its lines are written and COMMITTED is answered; at 7.5 µs a commit is answered NOT_READY; at LIMIT an open slot
EXPIRES with its record discarded (R190, R192, R197, R198). Where the clause moves the interval counter to a due time, that is the model's
choice (log 3). -/
def Obligations.TricksDecide : Prop :=
  (∀ (s : State) (slot : BitVec 8), (s.hub.trick slot.toNat).st = 2 → (s.hub.trick slot.toNat).phase = 1 →
    let t := s.hub.trick slot.toNat
    let h := t.all.foldl (fun h l => h.gather t.part.toNat l (s.hub.trickCause t)) s.hub
    t.all.all (fun l => h.present t.part.toNat l) = true →
    ∃ h' : Hub, Becomes (exec (.trickPhaseOneDone slot) s) s h'.settle.orderClears ∧ (h'.trick slot.toNat).phase = 2 ∧
      ∀ l ∈ t.all, (∃ o : LineOp, o ∈ h'.lines.ordered ∧ o.kind = .lock (BitVec.ofNat 8 slot.toNat) ∧ o.line = l ∧ o.part = t.part) ∨
        (l, Vote.collision) ∈ (h'.trick slot.toNat).votes) ∧
  (∀ (s : State) (slot : BitVec 8), (s.hub.trick slot.toNat).st = 2 → (s.hub.trick slot.toNat).phase = 2 →
    (∀ l ∈ (s.hub.trick slot.toNat).all, ∃ v ∈ (s.hub.trick slot.toNat).votes, v.1 = l) →
    (∀ v ∈ (s.hub.trick slot.toNat).votes, v.2 = .holds) →
    s.hub.roomFor (s.hub.trick slot.toNat).req (s.hub.newChunks (s.hub.trick slot.toNat)) = true →
    (s.hub.readLocked (s.hub.trick slot.toNat)).allPresent (s.hub.trick slot.toNat) = true →
    Becomes (exec (.trickPhaseTwoDone slot) s) s
      ((((s.hub.readLocked (s.hub.trick slot.toNat)).applyTrick slot.toNat).conclude slot.toNat 0 0).orderClears)) ∧
  (∀ (s : State) (slot : BitVec 8), (s.hub.trick slot.toNat).st = 2 →
    Becomes (exec (.trickCommitTimeout slot) s) s
      (((((s.hub.reach ((s.hub.trick slot.toNat).accepted + 750)).releaseLocks slot.toNat).bump pHub 0x140 0 16 1).endTrick
        slot.toNat (s.hub.trick slot.toNat).req 4 0 0).settle.orderClears)) ∧
  (∀ (s : State) (slot : BitVec 8), (s.hub.trick slot.toNat).st = 1 → (s.hub.trick slot.toNat).limit ≠ 0 →
    Ends (exec (.trickOpenLimit slot) s) fun t =>
      (t.hub.trick slot.toNat).st = 3 ∧ (t.hub.trick slot.toNat).lines = [] ∧ (t.hub.trick slot.toNat).conds = [] ∧
      bit (t.hub.rd pTrick 0x10) 1 = true ∧
      t.hub.now = max s.hub.now ((s.hub.trick slot.toNat).opened + 100 * (s.hub.trick slot.toNat).limit) ∧
      (∀ j, j ≠ slot.toNat → t.hub.trick j = s.hub.trick j) ∧ t.hub.mem = s.hub.mem)

/-! Page manager and internal tricks -/

/-- The page manager works (R207, R210, R212, R213): an internal trick whose locks are placed and whose lines are at hand copies sixteen
lines of a page move, and the move ends with the page at its target; where it is the partition's turn a move starts at the highest
allocated page and the next FREE_DIRTY page is zeroed; a first write gets a backing page or NO_SPACE; a release with every hold in place
takes its order instant. A released page is UNALLOCATED and no hold or release of its request is left (R210). The internal trick waits
while the journal's queue is full and it has an entry to leave (R461). -/
def Obligations.PageManagerWorks : Prop :=
  ((∀ (s : State) (g : BitVec 2) (errs : Flips) (m : PageMove) (t t' : ITrick), s.hub.moveIn g.toNat = some m →
    s.hub.bgTurn m.part.toNat = true → s.hub.journalFull = false → s.hub.moveTrick g.toNat = some t →
    let h := s.hub.putMove g.toNat (some m)
    h.pages.itricks.find? (fun x => x.ctx == t.ctx) = some t →
    let items := h.moveItems m
    let h := items.foldl (fun h i => h.askCopy t.ctx i) (h.dropLostReads t items errs)
    h.pages.itricks.find? (fun x => x.ctx == t.ctx) = some t' → (∀ i ∈ items, h.copyReady t' i = true) →
    ∃ h' : Hub, Becomes (exec (.internalTrickCommit g errs) s) s h'.settleOn ∧
      (m.mw + 16 < 256 → h'.moveIn g.toNat = some { m with mw := m.mw + 16, tries := 0, blocked := [] }) ∧
      (256 ≤ m.mw + 16 → h'.moveIn g.toNat = none ∧
        ∃ voids, h'.fwd m.part.toNat m.page = mkFwd m.dst 1 voids)) ∧
  (∀ (s : State) (part : BitVec 6) (g : BitVec 2) (b w x : Nat), s.hub.bgTurn part.toNat = true → s.hub.moveIn g.toNat = none →
    s.hub.compacting part.toNat = true → s.hub.highestIn part.toNat g.toNat = some (b, w) →
    s.hub.lowestZero part.toNat true 0 (min b (s.hub.pageLimit part.toNat)) = some x →
    Becomes (exec (.pageMove part g) s) s
      ((((s.hub.putFwd part.toNat w (mkFwd b 2 (fwdVoids (s.hub.fwd part.toNat w)))).putRev part.toNat x (mkRev w 3)).putMove
        g.toNat (some ⟨BitVec.ofNat 6 part.toNat, w, b, x, 0, 0, []⟩)).noteLow part.toNat)) ∧
  (∀ (s : State) (part : BitVec 6) (b : Nat), s.hub.bgTurn part.toNat = true →
    ((bit (s.hub.rd pPagemgr 0x804) 0 = true ∧ s.hub.lowestDirty part.toNat true 0 (s.hub.table part.toNat).p = some b) ∨
      (bit (s.hub.rd pPagemgr 0x804) 0 = false ∧ (∃ top, s.hub.topPage part.toNat = some top ∧ s.hub.pageLimit part.toNat ≤ top) ∧
        s.hub.lowestZero part.toNat true 0 (s.hub.pageLimit part.toNat) = none ∧
        s.hub.lowestDirty part.toNat true 0 (s.hub.pageLimit part.toNat) = some b)) →
    Becomes (exec (.pageZero part) s) s
      (((s.hub.zeroPage part.toNat b false).putRev part.toNat b (mkRev 0 1)).bgCharge part.toNat 65536)) ∧
  (∀ (s : State) (id : Nat) (o : LineOp), s.hub.lines.ready.find? (fun o => o.id == id && (o.kind == .write || o.kind == .reduce)) =
      some o → (s.hub.part o.part.toNat).managed = true → s.hub.behindOwn o = false →
    (s.hub.pageState o.part.toNat o.line = 0 ∨ s.hub.pageState o.part.toNat o.line = 3) →
    (∀ h, s.hub.allocPage o.part.toNat (o.line / 256) = some h → Becomes (exec (.pageAllocate id) s) s h) ∧
    (s.hub.allocPage o.part.toNat (o.line / 256) = none → Ends (exec (.pageAllocate id) s) fun t =>
      bit (t.hub.rd pPagemgr 0x10) 1 = true ∧ (∀ x ∈ t.hub.lines.ready, x.id ≠ id) ∧ t.hub.mem = s.hub.mem)) ∧
  (∀ (s : State) (part : BitVec 6) (page : BitVec 26) (rel : PageRel),
    s.hub.pages.releases.find? (fun x => x.part.toNat == part.toNat && x.page == page.toNat) = some rel →
    (∀ o ∈ s.hub.lines.ordered, o.kind = .hold → o.req = rel.req → s.hub.firstOfLine o = true) →
    Becomes (exec (.pageReleaseCommit part page) s) s
      ((((s.hub.unmapPage rel part.toNat page.toNat).answer rel.req 0 0 0 []).settle).orderClears))) ∧
  (∀ (h : Hub) (rel : PageRel) (p w : Nat),
    (h.unmapPage rel p w).fwd p w = mkFwd 0 0 0 ∧
    (∀ x ∈ (h.unmapPage rel p w).pages.releases, x.req ≠ rel.req) ∧
    (∀ o ∈ (h.unmapPage rel p w).lines.ordered, o.kind = .hold → o.req ≠ rel.req))

/-! Regions, repair, retirement -/

/-- Sixteen offsets of a migration: a batch of an UNFILLED chunk is skipped; one of a FILLED chunk whose internal trick holds its locks
and has its lines at hand is copied to the target; either way the watermark rises, and after the last batch RETIRE_END is submitted
(R351). An internal trick whose lines nothing locks and nothing uses takes its locks at its first attempt (R201). -/
def Obligations.MigrationBatches : Prop :=
  (∀ (s : State) (i : BitVec 2) (errs : Flips) (m : Migration),
    (s.hub.ras.migs.filter (fun m => m.phase != 0))[i.toNat]? = some m → m.phase = 1 → s.hub.journalFull = false →
    (s.hub.chunkState m.k m.wm = .unfilled → Becomes (exec (.migrationBatch i errs) s) s (s.hub.raiseMark m)) ∧
    (s.hub.chunkState m.k m.wm = .filled → ∀ t t' : ITrick, s.hub.migTrick m = some t →
      let h := s.hub.putMig m
      h.pages.itricks.find? (fun x => x.ctx == t.ctx) = some t →
      let items := h.migItems m
      let h := items.foldl (fun h i => h.askCopy t.ctx i) (h.dropLostReads t items errs)
      h.pages.itricks.find? (fun x => x.ctx == t.ctx) = some t' → (∀ i ∈ items, h.copyReady t' i = true) →
      ∃ h' : Hub, Becomes (exec (.migrationBatch i errs) s) s h'.settleOn ∧ (∀ x ∈ h'.pages.itricks, x.ctx ≠ t'.ctx) ∧
        (m.wm + 16 < s.hub.bigD → { m with wm := m.wm + 16, tries := 0, blocked := [] } ∈ h'.ras.migs) ∧
        (s.hub.bigD ≤ m.wm + 16 → h'.lastEntry 4 (le16 m.k ++ le16 m.a ++ le16 m.b)))) ∧
  (∀ (h : Hub) (g c target : Nat) (move : Option Nat) (a : Tries) (ls : List (Nat × Nat)), h.freeItrick g = some c →
    a.blocked = [] → a.n < 4 → h.anyReserved ls = false → h.lockers ls = [] → h.linesBusy ls = false →
    (h.attempt g move target a ls).2.pages.itricks = h.pages.itricks ++ [⟨c, move, target, ls, []⟩] ∧
    (∀ e ∈ ls, ∃ o ∈ (h.attempt g move target a ls).2.lines.ordered, o.kind = .ilock c ∧ o.line = e.2 ∧
      o.part = BitVec.ofNat 6 e.1))

/-- A PENDING chunk whose every write has entered a write queue becomes FILLED and its waiting operations are served (R342); the
background fill makes the lowest UNFILLED chunk of a FILLING region PENDING (R343). -/
def Obligations.ChunksFill : Prop :=
  (∀ (s : State) (slab : BitVec 11) (region : BitVec 8) (chunk : BitVec 6),
    s.hub.isPending slab.toNat (region.toNat * 8192 + chunk.toNat * 128) = true →
    s.hub.chunkHeld slab.toNat (region.toNat * 8192 + chunk.toNat * 128) = false →
    let base := region.toNat * 8192 + chunk.toNat * 128
    let h := s.hub.setFilled slab.toNat base
    Becomes (exec (.chunkFilled slab region chunk) s) s h.settleOn ∧ bit (h.chunkMap slab.toNat base) chunk.toNat = true ∧
      h.isPending slab.toNat base = false) ∧
  (∀ (s : State) (slab : BitVec 11) (region : BitVec 8) (c : Nat), s.hub.chunkMap slab.toNat (region.toNat * 8192) ≠ 0 →
    (s.hub.slabOwner slab.toNat).isSome = true → region.toNat * 8192 < s.hub.bigD →
    (List.range 64).find? (fun c => s.hub.chunkState slab.toNat (region.toNat * 8192 + 128 * c) == .unfilled) = some c →
    s.hub.roomFor 0 [(slab.toNat, (region.toNat * 8192 + 128 * c) / 128, (s.hub.lslab slab.toNat).home)] = true →
    Becomes (exec (.backgroundFill slab region) s) s (s.hub.makePending slab.toNat (region.toNat * 8192 + 128 * c)))

/-- The scrubber's walk: the next read of a stack is issued, at SCRUB_LEVEL and for four sectors (R344); a read that returns clean fixes
nothing (R345). -/
def Obligations.ScrubberWalks : Prop :=
  (∀ (s : State) (st : BitVec 3) (ps off : Nat), s.hub.fld pRas 0x80 31 1 = 1 → s.hub.scrubbing st.toNat = false →
    s.hub.scrubStacks.contains st.toNat = true → s.hub.nextScrub st.toNat = some (ps, off) →
    Ends (exec (.scrubberReadIssue st) s) fun t =>
      (∃ f ∈ t.hub.lines.fetches, f.kind = .scrub ∧ f.ps = ps ∧ f.off = off ∧ f.want = 15 ∧
        f.level = s.hub.bgLevel ps) ∧
      t.hub.scrubOf st.toNat = ⟨ps % 256, off + 1, false⟩ ∧ t.hub.mem = s.hub.mem) ∧
  (∀ (s : State) (st : BitVec 3) (errs : Flips) (f : Fetch),
    s.hub.lines.fetches.find? (fun f => f.kind == .scrub && slabStack f.ps == st.toNat && f.got == f.want) = some f →
    (∀ w ∈ f.words, (rsDecode (received w.2 errs w.1)).1 = .clean) →
    Becomes (exec (.scrubRead st errs) s) s ((s.hub.dropFetch f.id).settleOn.scrubPassEnd))

/-- A row repair that finds a spare row enters the repair table and PPR_CNT, raises PPR_DONE and is over (R346, R348, R359). -/
def Obligations.RowRepairEnds : Prop :=
  ∀ (s : State) (st : BitVec 3) (units : BitVec 16) (errs : Flips) (r : Repair), s.hub.pins.stackFit.getLsbD st.toNat = true →
    s.hub.ras.repairs.find? (fun r => slabStack r.ps == st.toNat && r.phase == 3) = some r →
    units.toNat ≤ 100 * s.hub.fld pRas 0x808 0 8 →
    let h := if s.hub.fld pRas 0xA0 0 16 < units.toNat then s.hub.wrFld pRas 0xA0 0 16 units.toNat else s.hub
    let h := r.offsets.zipIdx.foldl (fun h x => h.rewrite r x.1 errs (4 * x.2)) h
    let h := h.setRas { h.ras with table := h.ras.table ++ [(r.ps, r.bg, r.bank, r.row)] }
    Becomes (exec (.pprSequenceEnd st units false errs) s) s
      ((((h.putPslab r.ps { h.pslab r.ps with repairs := satAdd 15 (h.pslab r.ps).repairs 1, slow := false }).bump pRas 0x60 0 32
        1).raise pRas 3).dropRepair r)

/-! Channel engines -/

/-- A command slot of an engine: each of its two pseudo-channels has its slot, in turn on the shared buses (R227). Reads that have waited
0.8 µs rise to level 8 (R225); a refresh window adds one refresh to the debt of every bank of a serving PC, and the next follows half
T_REFI later (R231). Where the clause moves
the interval counter to a due time, that is the model's choice (log 3). -/
def Obligations.SlotsAgesAndRefreshDebt : Prop :=
  (∀ (s : State) (e : BitVec 8),
    let a := 2 * e.toNat + (s.hub.pc (2 * e.toNat)).slot % 2
    let b := 4 * e.toNat + 1 - a
    let first := s.hub.pcSlot a true true
    Becomes (exec (.commandSlot e) s) s (first.1.pcSlot b first.2.1 first.2.2).1 ∧
    (first.1.pc a).slot = (s.hub.pc a).slot + 1 ∧ ((first.1.pcSlot b first.2.1 first.2.2).1.pc b).slot = (first.1.pc b).slot + 1) ∧
  ((∀ (s : State) (e : BitVec 8) (pc : BitVec 1) (x : RdEntry),
    let i := 2 * e.toNat + pc.toNat
    (s.hub.pc i).queued.find? (fun e => decide (e.cand.level < 8)) = some x →
    Ends (exec (.ageRaise e pc) s) fun t =>
      t.hub.now = max s.hub.now (x.entered.getD s.hub.now + 80) ∧
      (∀ y ∈ (t.hub.pc i).rd, ∀ a, y.entered = some a → a + 80 ≤ t.hub.now → y.level = 8) ∧
      (t.hub.pc i).rd.length = (s.hub.pc i).rd.length ∧ (∀ j, j ≠ i → t.hub.pc j = s.hub.pc j) ∧ t.hub.mem = s.hub.mem) ∧
  (∀ (s : State) (e : BitVec 8) (pc : BitVec 1),
    let i := 2 * e.toNat + pc.toNat
    ((s.hub.pc i).st = 1 ∨ (s.hub.pc i).st = 2 ∨ (s.hub.pc i).st = 3) → (s.hub.pc i).windowAt ≤ 2 * (s.hub.pc i).slot →
    Ends (exec (.refreshWindow e pc) s) fun t =>
      (t.hub.pc i).windowAt = (s.hub.pc i).windowAt + (s.hub.stack (i / 64)).refi ∧
      (∀ k, k < 16 * s.hub.amap.sids → ((t.hub.pc i).bank k).debt = ((s.hub.pc i).bank k).debt + 1) ∧
      (∀ j, j ≠ i → t.hub.pc j = s.hub.pc j) ∧ t.hub.mem = s.hub.mem))

/-- A parity error: the PC recovers, closes every row, is to issue its last commands again in their order, and counts it; the third within
1 s abandons the migrations to the PC and lists its LIVE slabs for retirement (R233, R234, R353). -/
def Obligations.ParityErrorsRecover : Prop :=
  ∀ (s : State) (e : BitVec 8) (pc : BitVec 1), s.hub.pins.stackFit.getLsbD (e.toNat / 32) = true →
    let i := 2 * e.toNat + pc.toNat
    let recent := (s.hub.pc i).parity.filter (fun t => decide (s.hub.now < t + 100000000))
    Ends (exec (.parityError e pc) s) fun t => ∃ h : Hub,
      t.hub = (if 2 ≤ recent.length then (h.abandonWhere (fun b => slabPc b == i)).retireList (h.liveOf i false) 1 (i / 2) else h) ∧
      (h.pc i).recover = (s.hub.stack (i / 64)).parRec + (s.hub.stack (i / 64)).tm 0 2 ∧ (h.pc i).issued = [] ∧
      (h.pc i).reissue = keepIssued (s.hub.stack (i / 64)) (s.hub.pc i) ++ (s.hub.pc i).reissue ∧
      (∀ k, ((h.pc i).bank k).row = none) ∧ bit (h.rd (pStk (e.toNat / 32)) 0x10) 1 = true ∧
      (h.pc i).parity = recent ++ [s.hub.now] ∧
      h.mem = s.hub.mem

/-- Retraining slices (R235, R241): the next data slice due runs on its serving PC, which enters SLICE; its end moves each lane's delay by
at most one step, counts it, and the PC resumes; an OFFLINE channel whose training passes, spare lanes being allowed or not needed, serves
again (R236, R405). Where the clause moves the interval counter to a due time, that is
the model's choice (log 3). -/
def Obligations.SlicesAndTraining : Prop :=
  (∀ (s : State) (st : BitVec 3), s.hub.pins.stackFit.getLsbD st.toNat = true → s.hub.fld (pStk st.toNat) 0x58 31 1 = 1 →
    (s.hub.stack st.toNat).slice = 0 → (s.hub.stack st.toNat).opSlice = false → (s.hub.stack st.toNat).selfRefresh = false →
    s.hub.therm.episode = false → bit (s.hub.rd (pStk st.toNat) 0x40) 1 = true →
    (s.hub.sliceDue st.toNat).1 < (s.hub.sliceDue st.toNat).2 → (s.hub.stack st.toNat).nextData < 63 →
    (s.hub.pc (st.toNat * 64 + (s.hub.stack st.toNat).nextData)).serving = true →
    Ends (exec (.periodicRetrainSlice st) s) fun t =>
      (t.hub.stack st.toNat).slice = 1 ∧ (t.hub.stack st.toNat).slicePc = (s.hub.stack st.toNat).nextData ∧
      (t.hub.stack st.toNat).nextData = (s.hub.stack st.toNat).nextData + 1 ∧
      (t.hub.pc (st.toNat * 64 + (s.hub.stack st.toNat).nextData)).st = 2 ∧
      t.hub.now = max s.hub.now (s.hub.sliceDue st.toNat).1 ∧ t.hub.mem = s.hub.mem) ∧
  (∀ (s : State) (st : BitVec 3) (lanes : List LaneReport), s.hub.pins.stackFit.getLsbD st.toNat = true →
    (s.hub.stack st.toNat).slice = 1 → (s.hub.stack st.toNat).drifts lanes = false →
    (s.hub.stack st.toNat).opSlice = false → s.hub.opOf (pStk st.toNat) = none →
    (s.hub.pc (st.toNat * 64 + (s.hub.stack st.toNat).slicePc)).st = 2 →
    Ends (exec (.retrainingSliceEnd st lanes) s) fun t =>
      (t.hub.stack st.toNat).slice = 0 ∧ (t.hub.stack st.toNat).delays = ((s.hub.stack st.toNat).measure lanes).delays ∧
      (t.hub.pc (st.toNat * 64 + (s.hub.stack st.toNat).slicePc)).st =
        (s.hub.pc (st.toNat * 64 + (s.hub.stack st.toNat).slicePc)).prior ∧
      t.hub.fld (pStk st.toNat) 0x5C 0 24 = satAdd (2 ^ 24 - 1) (s.hub.fld (pStk st.toNat) 0x5C 0 24) 1 ∧ t.hub.mem = s.hub.mem) ∧
  (∀ (s : State) (e : BitVec 8) (repaired : BitVec 8), s.hub.pins.stackFit.getLsbD (e.toNat / 32) = true →
    (s.hub.pc (2 * e.toNat)).st = 4 → s.hub.ras.pending = [] → s.hub.sparing = true ∨ repaired = 0 →
    Ends (exec (.channelTrainingEnd e true repaired) s) fun t =>
      (t.hub.pc (2 * e.toNat)).st = 1 ∧ (t.hub.pc (2 * e.toNat + 1)).st = 1 ∧
      bit (t.hub.rd (pStk (e.toNat / 32)) 0x60) (e.toNat % 32) = false ∧
      t.hub.rd (pStk (e.toNat / 32)) 0x68 = BitVec.ofNat 32 repaired.toNat ∧ t.hub.mem = s.hub.mem)

/-! Dumps, power domains, DMA -/

/-- A dump that falls due begins its record, or is skipped while one is being written (R451); once the writes of a step have taken their
order the next step's are made, and the third completes the record: DUMP_STATUS.NEXT names the next record, IRQ bit 3 rises
(R453, R456). An MSI
acknowledge lets the vector's next message go (R96). -/
def Obligations.DumpsAndAcknowledgements : Prop :=
  (∀ s : State, s.hub.dumping = true → max 1 (s.hub.rd pPerf 0x74).toNat ≤ s.hub.perf.ticks → s.hub.therm.episode = false →
    s.hub.therm.trip = 0 → s.hub.perf.stopping = false → s.hub.perf.dump.step = 0 →
    Becomes (exec .dumpDue s) s ((s.hub.setPerf { s.hub.perf with ticks := 0 }).dumpBegin false)) ∧
  (∀ s : State, s.hub.dumping = true → max 1 (s.hub.rd pPerf 0x74).toNat ≤ s.hub.perf.ticks → s.hub.therm.episode = false →
    s.hub.therm.trip = 0 → s.hub.perf.stopping = false → s.hub.perf.dump.step ≠ 0 →
    Ends (exec .dumpDue s) fun t =>
      t.hub.perf.skippedFlag = true ∧ (t.hub.rd pPerf 0x90).toNat = min (2 ^ 32 - 1) ((s.hub.rd pPerf 0x90).toNat + 1) ∧
      t.hub.perf.dump = s.hub.perf.dump ∧ t.hub.mem = s.hub.mem) ∧
  (∀ s : State, s.hub.perf.dump.step = 2 → s.hub.perf.dump.out = [] → Becomes (exec .dumpRecordWritten s) s
    ((s.hub.setPerf { s.hub.perf with dump := { s.hub.perf.dump with step := 3 } }).dumpWrite 0 (s.hub.perf.dump.bytes.take 64))) ∧
  (∀ s : State, s.hub.perf.dump.step = 3 → s.hub.perf.dump.out = [] → Ends (exec .dumpRecordWritten s) fun t =>
    t.hub.perf.seq = s.hub.perf.seq + 1 ∧ t.hub.perf.dump = Dump.idle ∧ bit (t.hub.rd pPerf 0x8C) 2 = false ∧
    bitsNat (t.hub.rd pPerf 0x8C) 8 24 = (s.hub.perf.seq + 1) % 2 ^ 24 ∧ bit (t.hub.rd pPerf 0x10) 3 = true ∧
    t.hub.mem = s.hub.mem) ∧
  (∀ (s : State) (v : BitVec 6), Becomes (exec (.msiAck v) s) s
    (s.hub.setIrq { s.hub.irq with waiting := SMap.set (fun _ => none) s.hub.irq.waiting v.toNat none }))

/-- The power-domain handshake: a request for a stack that holds a LIVE or TARGET slab is answered PD_NAK; otherwise PD_ACK rises with the
stack's pseudo-channels OFFLINE, or, for a host domain, once every channel that touches it stands with no access outstanding (R90, R91,
R295); both answers fall with the request, and a stack that was down is brought back (R90, R92, R419). -/
def Obligations.PowerDomains : Prop :=
  (∀ (s : State) (d : BitVec 4), bit s.hub.pins.pdReq d.toNat = false → s.hub.inReset = false → s.hub.afterS7 = true → d.toNat < 8 →
    Ends (exec (.pdReqRise d) s) fun t =>
      bit t.hub.pins.pdReq d.toNat = true ∧ bit t.hub.pins.pdNak d.toNat = (s.hub.stackLive d.toNat || bit s.hub.pins.pdNak d.toNat) ∧
      t.hub.pins.pdAck = s.hub.pins.pdAck ∧ t.hub.mem = s.hub.mem) ∧
  (∀ (s : State) (d : BitVec 4), bit s.hub.pins.pdReq d.toNat = false → s.hub.inReset = false → s.hub.afterS7 = true → 8 ≤ d.toNat →
    Becomes (exec (.pdReqRise d) s) s
      ((s.hub.touching d.toNat).foldl (fun h c => h.powerStop c)
        (s.hub.setPins { s.hub.pins with pdReq := putBit s.hub.pins.pdReq d.toNat true }))) ∧
  (∀ (s : State) (d : BitVec 4), s.hub.inReset = false → bit s.hub.pins.pdReq d.toNat = true → bit s.hub.pins.pdAck d.toNat = false →
    bit s.hub.pins.pdNak d.toNat = false → d.toNat < 8 → s.hub.stackLive d.toNat = false →
    Ends (exec (.pdAckRaise d) s) fun t =>
      bit t.hub.pins.pdAck d.toNat = true ∧ t.hub.pins.pdNak = s.hub.pins.pdNak ∧
      (∀ j, j < 64 → (t.hub.pc (d.toNat * 64 + j)).st = 4 ∨ (t.hub.pc (d.toNat * 64 + j)).st = 5) ∧ t.hub.mem = s.hub.mem) ∧
  (∀ (s : State) (d : BitVec 4), s.hub.inReset = false → bit s.hub.pins.pdReq d.toNat = true → bit s.hub.pins.pdAck d.toNat = false →
    bit s.hub.pins.pdNak d.toNat = false → 8 ≤ d.toNat →
    (∀ c, (s.hub.touching d.toNat).contains c = true → (s.hub.dmaCh c).busy = false) →
    Becomes (exec (.pdAckRaise d) s) s (s.hub.putAck d.toNat true)) ∧
  (∀ (s : State) (d : BitVec 4) (r : OpEnd), bit s.hub.pins.pdReq d.toNat = true →
    Ends (exec (.pdReqFall d r) s) fun t =>
      bit t.hub.pins.pdReq d.toNat = false ∧ bit t.hub.pins.pdAck d.toNat = false ∧ bit t.hub.pins.pdNak d.toNat = false ∧
      t.hub.mem = s.hub.mem) ∧
  (∀ (s : State) (d : BitVec 4) (r : OpEnd), bit s.hub.pins.pdReq d.toNat = true →
    bit s.hub.pins.pdAck d.toNat = true → s.hub.inReset = false → s.hub.afterS7 = true → d.toNat < 8 →
    (s.hub.stack d.toNat).populated = true →
    Becomes (exec (.pdReqFall d r) s) s
      (((((s.hub.setPins { s.hub.pins with pdReq := putBit s.hub.pins.pdReq d.toNat false }).putAck d.toNat false).putNak
        d.toNat false).takeTiming d.toNat).stackRestart d.toNat r))

/-- The bursts and descriptors of a channel. A ready channel, in its turn of the round robin (R298), takes its next burst, up to the next
multiple of BURST_MAX, or waits for its pacing (R284, R285, R291, R292); the writes follow the reads, and at their end BURST_CNT counts and
CRC takes the burst's bytes (R285, R287); a failed burst is repeated after 1 µs (R296); a fetched descriptor with OWN = 0 ends the chain,
one that passes its checks runs (R280, R289); one whose bursts are done is completed by STATUS, then OWN (R288). A request line that falls
leaves its bursts to complete (R293). Where the clause moves the interval counter to a due time, that is the model's choice (log 3). -/
def Obligations.DmaChannelEvents : Prop :=
  (∀ (s : State) (c : BitVec 6) (l : Bool), s.hub.dmaReady c.toNat = true → s.hub.dmaWeight c.toNat ≠ 0 →
    (0 < (s.hub.dmaCh c.toNat).left ∨
      ∀ x ∈ (s.hub.sampleLine c.toNat l).dmaRivals (c.toNat / 16), (s.hub.dmaCh x).left = 0) →
    (s.hub.dmaCh c.toNat).bursts = [] → s.hub.therm.episode = false → s.hub.therm.exiting = false → s.hub.pins.supplyWarn = false →
    (s.hub.fld (pDma c.toNat) 0x40 20 2 % 2 = 1 → l = true) →
    (2 ≤ s.hub.fld (pDma c.toNat) 0x40 20 2 → 0 < s.hub.fld (pDma c.toNat) 0x70 0 16) →
    Ends (exec (.dmaBurstStart c l) s) fun t =>
      let d := s.hub.dmaCh c.toNat
      let per := max 1 (d.burstElems (s.hub.burstMax c.toNat))
      let n := min d.total ((d.pos / per + 1) * per) - d.pos
      (t.hub.dmaCh c.toNat).st = 2 ∧ (t.hub.dmaCh c.toNat).pos = d.pos + n ∧
      (∃ b, (t.hub.dmaCh c.toNat).bursts = [b] ∧ b.first = d.pos ∧ b.count = n ∧ b.phase = 1) ∧
      (2 ≤ s.hub.fld (pDma c.toNat) 0x40 20 2 → t.hub.fld (pDma c.toNat) 0x70 0 16 = s.hub.fld (pDma c.toNat) 0x70 0 16 - 1) ∧
      t.hub.mem = s.hub.mem) ∧
  (∀ (s : State) (c : BitVec 6) (l : Bool), s.hub.dmaReady c.toNat = true →
    (s.hub.dmaCh c.toNat).bursts = [] →
    ((s.hub.fld (pDma c.toNat) 0x40 20 2 % 2 = 1 ∧ l = false) ∨
      (2 ≤ s.hub.fld (pDma c.toNat) 0x40 20 2 ∧ s.hub.fld (pDma c.toNat) 0x70 0 16 = 0)) →
    Ends (exec (.dmaBurstStart c l) s) fun t =>
      (t.hub.dmaCh c.toNat).st = 3 ∧ (t.hub.dmaCh c.toNat).pos = (s.hub.dmaCh c.toNat).pos ∧
      (t.hub.dmaCh c.toNat).bursts = [] ∧ t.hub.mem = s.hub.mem) ∧
  (∀ (s : State) (x : BitVec 8), Ends (exec (.dmaReqFall x) s) fun t =>
    bit t.hub.pins.dmaReq x.toNat = false ∧
    (∀ c, c < 64 → s.hub.fld (pDma c) 0x40 20 1 = 1 → s.hub.fld (pDma c) 0x40 24 8 = x.toNat →
      (∀ b ∈ (t.hub.dmaCh c).bursts, b.fell = true) ∧
      ((s.hub.dmaCh c).bursts.any (fun b => !b.fell) = true →
        (t.hub.rd (pDma c) 0x80).toNat = min (2 ^ 32 - 1) ((s.hub.rd (pDma c) 0x80).toNat + 1))) ∧
    t.hub.lines = s.hub.lines ∧ t.hub.mem = s.hub.mem) ∧
  (∀ (s : State) (c : BitVec 6) (b : Burst), (s.hub.dmaCh c.toNat).bursts = [b] → (s.hub.dmaCh c.toNat).stopFor < 4 → b.phase = 1 →
    b.todo = [] → b.reqs = [] → b.code = 0 → Ends (exec (.dmaBurstReadsDone c) s) fun t =>
      (∃ b', (t.hub.dmaCh c.toNat).bursts = [b'] ∧ b'.phase = 2 ∧ b'.first = b.first ∧ b'.count = b.count ∧
        b'.out = ((s.hub.dmaCh c.toNat).produce (bit (s.hub.rd pArith 0x808) 0) b).2) ∧ t.hub.mem = s.hub.mem) ∧
  (∀ (s : State) (c : BitVec 6) (b : Burst), (s.hub.dmaCh c.toNat).bursts = [b] → (s.hub.dmaCh c.toNat).stopFor = 0 → b.phase = 2 →
    b.todo = [] → b.reqs = [] → b.code = 0 → Ends (exec (.dmaBurstEnd c) s) fun t =>
      (t.hub.dmaCh c.toNat).bursts = [] ∧ (t.hub.dmaCh c.toNat).retries = 0 ∧
      (t.hub.rd (pDma c.toNat) 0x74).toNat = min (2 ^ 32 - 1) ((s.hub.rd (pDma c.toNat) 0x74).toNat + 1) ∧
      t.hub.rd (pDma c.toNat) 0x6C = crcOn (s.hub.rd (pDma c.toNat) 0x6C) b.out ∧ t.hub.mem = s.hub.mem) ∧
  (∀ (s : State) (c : BitVec 6) (b : Burst) (rest : List Burst), (s.hub.dmaCh c.toNat).bursts = b :: rest → b.phase = 0 →
    (s.hub.dmaCh c.toNat).stopFor < 4 → s.hub.therm.episode = false → s.hub.therm.exiting = false →
    Ends (exec (.dmaRetryTimer c) s) fun t =>
      t.hub.now = max s.hub.now (s.hub.dmaCh c.toNat).retryAt ∧
      (t.hub.rd (pDma c.toNat) 0x7C).toNat = min (2 ^ 32 - 1) ((s.hub.rd (pDma c.toNat) 0x7C).toNat + 1) ∧
      (∃ b' rest', (t.hub.dmaCh c.toNat).bursts = b' :: rest' ∧ b'.phase = 1 ∧ b'.first = b.first ∧ b'.count = b.count) ∧
      t.hub.mem = s.hub.mem) ∧
  (∀ (s : State) (c : BitVec 6) (x : Sector) (rest : List Sector), (s.hub.dmaCh c.toNat).fetch ≠ 0 →
    (s.hub.dmaCh c.toNat).fetchReq ≠ 0 → s.hub.findReq (s.hub.dmaCh c.toNat).fetchReq = none → (s.hub.dmaCh c.toNat).err = 0 →
    (s.hub.dmaCh c.toNat).got = x :: rest → x.getLsbD 31 = false → Ends (exec (.dmaDescFetch c) s) fun t =>
      (t.hub.dmaCh c.toNat).st = 1 ∧ (t.hub.rd (pDma c.toNat) 0x70) = 0 ∧
      ((s.hub.dmaCh c.toNat).fetch = 2 → bit (t.hub.rd (pDma c.toNat) 0x10) 2 = true) ∧ t.hub.mem = s.hub.mem) ∧
  (∀ (s : State) (c : BitVec 6) (x : Sector) (rest : List Sector), (s.hub.dmaCh c.toNat).fetch = 1 →
    (s.hub.dmaCh c.toNat).fetchReq ≠ 0 → s.hub.findReq (s.hub.dmaCh c.toNat).fetchReq = none → (s.hub.dmaCh c.toNat).err = 0 →
    (s.hub.dmaCh c.toNat).got = x :: rest → x.getLsbD 31 = true → Ends (exec (.dmaDescFetch c) s) fun t =>
      ∃ (d : Dma) (h : Hub), d = { s.hub.dmaCh c.toNat with
          desc := (List.range 16).map (fun i => x.extractLsb' (32 * i) 32)
          fetch := 0, fetchReq := 0, got := [], shiftRow := 0, shiftSrc := 0, shiftDst := 0 } ∧
        h = ((s.hub.putDma c.toNat d).wr (pDma c.toNat) 0x6C 0).showPos c.toNat 0 ∧
        (h.checkDesc c.toNat (s.hub.fld (pDma c.toNat) 0x40 0 6) d 0 0 = 0 → t.hub = h.runDesc c.toNat 0) ∧
        ∀ n, h.checkDesc c.toNat (s.hub.fld (pDma c.toNat) 0x40 0 6) d 0 0 = n + 1 →
          t.hub = (h.dmaHalt c.toNat (n + 1) 0).dmaSettle c.toNat) ∧
  (∀ (s : State) (c : BitVec 6), (s.hub.dmaCh c.toNat).finish = 0 → (s.hub.dmaCh c.toNat).st = 2 ∨ (s.hub.dmaCh c.toNat).st = 3 →
    (s.hub.dmaCh c.toNat).stopFor = 0 → (s.hub.dmaCh c.toNat).fetch = 0 → (s.hub.dmaCh c.toNat).desc ≠ [] →
    (s.hub.dmaCh c.toNat).bursts = [] → (s.hub.dmaCh c.toNat).total ≤ (s.hub.dmaCh c.toNat).pos →
    Becomes (exec (.dmaDescComplete c) s) s (s.hub.startFinish c.toNat 1)) ∧
  (∀ (s : State) (c : BitVec 6), (s.hub.dmaCh c.toNat).finish = 2 → (s.hub.dmaCh c.toNat).finishReq ≠ 0 →
    s.hub.findReq (s.hub.dmaCh c.toNat).finishReq = none → (s.hub.dmaCh c.toNat).err = 0 → (s.hub.dmaCh c.toNat).chain = false →
    Ends (exec (.dmaDescComplete c) s) fun t =>
      (t.hub.dmaCh c.toNat).st = 1 ∧
      (t.hub.rd (pDma c.toNat) 0x78).toNat = min (2 ^ 32 - 1) ((s.hub.rd (pDma c.toNat) 0x78).toNat + 1) ∧
      bit (t.hub.rd (pDma c.toNat) 0x10) 2 = true ∧
      (bit ((s.hub.dmaCh c.toNat).word 0) 29 = true → bit (t.hub.rd (pDma c.toNat) 0x10) 1 = true) ∧ t.hub.mem = s.hub.mem)

/-- The host-memory interface: granted credits are added and what waits is sent as far as they reach; an answer reaches the request that
carries its tag, and one unanswered for 7.5 µs is answered NOT_READY (R275). Where the clause moves the interval counter to a due time,
that is the model's choice (log 3). -/
def Obligations.HostMemoryAnswers : Prop :=
  (∀ (s : State) (g : BitVec 2) (rd wr : BitVec 7), s.hub.inReset = false → (s.hub.hmmIf g.toNat).waiting = [] →
    Becomes (exec (.hmmCreditGrant g rd wr) s) s (s.hub.putHmm g.toNat { s.hub.hmmIf g.toNat with
      rd := (s.hub.hmmIf g.toNat).rd + rd.toNat, wr := (s.hub.hmmIf g.toNat).wr + wr.toNat })) ∧
  (∀ (s : State) (g : BitVec 2) (rd wr : BitVec 7), s.hub.inReset = false →
    Becomes (exec (.hmmCreditGrant g rd wr) s) s ((s.hub.putHmm g.toNat { s.hub.hmmIf g.toNat with
      rd := (s.hub.hmmIf g.toNat).rd + rd.toNat, wr := (s.hub.hmmIf g.toNat).wr + wr.toNat }).hmmSend g.toNat
        (s.hub.hmmIf g.toNat).waiting.length)) ∧
  (∀ (s : State) (g : BitVec 2) (tag : BitVec 16) (line : BitVec 4) (code : BitVec 3) (data : List Sector) (e : Nat × Nat × Nat × Header)
    (r : Req),
    (s.hub.hmmIf g.toNat).sent.find? (fun e => e.1 == tag.toNat) = some e → s.hub.findReq e.2.1 = some r → line.toNat < r.lines →
    r.answered.contains line.toNat = false → ∃ h : Hub,
      h = (s.hub.answer e.2.1 line.toNat code.toNat 0 data).tidySent g.toNat ∧
      Becomes (exec (.hmmResponse g tag line code data) s) s (h.hmmSend g.toNat (s.hub.hmmIf g.toNat).waiting.length)) ∧
  (∀ (s : State) (g : BitVec 2) (tag : BitVec 16) (e : Nat × Nat × Nat × Header),
    (s.hub.hmmIf g.toNat).sent.find? (fun e => e.1 == tag.toNat) = some e →
    Becomes (exec (.hmmTimeout g tag) s) s (((s.hub.reach (e.2.2.1 + 750)).answerAll e.2.1 4).tidySent g.toNat))

/-! Peer hubs -/

/-- A request to a peer takes a credit and the pair's next counter, and is held for retry (R312, R315); without its RESPONSE 6 µs after
acceptance it is answered PEER_FAIL (R319). The RESPONSE to an arriving request leaves once every line is answered (R316), and a line that
is still unanswered 5 µs after the frame arrived is withdrawn and answered NOT_READY (R316). A frame whose counter leaves the journal an
entry waits while the queue is full (R461). Where the clause moves the interval counter to a due time,
that is the model's choice (log 3). -/
def Obligations.FramesAreSent : Prop :=
  (∀ (s : State) (id : Nat) (r : Req) (peer : BitVec 10) (e : BitVec 8) (off : Nat), s.hub.findReq id = some r →
    r.target = .peer peer e off → r.phase = .endpoint → (s.hub.pair peer.toNat).st = 2 →
    (if r.hdr.wrCredit then (s.hub.pair peer.toNat).wrCrd else (s.hub.pair peer.toNat).rdCrd) ≠ 0 → s.hub.mayTx peer.toNat = true →
    s.hub.sendBlocked peer.toNat r = false → s.hub.journalFull = false → Ends (exec (.remoteSend id) s) fun t =>
      (t.hub.pair peer.toNat).rdCrd = (s.hub.pair peer.toNat).rdCrd - (if r.hdr.wrCredit then 0 else 1) ∧
      (t.hub.pair peer.toNat).wrCrd = (s.hub.pair peer.toNat).wrCrd - (if r.hdr.wrCredit then 1 else 0) ∧
      (t.hub.pair peer.toNat).txNext = (s.hub.pair peer.toNat).txNext + 1 ∧
      (∃ g, (t.hub.pair peer.toNat).held = (s.hub.pair peer.toNat).held ++ [g] ∧ g.counter = (s.hub.pair peer.toNat).txNext ∧
        g.typ = BitVec.ofNat 4 (r.hdr.opcode.toNat + 1) ∧ g.addr = BitVec.ofNat 64 off) ∧
      (∀ o, o < 4096 → t.hub.rd pFarport o = s.hub.rd pFarport o) ∧ t.hub.mem = s.hub.mem) ∧
  (∀ (s : State) (id : Nat) (r : Req) (peer : BitVec 10) (e : BitVec 8) (off : Nat), s.hub.findReq id = some r →
    r.target = .peer peer e off → r.phase ≠ .failed → Becomes (exec (.peerFailTimeout id) s) s
      ((s.hub.reach (r.accepted + 600)).failReq r (decide (r.phase = .sent)))) ∧
  (∀ (s : State) (ctx : Nat) (a : Arrival), s.hub.far.arrivals.find? (fun a => a.ctx == ctx) = some a → a.lines ≤ a.codes.length →
    (s.hub.pair a.frame.srcHub.toNat).st = 2 → s.hub.mayTx a.frame.srcHub.toNat = true →
    s.hub.journalFull = false → Becomes (exec (.remoteResponseSend ctx) s) s
      ((s.hub.dropArrival ctx).sendData a.frame.srcHub.toNat (a.response s.hub.hubId))) ∧
  (∀ (s : State) (id : Nat) (o : LineOp) (ctx : Nat),
    (s.hub.lines.ready ++ s.hub.lines.ordered.filter (fun o => o.kind == .read)).find? (fun o => o.id == id) = some o →
    o.src = .remote ctx → ∃ h : Hub,
      h = (s.hub.reach (o.accepted + 500)).withdrawOp o ∧ (∀ x ∈ h.lines.ready ++ h.lines.ordered, x.id ≠ id) ∧
      Becomes (exec (.remoteAnswerTimeout id) s) s (((h.bump pHub 0x140 0 16 1).answer o.req o.idx 4 0 []).settleOn))

/-- A data frame with the expected counter and a tag that holds is accepted: the pair expects the next one, and the opened request is
carried out, or its credit comes back and the request it answers takes the RESPONSE (R309, R312, R314, R317). -/
def Obligations.FramesAreTaken : Prop :=
  (∀ (s : State) (p : BitVec 2) (f : Frame) (k : BitVec 256) (i : Instr),
    (i = .rxReadFrame p f ∧ wfFrame 1 f = true) ∨ (i = .rxWriteFrame p f ∧ wfFrame 2 f = true) ∨
      (i = .rxReduceFrame p f ∧ wfFrame 3 f = true) →
    s.hub.hearsNext p.toNat f k → s.hub.journalFull = false → Ends (exec i s) fun t => ∃ h : Hub,
      t.hub = h.carryOut p.toNat (openFrame k f) ∧
      (h.pair f.srcHub.toNat).rxNext = (s.hub.pair f.srcHub.toNat).rxNext + 1 ∧ (h.pair f.srcHub.toNat).lastRx = s.hub.now ∧
      h.lines = s.hub.lines ∧ h.regs = s.hub.regs ∧ h.mem = s.hub.mem ∧
      ∃ a ∈ t.hub.far.arrivals, a.frame = openFrame k f) ∧
  (∀ (s : State) (p : BitVec 2) (f : Frame) (k : BitVec 256) (r : Req), wfFrame 4 f = true → s.hub.hearsNext p.toNat f k →
    s.hub.lines.reqs.find? (fun r => r.peerIs f.srcHub.toNat && decide (r.ctx = f.tag.toNat) &&
      (decide (r.phase = .sent) || decide (r.phase = .failed))) = some r → r.phase = .sent →
    s.hub.journalFull = false → Ends (exec (.rxResponseFrame p f) s) fun t => ∃ h : Hub,
      t.hub = (h.creditBack f.srcHub.toNat r.hdr.wrCredit).answerFrom r (openFrame k f) ∧
      (h.pair f.srcHub.toNat).rxNext = (s.hub.pair f.srcHub.toNat).rxNext + 1 ∧ (h.pair f.srcHub.toNat).lastRx = s.hub.now ∧
      h.lines = s.hub.lines ∧ h.regs = s.hub.regs ∧ h.mem = s.hub.mem)

/-- Heartbeats bring a pair UP with its credits and keep it so; ACK frees the frames up to its counter, NAK sends the rest again, as 2 µs
without progress does; an ACK leaves 1 µs after the oldest unacknowledged frame; a pair silent for TIMEOUT µs goes DOWN, and the credits of
its outstanding requests return (R311, R312, R315). Where the clause moves the interval counter to a due time, that is the model's choice
(log 3). The credits a peer grants are the free value of log 8. -/
def Obligations.ControlFramesAct : Prop :=
  (∀ (s : State) (p : BitVec 2) (f : Frame), wfFrame 8 f = true → s.hub.hearsControl p.toNat f →
    (s.hub.pair f.srcHub.toNat).heartbeatOk f = true → Ends (exec (.rxHeartbeat p f) s) fun t =>
      (t.hub.pair f.srcHub.toNat).lastRx = s.hub.now ∧
      ((s.hub.pair f.srcHub.toNat).st = 1 → (t.hub.pair f.srcHub.toNat).st = 2 ∧
        (t.hub.pair f.srcHub.toNat).rdCrd = (Config.peerGrant f.srcHub.toNat).1.toNat ∧
        (t.hub.pair f.srcHub.toNat).wrCrd = (Config.peerGrant f.srcHub.toNat).2.toNat) ∧
      ((s.hub.pair f.srcHub.toNat).st = 2 → (t.hub.pair f.srcHub.toNat).st = 2) ∧
      t.hub.lines = s.hub.lines ∧ t.hub.regs = s.hub.regs ∧ t.hub.mem = s.hub.mem) ∧
  (∀ (s : State) (p : BitVec 2) (f : Frame), wfFrame 9 f = true → s.hub.hearsControl p.toNat f →
    f.counter.toNat < (s.hub.pair f.srcHub.toNat).txNext.toNat → Ends (exec (.rxAck p f) s) fun t =>
      (t.hub.pair f.srcHub.toNat).held =
        (s.hub.pair f.srcHub.toNat).held.filter (fun g => decide (f.counter.toNat < g.counter.toNat)) ∧
      (t.hub.pair f.srcHub.toNat).lastRx = s.hub.now ∧ t.hub.lines = s.hub.lines ∧ t.hub.regs = s.hub.regs ∧
      t.hub.mem = s.hub.mem) ∧
  (∀ (s : State) (p : BitVec 2) (f : Frame), wfFrame 10 f = true → s.hub.hearsControl p.toNat f →
    Becomes (exec (.rxNak p f) s) s ((s.hub.heard f.srcHub.toNat).resend f.srcHub.toNat
      ((s.hub.pair f.srcHub.toNat).held.filter (fun g => decide (f.counter.toNat ≤ g.counter.toNat))))) ∧
  (∀ (s : State) (p : BitVec 10), s.hub.inReset = false → (s.hub.pair p.toNat).held ≠ [] → ∃ h : Hub,
    h = s.hub.reach ((s.hub.pair p.toNat).ackAt + 200) ∧
    Becomes (exec (.retryTimeout p) s) s
      ((h.putPair p.toNat { s.hub.pair p.toNat with ackAt := h.now }).resend p.toNat (s.hub.pair p.toNat).held)) ∧
  (∀ (s : State) (p : BitVec 10), s.hub.inReset = false → (s.hub.pair p.toNat).unacked ≠ 0 → Ends (exec (.ackDue p) s) fun t =>
    (t.hub.pair p.toNat).unacked = 0 ∧ t.hub.now = max s.hub.now ((s.hub.pair p.toNat).unackedAt + 100) ∧
    (∀ i, s.hub.pairPort p.toNat = some i → s.hub.therm.trip < 4 → (t.hub.farPort i).sent = (s.hub.farPort i).sent ++
      [crcFrame (Frame.plain 9 s.hub.hubId p.toNat ((s.hub.pair p.toNat).rxNext - 1) [])]) ∧
    t.hub.lines = s.hub.lines ∧ t.hub.regs = s.hub.regs ∧ t.hub.mem = s.hub.mem) ∧
  (∀ (s : State) (p : BitVec 10), s.hub.inReset = false → (s.hub.pair p.toNat).st ≠ 0 →
    Becomes (exec (.heartbeatDue p) s) s
      ((s.hub.reach ((s.hub.pair p.toNat).lastTx + 100 * s.hub.fld pFarport 0x74 0 8)).sendControl p.toNat 8 0
        (le32 (s.hub.pair p.toNat).txGen.toNat ++ le32 (s.hub.pair p.toNat).rxGen.toNat))) ∧
  (∀ (s : State) (p : BitVec 10), s.hub.inReset = false → (s.hub.pair p.toNat).st = 2 →
    Ends (exec (.heartbeatTimeout p) s) fun t =>
      (t.hub.pair p.toNat).st = 1 ∧
      (t.hub.pair p.toNat).rdCrd = (s.hub.pair p.toNat).rdCrd + s.hub.outstanding p.toNat false ∧
      (t.hub.pair p.toNat).wrCrd = (s.hub.pair p.toNat).wrCrd + s.hub.outstanding p.toNat true ∧
      (t.hub.pair p.toNat).txNext = 0 ∧ (t.hub.pair p.toNat).rxNext = 0 ∧ (t.hub.pair p.toNat).held = [] ∧
      (t.hub.pair p.toNat).txKey = none ∧ (t.hub.pair p.toNat).rxKey = none ∧ bit (t.hub.rd pFarport 0x10) 3 = true ∧
      t.hub.mem = s.hub.mem)

/-- An OFFER whose tag holds makes the receive key, an ACCEPT of the OFFER under way makes the transmit key, from the next frame or from
START on, where a rekey counts in REKEY_CNT once its key is in use; an OFFER without its ACCEPT is repeated, and a rekey without one after
100 µs takes the pair DOWN (R373, R374, R376). Where the clause moves the interval counter to a due time, that is the model's choice (log
3). -/
def Obligations.KeysAreExchanged : Prop :=
  (∀ (s : State) (p : BitVec 2) (f : Frame) (m : BitVec 256) (gen : Word) (start : BitVec 64) (o : BitVec 256),
    wfFrame 11 f = true → f.payload.head? = some 0 → s.hub.hearsControl p.toNat f → (s.hub.pair f.srcHub.toNat).master = some m →
    keyxOpen m f = some (gen, start, o) → Becomes (exec (.rxKeyxOffer p f) s) s
      ((s.hub.heard f.srcHub.toNat).takeOffer f.srcHub.toNat gen start o)) ∧
  (∀ (s : State) (p : BitVec 2) (f : Frame) (m : BitVec 256) (gen : Word) (start : BitVec 64) (q : BitVec 256) (o : Offer),
    wfFrame 11 f = true → f.payload.head? = some 1 → s.hub.hearsControl p.toNat f → (s.hub.pair f.srcHub.toNat).master = some m →
    keyxOpen m f = some (gen, start, q) → (s.hub.pair f.srcHub.toNat).offer = some o → o.gen = gen → o.start = start →
    s.hub.journalFull = false →
    Ends (exec (.rxKeyxAccept p f) s) fun t =>
      (t.hub.pair f.srcHub.toNat).txGen = gen ∧ (t.hub.pair f.srcHub.toNat).offer = none ∧
      (o.rekey = false → (t.hub.pair f.srcHub.toNat).txKey = some (o.key ^^^ q)) ∧
      (o.rekey = true → (s.hub.pair f.srcHub.toNat).txNext.toNat < start.toNat →
        (t.hub.pair f.srcHub.toNat).txPend = some (o.key ^^^ q, start) ∧
        (t.hub.pair f.srcHub.toNat).txKey = (s.hub.pair f.srcHub.toNat).txKey ∧ t.hub.rd pSec 0x68 = s.hub.rd pSec 0x68) ∧
      (o.rekey = true → start.toNat ≤ (s.hub.pair f.srcHub.toNat).txNext.toNat →
        (t.hub.pair f.srcHub.toNat).txPend = none ∧ (t.hub.pair f.srcHub.toNat).txKey = some (o.key ^^^ q) ∧
        (t.hub.rd pSec 0x68).toNat = min (2 ^ 32 - 1) ((s.hub.rd pSec 0x68).toNat + 1)) ∧
      t.hub.lines = s.hub.lines ∧ t.hub.mem = s.hub.mem) ∧
  (∀ (s : State) (p : BitVec 10) (o : Offer), s.hub.inReset = false → s.hub.drbgError = false →
    (s.hub.pair p.toNat).offer = some o →
    Becomes (exec (.keyxRepeat p) s) s ((s.hub.reach (o.last + 1000)).sendOffer p.toNat)) ∧
  (∀ (s : State) (p : BitVec 10) (o : Offer), s.hub.inReset = false → (s.hub.pair p.toNat).offer = some o → o.rekey = true →
    Becomes (exec (.rekeyTimeout p) s) s
      (((s.hub.reach (o.first + 10000)).raise pSec 1).pairDown p.toNat 4))

/-- A far-port whose engine lost the link is DOWN; training leaves it UP on the widest set of lanes that passed, or DOWN on none; a flit
or a frame that belongs nowhere counts as bad (R305, R308, R321, R322). -/
def Obligations.FarPortLinks : Prop :=
  (∀ (s : State) (p : BitVec 2), s.hub.inReset = false → (s.hub.farPort p.toNat).linkUp = true →
    Ends (exec (.oeLinkUpFall p) s) fun t =>
      (t.hub.farPort p.toNat).st = 0 ∧ (t.hub.farPort p.toNat).linkUp = false ∧ bit (t.hub.rd pFarport 0x10) 2 = true ∧
      t.hub.mem = s.hub.mem) ∧
  (∀ (s : State) (p : BitVec 2) (lanes : BitVec 8), (s.hub.farPort p.toNat).st = 1 → Ends (exec (.farportTrainingEnd p lanes) s) fun t =>
    (passing lanes = [] → (t.hub.farPort p.toNat).st = 0) ∧
    (passing lanes ≠ [] → (t.hub.farPort p.toNat).st = 2 ∧ (t.hub.farPort p.toNat).lanesOk = lanes ∧
      (t.hub.farPort p.toNat).width = BitVec.ofNat 2 (farWidth (passing lanes).length).2 ∧
      ((passing lanes).length < 8 → bit (t.hub.rd pFarport 0x10) 1 = true)) ∧ t.hub.mem = s.hub.mem) ∧
  (∀ (s : State) (p : BitVec 2) (sof eof : Bool), s.hub.inReset = false → (s.hub.farPort p.toNat).st = 2 →
    Ends (exec (.strayFlit p sof eof) s) fun t =>
      (sof = (s.hub.farPort p.toNat).inFrame → (t.hub.farPort p.toNat).inFrame = false ∧
        (t.hub.rd pFarport 0x90).toNat = min (2 ^ 32 - 1) ((s.hub.rd pFarport 0x90).toNat + 1)) ∧
      (sof ≠ (s.hub.farPort p.toNat).inFrame → (t.hub.farPort p.toNat).inFrame = !eof ∧
        t.hub.rd pFarport 0x90 = s.hub.rd pFarport 0x90) ∧ t.hub.lines = s.hub.lines ∧ t.hub.mem = s.hub.mem) ∧
  (∀ (s : State) (p : BitVec 2) (f : Frame), frameTypes.contains f.typ = false → s.hub.inReset = false →
    (s.hub.farPort p.toNat).st = 2 → (s.hub.farPort p.toNat).inFrame = false → Ends (exec (.otherTypeFrame p f) s) fun t =>
      (t.hub.rd pFarport 0x90).toNat = min (2 ^ 32 - 1) ((s.hub.rd pFarport 0x90).toNat + 1) ∧ t.hub.far = s.hub.far ∧
      t.hub.lines = s.hub.lines ∧ t.hub.mem = s.hub.mem)

/-! Management, security, journal -/

/-- The management network: an SPDM request is answered by its code, with the capabilities and algorithms of R385, the certificate area
and the measurements of R386; a session opens for a requester whose chain ends at an anchor of the running image, and at most two at once;
before the end of S1 and while the core resets only GET_VERSION is answered, the rest with ResponseNotReady (R387), and other messages
wait for the core (R383). In a session
an update runs from RequestUpdate over image data into the slot not running to an activation, and CancelUpdate gives it up (R382, R383);
discovery and MCTP control are answered, and ENTDAA gives the address (R97, R382). The bytes of an answer that the spec does not give are
the free value of log 7. -/
def Obligations.ManagementNetwork : Prop :=
  (∀ (s : State) (c : SpdmCode), s.hub.mgmtDeaf = false →
    (c = .getVersion → Becomes (exec (.spdmRequest c) s) s (s.hub.reply (.versions [(1, 3)]))) ∧
    (c ≠ .getVersion → s.hub.boot.ended < 2 → Becomes (exec (.spdmRequest c) s) s
      (s.hub.reply (if s.hub.fld pBoot 0x40 8 1 = 1 then .unspecified else .responseNotReady 14 13))) ∧
    (c ≠ .getVersion → 2 ≤ s.hub.boot.ended → s.hub.sec.coreReset = true →
      Becomes (exec (.spdmRequest c) s) s (s.hub.reply (.responseNotReady 14 13))) ∧
    (2 ≤ s.hub.boot.ended → s.hub.sec.coreReset = false → Ends (exec (.spdmRequest c) s) fun t => t.hub.mem = s.hub.mem ∧
      (c = .getCapabilities → t.hub = s.hub.reply
        (.capabilities [.cert, .chal, .measSig, .keyEx, .mutAuth, .encrypt, .mac, .hbeat, .keyUpd])) ∧
      (c = .negotiateAlgorithms → t.hub = s.hub.reply
        (.algorithms .ecdsaP384 .ecdsaP384 .sha384 .sha384 .secp384r1 .aes256Gcm)) ∧
      (c = .getCertificate → t.hub = s.hub.reply (.certificate (s.hub.flashBytes 0x3010000 0x100000))) ∧
      (c = .getMeasurements → ∃ ms, t.hub = s.hub.reply (.measurements ms) ∧ ms.length = 6 ∧
        ∀ i, i < 6 → ms[i]? = some (s.hub.measurement s.fuses (i + 1))) ∧
      (c = .getDigests ∨ c = .challenge → t.hub = s.hub.replyContent) ∧
      (∀ root, c = .openSession root →
        if root.any s.hub.anchors.contains ∧ s.hub.sec.sessions < 2 then
          t.hub = (s.hub.setSec { s.hub.sec with sessions := s.hub.sec.sessions + 1 }).reply .sessionOpen
        else t.hub = s.hub.reply .spdmError) ∧
      (∀ own, c = .endSession own → s.hub.sec.sessions ≠ 0 → t.hub.sec.sessions = s.hub.sec.sessions - 1 ∧
        t.hub.sec.update = (if own = true ∨ s.hub.sec.sessions = 1 then 0 else s.hub.sec.update) ∧
        t.hub.sec.mgmtOut = s.hub.sec.mgmtOut ++ [.content (Config.mgmtAnswer s.hub.sec.answers)]) ∧
      (c = .other → s.hub.sec.sessions ≠ 0 → t.hub = s.hub.replyContent) ∧
      ((∃ own, c = .endSession own) ∨ c = .other → s.hub.sec.sessions = 0 → t.hub = s.hub.reply .spdmError))) ∧
  (∀ (s : State) (x : List Byte) (inSession : Bool), s.hub.mgmtDeaf = false → 2 ≤ s.hub.boot.ended → s.hub.sec.coreReset = true →
    Becomes (exec (.pldmRequestUpdate inSession) s) s (s.hub.holdMsg false) ∧
    Becomes (exec (.pldmDiscovery x) s) s (s.hub.holdMsg true)) ∧
  (∀ s : State, s.hub.mgmtDeaf = false → 2 ≤ s.hub.boot.ended → s.hub.sec.coreReset = false → s.hub.sec.sessions ≠ 0 →
    Ends (exec (.pldmRequestUpdate true) s) fun t =>
      t.hub.sec.update = 1 ∧ t.hub.sec.staged = [] ∧ t.hub.fld pSec 0x48 1 1 = 0 ∧ t.hub.mem = s.hub.mem) ∧
  (∀ (s : State) (off : BitVec 24) (data : List Byte), s.hub.mgmtDeaf = false → 2 ≤ s.hub.boot.ended →
    s.hub.sec.coreReset = false → s.hub.sec.sessions ≠ 0 → s.hub.sec.update = 1 ∨ s.hub.sec.update = 2 →
    Ends (exec (.pldmFirmwareData true off data false) s) fun t =>
      t.hub.sec.update = 2 ∧ t.hub.mem = s.hub.mem ∧
      (∀ i, i < data.length → off.toNat + i < 0x1000000 →
        t.hub.flashByte (slotBase (1 - s.hub.fld pSec 0x48 0 1) + off.toNat + i) = data.getD i 0) ∧
      (∀ a, a < slotBase (1 - s.hub.fld pSec 0x48 0 1) ∨ slotBase (1 - s.hub.fld pSec 0x48 0 1) + 0x1000000 ≤ a →
        t.hub.flashByte a = s.hub.flashByte a)) ∧
  (∀ s : State, s.hub.mgmtDeaf = false → 2 ≤ s.hub.boot.ended → s.hub.sec.coreReset = false → s.hub.sec.sessions ≠ 0 →
    s.hub.sec.update = 3 → Ends (exec (.pldmActivateFirmware true) s) fun t =>
      t.hub.sec.coreReset = true ∧ t.hub.sec.sessions = 0 ∧ t.hub.regs = s.hub.regs ∧ t.hub.mem = s.hub.mem) ∧
  (∀ s : State, s.hub.mgmtDeaf = false → 2 ≤ s.hub.boot.ended → s.hub.sec.coreReset = false → s.hub.sec.sessions ≠ 0 →
    Ends (exec (.pldmCancelUpdate true) s) fun t =>
      t.hub.sec.update = 0 ∧ t.hub.sec.staged = [] ∧ t.hub.fld pSec 0x48 1 1 = 0 ∧ t.hub.mem = s.hub.mem) ∧
  (∀ (s : State) (x : List Byte), s.hub.mgmtDeaf = false → 2 ≤ s.hub.boot.ended → s.hub.sec.coreReset = false →
    Becomes (exec (.pldmDiscovery x) s) s s.hub.replyContent) ∧
  (∀ (s : State) (x : List Byte), s.hub.mgmtDeaf = false → Becomes (exec (.mctpControlMessage x) s) s s.hub.replyContent) ∧
  (∀ (s : State) (a : BitVec 7), s.hub.mgmtDeaf = false →
    Becomes (exec (.entdaa a) s) s (s.hub.setSec { s.hub.sec with i3cAddr := some a }))

/-- What happens to the management core and the generator: a reset for an activation starts the slot the ROM picks and records it (R380,
R383); the watchdog asserts HUB_FATAL_N (R94); a failed health test sets ERROR, alerts and is recorded, and a passed repeat clears it
(R367). A wipe's zeros under its key go to the write queue of one offset after another, and its end is recorded (R392). Entries of the
journal find room (R461). Where the clause moves the interval counter to a due time, that is the model's choice (log 3). -/
def Obligations.CoreGeneratorAndWipes : Prop :=
  (∀ s : State, s.hub.sec.coreReset = true → s.hub.inReset = false → s.hub.journalFull = false → Ends (exec .mgmtCoreReset s) fun t =>
    (∀ slot again, s.hub.romPick s.fuses = some (slot, again) →
      t.hub.sec.coreReset = false ∧ t.hub.sec.sessions = 0 ∧ t.hub.sec.held = [] ∧ t.hub.fld pSec 0x48 0 1 = slot % 2 ∧
      (slot = s.hub.fld pSec 0x48 0 1 → bit (t.hub.rd pSec 0x10) 4 = true) ∧
      ∃ svn fell, t.hub.lastEntry 0x13 [BitVec.ofNat 8 slot, svn, fell]) ∧
    (s.hub.romPick s.fuses = none → t = s) ∧ t.hub.mem = s.hub.mem) ∧
  (∀ s : State, s.hub.inReset = false → s.hub.pins.fatal = false →
    Becomes (exec .watchdogExpiry s) s (s.hub.setPins { s.hub.pins with fatal := true }).withdrawAll) ∧
  (∀ s : State, s.hub.inReset = false → s.hub.drbgError = false → s.hub.journalFull = false → Ends (exec .drbgHealthFail s) fun t =>
    t.hub.drbgError = true ∧ bit (t.hub.rd pSec 0x10) 2 = true ∧ t.hub.sec.errorAt = s.hub.now ∧
    (∃ x, t.hub.lastEntry 0x14 [x]) ∧ t.hub.lines = s.hub.lines ∧ t.hub.mem = s.hub.mem) ∧
  (∀ (s : State) (pass : Bool), s.hub.inReset = false → s.hub.drbgError = true → Ends (exec (.drbgHealthRetest pass) s) fun t =>
    t.hub.now = max s.hub.now (s.hub.sec.errorAt + 100000000) ∧ t.hub.drbgError = !pass ∧ t.hub.lines = s.hub.lines ∧
    t.hub.mem = s.hub.mem) ∧
  (∀ (s : State) (w : Wipe) (rest : List Wipe) (k : BitVec 11), s.hub.sec.wipes = w :: rest → w.slabs[w.at_]? = some k →
    s.hub.inReset = false → (s.hub.stack (slabStack (s.hub.lslab k.toNat).phys.toNat)).selfRefresh = false →
    s.hub.therm.trip = 0 → Ends (exec .wipeWrite s) fun t =>
      (∀ ps ∈ s.hub.targets k.toNat, ∀ i, i < 4 → ∃ x, (t.hub.pc (slabPc ps)).queuedWrite ps w.off i = some x ∧ x.word =
        rsEncode (if w.off < s.hub.bigD then xts ⟨w.k1, w.k2, 0⟩ false (xtsTweak k.toNat w.off i) 0 else 0)) ∧
      t.hub.lines = s.hub.lines ∧ t.hub.mem = s.hub.mem ∧ ∃ w', t.hub.sec.wipes = w' :: rest ∧
        (w'.off, w'.at_) = if w.off + 1 < slabLines s.hub.amap.dens then (w.off + 1, w.at_) else (0, w.at_ + 1)) ∧
  (∀ (s : State) (w : Wipe) (rest : List Wipe), s.hub.sec.wipes = w :: rest → s.hub.inReset = false → s.hub.journalFull = false →
    w.slabs.length ≤ w.at_ → Ends (exec .wipeEnd s) fun t =>
      t.hub.sec.wipes.length = rest.length ∧ bit (t.hub.rd pSec 0x10) 3 = true ∧ t.hub.lastEntry 0x16 [w.part.setWidth 8] ∧
      t.hub.mem = s.hub.mem)

/-- The journal writer writes C, H and K entries before O entries, in both halves, and what waits for the entry takes place at its commit;
an entry whose read-back fails stays the writer's next under the next SEQ: a first copy that fails keeps the second from being programmed,
and a second that fails leaves the first valid (R458, R461). The sectors ahead of the head are erased one after the
other (R460). -/
def Obligations.JournalIsWritten : Prop :=
  (∀ (s : State) (e : JEntry) (rest : List JEntry), s.hub.inReset = false → s.hub.pastS0 = true → s.hub.slotFree = true →
    s.hub.journal.queue = e :: rest → Ends (exec (.journalCommit .right) s) fun t => ∃ h : Hub,
      h = (s.hub.setJournal { s.hub.journal with queue := rest }).writeEntry e ∧
      h.flashBytes (journalCopy s.hub.journal.seq 0) 64 = s.hub.entryBytes e s.hub.journal.seq ∧
      h.flashBytes (journalCopy s.hub.journal.seq 1) 64 = s.hub.entryBytes e s.hub.journal.seq ∧
      h.journal.head = some s.hub.journal.seq ∧ h.journal.seq = s.hub.journal.seq + 1 ∧
      t.hub = ((h.committed e).enterSector s.hub.journal.seq).pairOpGoes ∧ t.tripped = (s.tripped || e.typ == 8)) ∧
  (∀ (s : State) (e : JEntry) (rest : List JEntry), s.hub.inReset = false → s.hub.pastS0 = true → s.hub.slotFree = true →
    s.hub.journal.queue = [] → s.hub.journal.ordinary = e :: rest → Ends (exec (.journalCommit .right) s) fun t =>
      t.hub = (((s.hub.setJournal { s.hub.journal with ordinary := rest }).writeEntry e).committed e).enterSector s.hub.journal.seq ∧
      t.tripped = s.tripped) ∧
  (∀ (s : State) (found : ReadBack) (e : JEntry), found ≠ .right → s.hub.inReset = false → s.hub.pastS0 = true →
    s.hub.slotFree = true → (s.hub.journal.queue ++ s.hub.journal.ordinary).head? = some e →
    Ends (exec (.journalCommit found) s) fun t =>
      (found = .firstBad → t.hub.flashBytes (journalCopy s.hub.journal.seq (s.hub.journal.seq + 1)) 64 = List.replicate 64 0xFF) ∧
      (found = .secondBad → t.hub.flashBytes (journalCopy s.hub.journal.seq s.hub.journal.seq) 64 =
        s.hub.entryBytes e s.hub.journal.seq) ∧
      (t.hub.journal.queue ++ t.hub.journal.ordinary).getLast? = (s.hub.journal.queue ++ s.hub.journal.ordinary).getLast? ∧
      t.hub.journal.seq = s.hub.journal.seq + 1 ∧ t.hub.journal.head = s.hub.journal.head ∧
      t.hub.journal.ordinary = s.hub.journal.ordinary ∧
      (t.hub.rd pJournal 0x70).toNat = min (2 ^ 32 - 1) ((s.hub.rd pJournal 0x70).toNat + 1) ∧
      t.tripped = s.tripped ∧ t.hub.mem = s.hub.mem) ∧
  (∀ s : State, s.hub.inReset = false → s.hub.pastS0 = true →
    (s.hub.sectorErased ((journalSector s.hub.journal.seq + 1) % 128) = false ∨
      s.hub.sectorErased ((journalSector s.hub.journal.seq + 2) % 128) = false) → Ends (exec .journalSectorErased s) fun t =>
      t.hub.sectorErased ((journalSector s.hub.journal.seq + 1) % 128) = true ∧
      (s.hub.sectorErased ((journalSector s.hub.journal.seq + 1) % 128) = true →
        t.hub.sectorErased ((journalSector s.hub.journal.seq + 2) % 128) = true) ∧
      t.hub.journal = s.hub.journal ∧ t.hub.regs = s.hub.regs ∧ t.hub.mem = s.hub.mem)

/-! The register window -/

/-- A write is judged in the order of R480 and, where nothing stands against it, takes effect; a refused one leaves its reason in PAGE_ERR
and its code in the answer (R469, R475, R480). An access of an unassigned page is answered DECODE and recorded in the HUB page (R474). A
taken read is answered with what the register shows; the read of a LO half latches its HI half for its initiator, the next read of which
gives the latched value (R472), and a read of SAMPLE_SRC removes the oldest sample (R450). -/
def Obligations.RegistersAreWrittenAndRead : Prop :=
  ((∀ (s : State) (init : Initiator) (reg : BitVec 22) (data : Word) (c : PageClass) (r : RegRow),
    s.hub.takes init c (regPage reg) (regOff reg) true → 0x20 ≤ regOff reg → findRow c.rows (regOff reg) = some r →
    s.hub.writeRefusal c r (regPage reg) (regOff reg) (s.hub.show s.fuses c (regPage reg) (regOff reg)) data = none →
    Becomes (exec (.registerWrite init reg data) s) s
      ((s.hub.applyWrite c r (regPage reg) (regOff reg) (s.hub.show s.fuses c (regPage reg) (regOff reg)) data).respondMmio 0 0)) ∧
  (∀ (s : State) (init : Initiator) (reg : BitVec 22) (data : Word) (c : PageClass) (r : RegRow) (n : Nat),
    s.hub.takes init c (regPage reg) (regOff reg) true → 0x20 ≤ regOff reg → findRow c.rows (regOff reg) = some r →
    s.hub.writeRefusal c r (regPage reg) (regOff reg) (s.hub.show s.fuses c (regPage reg) (regOff reg)) data = some n →
    Becomes (exec (.registerWrite init reg data) s) s (s.hub.refuse init (regPage reg) (regOff reg) true n)) ∧
  (∀ (s : State) (init : Initiator) (reg : BitVec 22) (data : Word) (c : PageClass),
    s.hub.takes init c (regPage reg) (regOff reg) true → 0x40 ≤ regOff reg → findRow c.rows (regOff reg) = none →
    Ends (exec (.registerWrite init reg data) s) fun t =>
      t.hub.mmio = (0, 5) ∧ bit (t.hub.rd (regPage reg) 0x18) 31 = true ∧ bitsNat (t.hub.rd (regPage reg) 0x18) 13 4 = 9 ∧
      t.hub.mem = s.hub.mem) ∧
  (∀ (s : State) (init : Initiator) (reg : BitVec 22) (c : PageClass) (n : Nat), s.hub.inReset = false →
    pageClass (regPage reg) = some c → s.hub.refusal init c (regPage reg) (regOff reg) false = some n →
    Becomes (exec (.refusedRead init reg) s) s (s.hub.refuse init (regPage reg) (regOff reg) false n)) ∧
  (∀ (s : State) (init : Initiator) (reg : BitVec 22) (w : Option Word), s.hub.inReset = false → pageClass (regPage reg) = none →
    Becomes (exec (.unassignedPageAccess init reg w) s) s (s.hub.refuseUnmapped init (regPage reg) w.isSome))) ∧
  ((∀ (s : State) (init : Initiator) (reg : BitVec 22) (c : PageClass), s.hub.takes init c (regPage reg) (regOff reg) false →
    latches c (regOff reg) = true → latches c (regOff reg - 4) = false → Ends (exec (.latchedRead init reg) s) fun t =>
      t.hub.mmio = (s.hub.show s.fuses c (regPage reg) (regOff reg), 0) ∧
      SMap.get (fun _ => 0) t.hub.latch (latchKey init (regPage reg) (regOff reg + 4)) =
        s.hub.show s.fuses c (regPage reg) (regOff reg + 4) ∧ t.hub.regs = s.hub.regs ∧ t.hub.mem = s.hub.mem) ∧
  (∀ (s : State) (init : Initiator) (reg : BitVec 22) (c : PageClass), s.hub.takes init c (regPage reg) (regOff reg) false →
    4 ≤ regOff reg → latches c (regOff reg - 4) = true → latches c (regOff reg) = false → Becomes (exec (.latchedRead init reg) s) s
      (s.hub.respondMmio (SMap.get (fun _ => 0) s.hub.latch (latchKey init (regPage reg) (regOff reg))) 0)) ∧
  (∀ (s : State) (init : Initiator), s.hub.takes init .perf pPerf 0x64 false → Ends (exec (.sampleSrcRead init) s) fun t =>
    t.hub.mmio = (s.hub.show s.fuses .perf pPerf 0x64, 0) ∧ t.hub.perf.fifo = s.hub.perf.fifo.tail ∧ t.hub.regs = s.hub.regs ∧
    t.hub.mem = s.hub.mem))

/-- A write of 1 to a CLR bit clears the counters its chapter lists: PACE_MIN (R38), DEADLINE_CNT (R75), the counters of ARITH (R181),
TRICK (R214), TM (R269), a DMA channel (R302), FARPORT (R323), RAS (R359), THERM (R442) and PERF (R456). -/
def Obligations.CountersAreCleared : Prop :=
  (∀ (s : State) (init : Initiator), s.hub.takes init .hub pHub 0x100 true → Ends (exec (.clrMin init 1) s) fun t =>
    t.hub.holds pHub 0x120 4 0xFFFFF ∧ t.hub.mmio = (0, 0) ∧ t.hub.mem = s.hub.mem) ∧
  (∀ (s : State) (init : Initiator), s.hub.takes init .hub pHub 0x140 true → Ends (exec (.deadlineCntClr init 0x10000) s) fun t =>
    t.hub.rd pHub 0x140 = 0 ∧ t.hub.mmio = (0, 0) ∧ t.hub.mem = s.hub.mem) ∧
  (∀ (s : State) (init : Initiator), s.hub.takes init .arith pArith 0x4C true → Ends (exec (.arithCntClr init 1) s) fun t =>
    t.hub.holds pArith 0x50 7 0 ∧ bit (t.hub.rd pArith 0x70) 31 = false ∧ t.hub.mmio = (0, 0) ∧ t.hub.mem = s.hub.mem) ∧
  (∀ (s : State) (init : Initiator), s.hub.takes init .trick pTrick 0x4C true → Ends (exec (.trickCntClr init 1) s) fun t =>
    t.hub.holds pTrick 0x50 7 0 ∧ t.hub.mmio = (0, 0) ∧ t.hub.mem = s.hub.mem) ∧
  (∀ (s : State) (init : Initiator), s.hub.takes init .tm pTm 0x90 true → Ends (exec (.tmCntClr init 1) s) fun t =>
    (∀ k, (t.hub.policer k).green = 0 ∧ (t.hub.policer k).yellow = 0 ∧ (t.hub.policer k).red = 0) ∧ t.hub.holds pTm 0x88 2 0 ∧
    t.hub.mmio = (0, 0) ∧ t.hub.mem = s.hub.mem) ∧
  (∀ (s : State) (init : Initiator) (c : BitVec 6), s.hub.takes init .dma (pDma c.toNat) 0x88 true →
    Ends (exec (.dmaCntClr init c 1) s) fun t =>
      t.hub.holds (pDma c.toNat) 0x74 5 0 ∧ t.hub.mmio = (0, 0) ∧ t.hub.mem = s.hub.mem) ∧
  (∀ (s : State) (init : Initiator), s.hub.takes init .farport pFarport 0x98 true → Ends (exec (.farportCntClr init 1) s) fun t =>
    t.hub.holds pFarport 0x80 6 0 ∧ t.hub.mmio = (0, 0) ∧ t.hub.mem = s.hub.mem) ∧
  (∀ (s : State) (init : Initiator), s.hub.takes init .ras pRas 0x44 true → Ends (exec (.rasCntClr init 1) s) fun t =>
    t.hub.holds pRas 0x48 10 0 ∧ t.hub.rd pRas 0xA0 = 0 ∧ t.hub.mmio = (0, 0) ∧ t.hub.mem = s.hub.mem) ∧
  (∀ (s : State) (init : Initiator), s.hub.takes init .therm pTherm 0x7C true → Ends (exec (.thermCntClr init 1) s) fun t =>
    t.hub.holds pTherm 0x70 2 0 ∧ t.hub.mmio = (0, 0) ∧ t.hub.mem = s.hub.mem) ∧
  (∀ (s : State) (init : Initiator), s.hub.takes init .perf pPerf 0x48 true →
    Ends (exec (.clrGlobal init 1) s) (fun t => t.hub.perf.cnt = [] ∧ t.hub.perf.eng = s.hub.perf.eng ∧ t.hub.mem = s.hub.mem) ∧
    Ends (exec (.clrEngine init 2) s) (fun t => t.hub.perf.eng = [] ∧ t.hub.perf.cnt = s.hub.perf.cnt ∧ t.hub.mem = s.hub.mem) ∧
    Ends (exec (.clrSamples init 4) s) (fun t => t.hub.perf.fifo = [] ∧ t.hub.rd pPerf 0x68 = 0 ∧ t.hub.mem = s.hub.mem))

/-- A write of a selector loads its staging copy from what is in force: kitty windows (R148), peer and host windows (R122), exports
(R323). A data register reaches the entry its selector names, and AUTOINC moves on (R126, R271). -/
def Obligations.SelectorsLoadAndTablesAreReached : Prop :=
  (∀ (s : State) (init : Initiator) (data : Word), s.hub.writable s.fuses init .cache pCache 0x50 data →
    Ends (exec (.kwSelLoad init data) s) fun t => ∃ v : Word, t.hub.rd pCache 0x50 = v ∧ bitsNat v 0 4 = bitsNat data 0 4 ∧
      t.hub.rd64 pCache 0x54 = (s.hub.kitty v.toNat).base % 2 ^ 64 ∧
      t.hub.rd pCache 0x5C = BitVec.ofNat 32 (s.hub.kitty v.toNat).units ∧
      t.hub.rd pCache 0x60 = (s.hub.kitty v.toNat).ctrl ∧ t.hub.mmio = (0, 0) ∧ t.hub.mem = s.hub.mem) ∧
  (∀ (s : State) (init : Initiator) (data : Word), s.hub.writable s.fuses init .part pPart 0x80 data →
    Ends (exec (.pwSelLoad init data) s) fun t => ∃ v : Word, t.hub.rd pPart 0x80 = v ∧ bitsNat v 0 8 = bitsNat data 0 8 ∧
      t.hub.rd64 pPart 0x84 = (s.hub.peerWin v.toNat).base.toNat ∧
      t.hub.rd pPart 0x8C = BitVec.ofNat 32 (s.hub.peerWin v.toNat).units ∧
      t.hub.rd pPart 0x90 = (s.hub.peerWin v.toNat).target ∧ t.hub.rd pPart 0x94 = (s.hub.peerWin v.toNat).ctrl ∧
      t.hub.mmio = (0, 0) ∧ t.hub.mem = s.hub.mem) ∧
  (∀ (s : State) (init : Initiator) (data : Word), s.hub.writable s.fuses init .part pPart 0xA0 data →
    Ends (exec (.hwSelLoad init data) s) fun t => ∃ v : Word, t.hub.rd pPart 0xA0 = v ∧ bitsNat v 0 4 = bitsNat data 0 4 ∧
      t.hub.rd64 pPart 0xA4 = (s.hub.hostWin v.toNat).base.toNat ∧
      t.hub.rd pPart 0xAC = BitVec.ofNat 32 (s.hub.hostWin v.toNat).units ∧
      t.hub.rd pPart 0xB0 = (s.hub.hostWin v.toNat).ctrl ∧ t.hub.mmio = (0, 0) ∧ t.hub.mem = s.hub.mem) ∧
  (∀ (s : State) (init : Initiator) (data : Word), s.hub.writable s.fuses init .farport pFarport 0x58 data →
    Ends (exec (.expSelLoad init data) s) fun t => ∃ v : Word, t.hub.rd pFarport 0x58 = v ∧ bitsNat v 0 8 = bitsNat data 0 8 ∧
      t.hub.rd pFarport 0x5C = (s.hub.exp v.toNat).base ∧ t.hub.rd pFarport 0x60 = (s.hub.exp v.toNat).size ∧
      t.hub.rd pFarport 0x64 = (s.hub.exp v.toNat).peers ∧ t.hub.rd pFarport 0x68 = (s.hub.exp v.toNat).ctrl ∧
      t.hub.mmio = (0, 0) ∧ t.hub.mem = s.hub.mem) ∧
  (∀ (s : State) (init : Initiator) (data : Word), s.hub.writable s.fuses init .map pMap 0x74 data →
    Ends (exec (.setDataAccess init (some data)) s) fun t =>
      t.hub.setEntry (s.hub.fld pMap 0x70 0 11) = bitsNat data 0 11 ∧
      (∀ i, i ≠ s.hub.fld pMap 0x70 0 11 → t.hub.setEntry i = s.hub.setEntry i) ∧
      t.hub.fld pMap 0x70 0 11 = (s.hub.fld pMap 0x70 0 11 + (bit (s.hub.rd pMap 0x70) 31).toNat) % 2048 ∧ t.hub.mem = s.hub.mem) ∧
  (∀ (s : State) (init : Initiator), s.hub.takes init .map pMap 0x74 false → Ends (exec (.setDataAccess init none) s) fun t =>
    t.hub.mmio = (BitVec.ofNat 32 (s.hub.setEntry (s.hub.fld pMap 0x70 0 11)), 0) ∧
    t.hub.fld pMap 0x70 0 11 = (s.hub.fld pMap 0x70 0 11 + (bit (s.hub.rd pMap 0x70) 31).toNat) % 2048 ∧ t.hub.mem = s.hub.mem) ∧
  (∀ (s : State) (init : Initiator) (data : Word), s.hub.writable s.fuses init .map pMap 0x804 data →
    Ends (exec (.deckDataAccess init (some data)) s) fun t =>
      t.hub.deckEntry (s.hub.fld pMap 0x800 16 6) (s.hub.fld pMap 0x800 0 12) = bitsNat data 0 16 ∧
      t.hub.fld pMap 0x800 0 12 = (s.hub.fld pMap 0x800 0 12 + (bit (s.hub.rd pMap 0x800) 31).toNat) % 4096 ∧
      t.hub.mem = s.hub.mem) ∧
  (∀ (s : State) (init : Initiator) (data : Word), s.hub.writable s.fuses init .gate pGate 0x48 data →
    Ends (exec (.entryDataAccess init (some data)) s) fun t =>
      t.hub.gateEntry s.hub.gateSel.1 s.hub.gateSel.2 (s.hub.fld pGate 0x44 0 6) &&& 0xFFFFF1FF = data &&& 0xFFFFF1FF ∧
      t.hub.gateEntry s.hub.gateSel.1 s.hub.gateSel.2 (s.hub.fld pGate 0x44 0 6) &&& 0xE00 =
        s.hub.gateEntry s.hub.gateSel.1 s.hub.gateSel.2 (s.hub.fld pGate 0x44 0 6) &&& 0xE00 ∧
      t.hub.fld pGate 0x44 0 6 = (s.hub.fld pGate 0x44 0 6 + (bit (s.hub.rd pGate 0x44) 31).toNat) % 64 ∧ t.hub.mem = s.hub.mem)

/-- Registers that act when they are written: LOCK and EXPERT of PAGE_CTRL (R477, R478), the enable of a DMA channel (R290, R301),
interrupt enables and routes (R484), the profile (R10), the armed epoch (R245), the pacing of a channel (R292), a shaper (R255) and the
journal's ACK (R464). -/
def Obligations.RegistersThatAct : Prop :=
  (∀ (s : State) (init : Initiator) (p : BitVec 12) (data : Word), s.hub.takes init .dma p.toNat 0x08 true → s.hub.afterS7 = true →
    bit data 0 = true → bit (s.hub.rd p.toNat 0x08) 0 = false → Ends (exec (.pageEnable init p data) s) fun t =>
      (t.hub.dmaCh (p.toNat - 0x10)).st = 1 ∧ bit (t.hub.rd p.toNat 0x08) 0 = true ∧ t.hub.rd p.toNat 0x70 = 0 ∧
      t.hub.mmio = (0, 0) ∧ t.hub.mem = s.hub.mem) ∧
  (∀ (s : State) (init : Initiator) (p : BitVec 12) (c : PageClass) (data : Word), s.hub.takes init c p.toNat 0x08 true →
    (c = .dma → s.hub.afterS7 = true ∧ bit data 0 = bit (s.hub.rd p.toNat 0x08) 0) → bit c.info.2.1 1 = true →
    Ends (exec (.expertUnlock init p data) s) fun t =>
      bit (t.hub.rd p.toNat 0x08) 1 = bit data 1 ∧ t.hub.mmio = (0, 0) ∧ t.hub.mem = s.hub.mem) ∧
  (∀ (s : State) (init : Initiator) (p : BitVec 12) (c : PageClass) (data : Word), s.hub.takes init c p.toNat 0x08 true →
    bit c.info.2.1 2 = true → Ends (exec (.pageLock init p data) s) fun t =>
      bit (t.hub.rd p.toNat 0x08) 31 = (bit data 31 || bit (s.hub.rd p.toNat 0x08) 31) ∧ t.hub.mmio = (0, 0) ∧
      t.hub.mem = s.hub.mem) ∧
  (∀ (s : State) (init : Initiator) (p : BitVec 12) (c : PageClass) (data : Word), s.hub.takes init c p.toNat 0x14 true →
    Ends (exec (.irqEnableWrite init p data) s) fun t =>
      t.hub.rd p.toNat 0x14 = data &&& c.info.2.2 ∧ t.hub.rd p.toNat 0x10 = s.hub.rd p.toNat 0x10 ∧ t.hub.mmio = (0, 0) ∧
      t.hub.mem = s.hub.mem) ∧
  (∀ (s : State) (init : Initiator) (data : Word), s.hub.writable s.fuses init .hub pHub 0x64 data →
    Ends (exec (.msiRouteWrite init data) s) fun t =>
      SMap.get routeReset t.hub.irq.route (s.hub.fld pHub 0x60 0 12) &&& 0x8000003F = data &&& 0x8000003F ∧
      t.hub.mmio = (0, 0) ∧ t.hub.mem = s.hub.mem) ∧
  (∀ (s : State) (init : Initiator) (data : Word), s.hub.writable s.fuses init .hub pHub 0x44 data →
    Ends (exec (.compatProfileWrite init data) s) fun t =>
      bitsNat (t.hub.rd pHub 0x44) 0 16 = 1 ∧ bitsNat data 0 16 = 1 ∧ t.hub.mmio = (0, 0) ∧ t.hub.mem = s.hub.mem) ∧
  (∀ (s : State) (init : Initiator), s.hub.takes init .hub pHub 0x168 true → Ends (exec (.epochArm init 1) s) fun t =>
    t.hub.fld pHub 0x178 0 1 = 1 ∧ t.hub.tm = s.hub.tm ∧ t.hub.mmio = (0, 0) ∧ t.hub.mem = s.hub.mem) ∧
  (∀ (s : State) (init : Initiator) (c : BitVec 6) (chCfg : Bool) (data : Word),
    s.hub.writable s.fuses init .dma (pDma c.toNat) (if chCfg then 0x40 else 0x44) data →
    Ends (exec (.evtCfgWrite init c chCfg data) s) fun t =>
      t.hub.rd (pDma c.toNat) (if chCfg then 0x40 else 0x44) &&& (if chCfg then 0xFF37FF3F else 0xFF007F) =
        data &&& (if chCfg then 0xFF37FF3F else 0xFF007F) ∧
      t.hub.rd (pDma c.toNat) 0x70 = 0 ∧ t.hub.mmio = (0, 0) ∧ t.hub.mem = s.hub.mem) ∧
  (∀ (s : State) (init : Initiator) (data : Word), s.hub.writable s.fuses init .tm pTm 0x74 data →
    Ends (exec (.shaperEnable init data) s) fun t =>
      (t.hub.shaper s.hub.shpSel).cfg &&& 0xFFFF01 = data &&& 0xFFFF01 ∧
      (t.hub.shaper s.hub.shpSel).tokens = (s.hub.shaper s.hub.shpSel).tokens ∧ t.hub.mmio = (0, 0) ∧ t.hub.mem = s.hub.mem) ∧
  (∀ (s : State) (init : Initiator) (data : Word) (crit : Nat), s.hub.writable s.fuses init .journal pJournal 0x5C data →
    s.hub.journal.crit = some crit → Ends (exec (.journalAckWrite init data) s) fun t =>
      t.hub.journal.ack = some (min crit (data.toNat * 2 ^ 32 + s.hub.journal.ackLo.toNat)) ∧ t.hub.mmio = (0, 0) ∧
      t.hub.mem = s.hub.mem)

/-! Long operations -/

/-- A write of PAGE_OP with GO that the page takes begins its operation: BUSY, OPCODE and INDEX show it and FAULT is clear (R482); of
these every check and effect comes at the operation's end. -/
def Obligations.OperationsBegin : Prop :=
  ∀ (s : State) (init : Initiator),
    (s.hub.starts init .part pPart → init = .mgmt ∨ s.hub.fld pSec 0x44 0 1 = 1 →
      Becomes (exec (.partEnable init) s) s (s.hub.begun pPart 1 (partSel s.hub))) ∧
    (s.hub.starts init .part pPart → Becomes (exec (.setPw init) s) s (s.hub.begun pPart 2 (s.hub.fld pPart 0x80 0 8)) ∧
      Becomes (exec (.setHw init) s) s (s.hub.begun pPart 3 (s.hub.fld pPart 0xA0 0 4))) ∧
    (s.hub.starts init .sec pSec → Becomes (exec (.genIdentity init) s) s (s.hub.begun pSec 6 0) ∧
      Becomes (exec (.lockProv init) s) s (s.hub.begun pSec 7 0)) ∧
    (s.hub.starts init .trick pTrick → Becomes (exec (.forceFree init) s) s (s.hub.begun pTrick 1 (slotSel s.hub))) ∧
    (s.hub.starts init .pagemgr pPagemgr → Becomes (exec (.tableBuild init) s) s (s.hub.begun pPagemgr 1 (pgSel s.hub)) ∧
      Becomes (exec (.tableFree init) s) s (s.hub.begun pPagemgr 2 (pgSel s.hub)) ∧
      Becomes (exec (.xlate init) s) s (s.hub.begun pPagemgr 3 (pgSel s.hub))) ∧
    (s.hub.starts init .gate pGate → Becomes (exec (.deal init) s) s (s.hub.begun pGate 1 s.hub.gateSel.1) ∧
      Becomes (exec (.stop init) s) s (s.hub.begun pGate 2 s.hub.gateSel.1) ∧
      Becomes (exec (.cancel init) s) s (s.hub.begun pGate 3 s.hub.gateSel.1)) ∧
    (s.hub.starts init .ras pRas → Becomes (exec (.readmit init) s) s (s.hub.begun pRas 1 (s.hub.fld pRas 0x78 0 11))) ∧
    (s.hub.starts init .perf pPerf → Becomes (exec (.dumpStart init) s) s (s.hub.begun pPerf 1 0)) ∧
    ∀ page opcode index, (s.hub.begun page opcode index).opOf page = some ⟨opcode, 0, index, false⟩ ∧
      bit ((s.hub.begun page opcode index).rd page 0x0C) 2 = false ∧ (s.hub.begun page opcode index).mmio = (0, 0)

/-- Operations of the PART, CACHE, STK, DMA and RAS pages with an effect at GO: the RELEASE entry (R391), the verdict on a kitty window or
a way count (R148), the reads of a kitty window's absent lines, the dirty lines a FLUSH is to write back (R149), a slice (R241), a
channel's start, pause, resume and abort (R290, R294, R303) and a retirement (R350). That a FLUSH takes what is dirty at its GO is the
model's reading (log 37). -/
def Obligations.OperationsTakeEffect : Prop :=
  ∀ (s : State) (init : Initiator),
    (s.hub.starts init .part pPart → init = .mgmt ∨ s.hub.fld pSec 0x44 0 1 = 1 → (s.hub.part (partSel s.hub)).enabled = true →
      Ends (exec (.partRelease init) s) fun t =>
        t.hub.opOf pPart = some ⟨4, 0, partSel s.hub + 256 * s.hub.fld pSec 0x44 1 1, true⟩ ∧
        t.hub.lastEntry 9 [BitVec.ofNat 8 (partSel s.hub), BitVec.ofNat 8 (s.hub.fld pSec 0x44 1 1)] ∧ t.hub.mem = s.hub.mem) ∧
    (s.hub.starts init .cache pCache → Ends (exec (.kwApply init) s) fun t =>
      t.hub.opOf pCache = some ⟨1, s.hub.kwCheck (kwSel s.hub) s.hub.stagedKw, kwSel s.hub, false⟩ ∧ t.hub.cache = s.hub.cache ∧
      t.hub.mem = s.hub.mem) ∧
    (s.hub.starts init .cache pCache → (s.hub.kitty (kwSel s.hub)).on = true → Becomes (exec (.kittyFill init) s) s
      ((s.hub.begun pCache 2 (kwSel s.hub)).setCache { s.hub.cache with
        kfill := ((s.hub.kitty (kwSel s.hub)).owner, s.hub.kittySpan (s.hub.kitty (kwSel s.hub))) }).kittyOn) ∧
    (s.hub.starts init .cache pCache → s.hub.fld pCache 0x64 8 2 = 0 ∨ s.hub.fld pCache 0x64 8 2 = 1 ∨
        (s.hub.fld pCache 0x64 8 2 = 2 ∧ (s.hub.kitty (kwSel s.hub)).on = true) →
      Becomes (exec (.flush init) s) s ((s.hub.begun pCache 3 (flushIndex s.hub)).setCache { s.hub.cache with
        flush := s.hub.dirtyLines (s.hub.flushScope (s.hub.fld pCache 0x64 8 2) (flushIndex s.hub)) })) ∧
    (s.hub.starts init .cache pCache → Ends (exec (.setWays init) s) fun t =>
      t.hub.opOf pCache = some ⟨4, if (List.range 16).any (fun i => (s.hub.kitty i).on) then 4
        else if 12 < s.hub.fld pCache 0x48 0 4 then 5 else 0, 0, false⟩ ∧ t.hub.cache = s.hub.cache ∧ t.hub.mem = s.hub.mem) ∧
    (∀ st : BitVec 3, s.hub.starts init .stk (pStk st.toNat) →
      let n := s.hub.fld (pStk st.toNat) 0x70 0 6
      (s.hub.pc (st.toNat * 64 + n)).st = 1 ∨ (s.hub.pc (st.toNat * 64 + n)).st = 2 ∨ (s.hub.pc (st.toNat * 64 + n)).st = 3 →
      Becomes (exec (.retrainSlice init st) s) s
        (((s.hub.begun (pStk st.toNat) 1 n).opWaits (pStk st.toNat) 0).opSliceNext st.toNat)) ∧
    (∀ c : BitVec 6, s.hub.starts init .dma (pDma c.toNat) → s.hub.afterS7 = true →
      ((s.hub.dmaCh c.toNat).st = 1 ∨ (s.hub.dmaCh c.toNat).st = 6 →
        (s.hub.part (s.hub.fld (pDma c.toNat) 0x40 0 6)).enabled = true →
        bit (s.hub.part (s.hub.fld (pDma c.toNat) 0x40 0 6)).dma c.toNat = true → Becomes (exec (.dmaStart init c) s) s
          (((s.hub.begun (pDma c.toNat) 1 0).opWaits (pDma c.toNat) 0).beginFetch c.toNat 1)) ∧
      ((s.hub.dmaCh c.toNat).st = 5 → Ends (exec (.dmaPause init c) s) fun t =>
        (t.hub.dmaCh c.toNat).pausePend = true ∧ (t.hub.dmaCh c.toNat).st = 5 ∧
        t.hub.opOf (pDma c.toNat) = some ⟨2, 0, 0, false⟩ ∧ t.hub.mem = s.hub.mem) ∧
      ((s.hub.dmaCh c.toNat).st = 2 ∨ (s.hub.dmaCh c.toNat).st = 3 → Becomes (exec (.dmaPause init c) s) s
        ((((s.hub.begun (pDma c.toNat) 2 0).opWaits (pDma c.toNat) 0).putDma c.toNat { s.hub.dmaCh c.toNat with
          stopFor := if (s.hub.dmaCh c.toNat).stopFor = 4 then 4 else 1, st := 7 }).dmaSettle c.toNat)) ∧
      ((s.hub.dmaCh c.toNat).st = 6 → Becomes (exec (.dmaResume init c) s) s
        (((s.hub.begun (pDma c.toNat) 3 0).opWaits (pDma c.toNat) 0).beginFetch c.toNat 3)) ∧
      ((s.hub.dmaCh c.toNat).st = 4 → (s.hub.dmaCh c.toNat).fetch = 0 → s.hub.fld (pDma c.toNat) 0x68 0 17 ≠ 0 →
        ∀ n, s.hub.posOfRegs c.toNat (s.hub.dmaCh c.toNat) = some n →
          (s.hub.withShift c.toNat (s.hub.dmaCh c.toNat) n).resumes (n % max 1 (s.hub.dmaCh c.toNat).length) = true →
          Becomes (exec (.dmaResume init c) s) s
          ((((s.hub.begun (pDma c.toNat) 3 0).opWaits (pDma c.toNat) 0).putDma c.toNat
            (s.hub.withShift c.toNat (s.hub.dmaCh c.toNat) n)).runDesc c.toNat n)) ∧
      ((s.hub.dmaCh c.toNat).st = 2 ∨ (s.hub.dmaCh c.toNat).st = 3 ∨ (s.hub.dmaCh c.toNat).st = 4 ∨
          (s.hub.dmaCh c.toNat).st = 5 ∨ (s.hub.dmaCh c.toNat).st = 6 → Becomes (exec (.dmaAbort init c) s) s
        ((((s.hub.begun (pDma c.toNat) 4 0).opWaits (pDma c.toNat) 0).putDma c.toNat { s.hub.dmaCh c.toNat with
          stopFor := if (s.hub.dmaCh c.toNat).stopFor = 4 then 5 else 2, st := 7 }).dmaSettle c.toNat))) ∧
    (s.hub.starts init .ras pRas →
      let ps := s.hub.fld pRas 0x78 0 11
      (s.hub.pslab ps).st = 1 → s.hub.retiring ps = false → (s.hub.lslab (s.hub.pslab ps).logical.toNat).st ≠ 2 →
      s.hub.retireFull ps = false →
      Becomes (exec (.retire init) s) s (((s.hub.begun pRas 2 ps).opWaits pRas 0).startRetire ps 3))

/-- Operations of the FARPORT, SEC, PERF and JOURNAL pages with an effect at GO: an export (R323, R324), a training (R324), a pair reset
(R311), a pair's master key installed or removed while the journal has room (R377, R461) or its session keys changed (R376), the FUSE entry
ahead of a fuse (R381), the end of dumping and a dump at once (R457), an entry read from the flash or appended to the journal (R467). -/
def Obligations.ServiceOperationsTakeEffect : Prop :=
  ∀ (s : State) (init : Initiator),
    (s.hub.starts init .farport pFarport → Ends (exec (.expApply init) s) fun t =>
      let n := s.hub.fld pFarport 0x58 0 8
      let code := s.hub.expCheck n s.hub.stagedExport
      t.hub.opOf pFarport = some ⟨1, code, n, false⟩ ∧ t.hub.exp n = (if code = 0 then s.hub.stagedExport else s.hub.exp n) ∧
      (∀ j, j ≠ n → t.hub.exp j = s.hub.exp j) ∧ t.hub.mem = s.hub.mem) ∧
    (∀ up, s.hub.starts init .farport pFarport →
      let i := s.hub.fld pFarport 0x44 0 2
      (s.hub.farPort i).enable = true → (s.hub.farPort i).linkUp = true ∨ up = true → Becomes (exec (.portRetrain ⟨init, up⟩) s) s
        ((((s.hub.linkSeen i up).begun pFarport 2 i).opWaits pFarport 0).trainFar i)) ∧
    (s.hub.starts init .farport pFarport →
      let p := s.hub.fld pFarport 0x50 0 10
      (s.hub.pair p).st ≠ 0 → Becomes (exec (.peerReset init) s) s ((s.hub.begun pFarport 3 p).pairDown p 2)) ∧
    (s.hub.starts init .sec pSec → s.hub.sec.coreReset = false → 
      secPeer s.hub ≠ s.hub.hubId → s.hub.keyBuf ≠ 0 → s.hub.journalFull = false →
      Ends (exec (.pairInstall init) s) fun t =>
      (t.hub.pair (secPeer s.hub)).master = some s.hub.keyBuf ∧ (t.hub.pair (secPeer s.hub)).st = 1 ∧
      t.hub.holds pSec 0xC0 8 0 ∧ t.hub.opOf pSec = some ⟨1, 0, secPeer s.hub, false⟩ ∧
      (∃ gen, t.hub.lastEntry 0x12 (le16 (secPeer s.hub) ++ [0] ++ le32 gen)) ∧ t.hub.mem = s.hub.mem) ∧
    (s.hub.starts init .sec pSec → s.hub.sec.coreReset = false → 
      (s.hub.pair (secPeer s.hub)).st ≠ 0 → s.hub.journalFull = false →
      Ends (exec (.pairRemove init) s) fun t =>
      t.hub.pair (secPeer s.hub) = Pair.empty ∧ t.hub.opOf pSec = some ⟨2, 0, secPeer s.hub, false⟩ ∧ t.hub.mem = s.hub.mem) ∧
    (s.hub.starts init .sec pSec → s.hub.sec.coreReset = false → (s.hub.pair (secPeer s.hub)).st = 2 →
      (s.hub.pair (secPeer s.hub)).offer = none →
      (s.hub.pair (secPeer s.hub)).txPend = none → s.hub.drbgError = false → Becomes (exec (.pairRekey init) s) s
        (((s.hub.begun pSec 3 (secPeer s.hub)).opWaits pSec 0).startRekey (secPeer s.hub))) ∧
    (s.hub.starts init .sec pSec → s.hub.sec.coreReset = false → 
      s.fuses.svn < min 64 (s.hub.fld pSec 0x48 8 7) → Ends (exec (.fuseSvn init) s) fun t =>
      t.hub.opOf pSec = some ⟨4, 0, 0, true⟩ ∧ t.hub.lastEntry 0x0A [4, BitVec.ofNat 8 (min 64 (s.hub.fld pSec 0x48 8 7))] ∧
      t.fuses = s.fuses ∧ t.hub.mem = s.hub.mem) ∧
    (s.hub.starts init .sec pSec → s.hub.sec.coreReset = false → 
      s.hub.signKey ≠ s.hub.runKey → bit s.fuses.revoked s.hub.signKey = false →
      Ends (exec (.fuseRevoke init) s) fun t =>
        t.hub.opOf pSec = some ⟨5, 0, s.hub.signKey, true⟩ ∧ t.hub.lastEntry 0x0A [5, BitVec.ofNat 8 s.hub.signKey] ∧
        t.fuses = s.fuses ∧ t.hub.mem = s.hub.mem) ∧
    (s.hub.starts init .perf pPerf → s.hub.dumping = true → s.hub.perf.dump.step ≠ 0 → Ends (exec (.dumpStop init) s) fun t =>
      t.hub.perf.stopping = true ∧ t.hub.opOf pPerf = some ⟨2, 0, 0, true⟩ ∧ t.hub.dumping = true ∧ t.hub.mem = s.hub.mem) ∧
    (s.hub.starts init .perf pPerf → s.hub.dumping = true → s.hub.perf.dump.step = 0 → Ends (exec (.dumpStop init) s) fun t =>
      t.hub.dumping = false ∧ t.hub.opOf pPerf = none ∧ t.hub.mem = s.hub.mem) ∧
    (s.hub.starts init .perf pPerf → s.hub.perf.dump.step = 0 → s.hub.dumpRangeOk = true → Becomes (exec (.dumpNow init) s) s
      (((s.hub.begun pPerf 3 0).opWaits pPerf 0).dumpBegin true)) ∧
    (∀ b, s.hub.starts init .journal pJournal → s.hub.pastS0 = true →
      s.hub.copyAt (s.hub.rd64 pJournal 0x60 % 2) (s.hub.rd64 pJournal 0x60 % 131072) = some b →
      entrySeq b = s.hub.rd64 pJournal 0x60 → Ends (exec (.journalRead init) s) fun t =>
        t.hub.journal.rdData = b ∧ t.hub.opOf pJournal = some ⟨1, 0, 0, false⟩ ∧ t.hub.mem = s.hub.mem) ∧
    (s.hub.starts init .journal pJournal → s.hub.pastS0 = true → s.hub.fld pJournal 0x78 16 1 = 1 →
      Ends (exec (.append init) s) fun t =>
        t.hub.lastEntry (s.hub.fld pJournal 0x78 0 16) ((List.range 9).flatMap (fun i => bytesOf (s.hub.rd pJournal (0xC0 + 4 * i)))) ∧
        t.hub.opOf pJournal = some ⟨2, 0, 0, true⟩ ∧ t.hub.mem = s.hub.mem) ∧
    (s.hub.starts init .journal pJournal → s.hub.pastS0 = true → s.hub.fld pJournal 0x78 16 1 = 0 → s.hub.dropsOrdinary = false →
      Ends (exec (.append init) s) fun t =>
        t.hub.journal.ordinary = s.hub.journal.ordinary ++ [⟨BitVec.ofNat 16 (s.hub.fld pJournal 0x78 0 16), 2, true,
          (List.range 9).flatMap (fun i => bytesOf (s.hub.rd pJournal (0xC0 + 4 * i)))⟩] ∧
        t.hub.opOf pJournal = some ⟨2, 0, 0, false⟩ ∧ t.hub.mem = s.hub.mem)

/-- A long operation ends: BUSY falls, OP_RESULT holds CODE, OPCODE and INDEX, FAULT says whether it failed, IRQ bit 0 rises (R482). At
that moment a PART_ENABLE that meets every check enables its partition under fresh keys (R123, R366), a peer or host window takes what is
staged (R103, R123), a kitty window or a way count is in force once no way of its scope holds a line and FLUSH and KITTY_FILL end once
nothing is left to do (R149), FORCE_FREE frees its slot (R215), a page table is built, freed or shown (R203, R217, R218), a deal waits for
its start, a list stops, CANCEL drops a waiting deal (R272), dumping begins (R457), a slab that passed its test is recorded for
re-admission (R355), the identity key is drawn (R384), and fuses are blown (R381, R384). -/
def Obligations.LongOperationsEnd : Prop :=
  (∀ (s : State) (page : BitVec 12) (r : OpEnd) (o : LongOp), s.hub.inReset = false → s.hub.opOf page.toNat = some o →
    o.waits = false → pageClass page.toNat = some .stk ∨ pageClass page.toNat = some .dma ∨ pageClass page.toNat = some .journal →
    Becomes (exec (.longOpEnd page r) s) s (s.hub.endOp page.toNat o.code)) ∧
  (∀ (h : Hub) (page code : Nat) (o : LongOp) (c : PageClass), h.opOf page = some o → pageClass page = some c →
    (opResultOf c).1 ≠ 0 → (h.endOp page code).opOf page = none ∧
      (h.endOp page code).rd page (opResultOf c).1 = BitVec.ofNat 32 (code + 256 * o.opcode + 65536 * (o.index % 2 ^ (opResultOf c).2)) ∧
      bit ((h.endOp page code).rd page 0x0C) 2 = decide (code ≠ 0) ∧ bit ((h.endOp page code).rd page 0x10) 0 = true ∧
      (h.endOp page code).mem = h.mem) ∧
  (∀ (s : State) (r : OpEnd) (p c : Nat), s.hub.inReset = false → s.hub.opOf pPart = some ⟨1, c, p, false⟩ →
    s.hub.partCheck p = 0 → s.hub.journalFull = false → Ends (exec (.longOpEnd 3 r) s) fun t =>
      t.hub.opOf pPart = none ∧ (t.hub.part p).enabled = true ∧ (t.hub.keySlot p).isSome = true ∧
      (∀ q, q ≠ p → t.hub.part q = s.hub.part q ∧ t.hub.keySlot q = s.hub.keySlot q) ∧ t.hub.mem = s.hub.mem) ∧
  (∀ (s : State) (r : OpEnd) (p c : Nat), s.hub.inReset = false → s.hub.opOf pPart = some ⟨1, c, p, false⟩ →
    s.hub.partCheck p ≠ 0 → Becomes (exec (.longOpEnd 3 r) s) s (s.hub.endOp pPart (s.hub.partCheck p))) ∧
  (∀ (s : State) (r : OpEnd) (i c : Nat), s.hub.inReset = false → s.hub.opOf pPart = some ⟨2, c, i, false⟩ →
    (s.hub.pwCheck i s.hub.stagedPw ≠ 0 → Becomes (exec (.longOpEnd 3 r) s) s (s.hub.endOp pPart (s.hub.pwCheck i s.hub.stagedPw))) ∧
    (s.hub.pwCheck i s.hub.stagedPw = 0 → bit s.hub.stagedPw.ctrl 31 = true ∨ s.hub.peerPending i = false →
      Ends (exec (.longOpEnd 3 r) s) fun t => t.hub.opOf pPart = none ∧ t.hub.peerWin i = s.hub.stagedPw ∧
        (∀ j, j ≠ i → t.hub.peerWin j = s.hub.peerWin j) ∧ t.hub.mem = s.hub.mem)) ∧
  (∀ (s : State) (r : OpEnd) (i c : Nat), s.hub.inReset = false → s.hub.opOf pPart = some ⟨3, c, i, false⟩ →
    (s.hub.hwCheck i s.hub.stagedHw ≠ 0 → Becomes (exec (.longOpEnd 3 r) s) s (s.hub.endOp pPart (s.hub.hwCheck i s.hub.stagedHw))) ∧
    (s.hub.hwCheck i s.hub.stagedHw = 0 → Ends (exec (.longOpEnd 3 r) s) fun t => t.hub.opOf pPart = none ∧
      t.hub.hostWin i = s.hub.stagedHw ∧ (∀ j, j ≠ i → t.hub.hostWin j = s.hub.hostWin j) ∧ t.hub.mem = s.hub.mem)) ∧
  (∀ (s : State) (r : OpEnd) (i : Nat), s.hub.inReset = false → s.hub.journalFull = false →
    (s.hub.opOf pCache = some ⟨1, 0, i, false⟩ → s.hub.stagedKw.on = true →
      s.hub.waysOf (fun n => decide (n < 16 - s.hub.cache.k)) (fun x => s.hub.stagedKw.has s.hub x.part.toNat x.line) = [] →
      Becomes (exec (.longOpEnd 5 r) s) s (((s.hub.putKitty i s.hub.stagedKw).endOp pCache 0).settleOn)) ∧
    (s.hub.opOf pCache = some ⟨2, 0, i, false⟩ → s.hub.cache.kfill.2.2 = 0 →
      (s.hub.settleOn.lines.ordered.all fun x => !(x.src == .kitty && x.kind == .read)) = true → s.hub.settleOn.cache.kfill.2.2 = 0 →
      Becomes (exec (.longOpEnd 5 r) s) s (s.hub.settleOn.endOp pCache 0)) ∧
    (s.hub.opOf pCache = some ⟨3, 0, i, false⟩ → s.hub.cache.flush = [] →
      Becomes (exec (.longOpEnd 5 r) s) s ((s.hub.endOp pCache 0).settleOn)) ∧
    (s.hub.opOf pCache = some ⟨4, 0, i, false⟩ →
      s.hub.waysOf (fun n => decide (16 - s.hub.fld pCache 0x48 0 4 ≤ n)) (fun x => x.st != .invalid) = [] →
      Becomes (exec (.longOpEnd 5 r) s) s
        (((s.hub.setCache { s.hub.cache with k := s.hub.fld pCache 0x48 0 4, chosen := [] }).endOp pCache 0).settleOn))) ∧
  (∀ (s : State) (r : OpEnd) (i c : Nat), s.hub.inReset = false → s.hub.opOf pTrick = some ⟨1, c, i, false⟩ →
    (s.hub.trick i).st = 1 ∨ (s.hub.trick i).st = 3 →
    Becomes (exec (.longOpEnd 7 r) s) s ((s.hub.putTrick i Trick.free).endOp pTrick 0)) ∧
  (∀ (s : State) (r : OpEnd) (p c : Nat), s.hub.inReset = false → s.hub.opOf pPagemgr = some ⟨3, c, p, false⟩ →
    (s.hub.table p).built = true → bit (s.hub.rd pPagemgr 0x70) 31 = false →
    s.hub.fld pPagemgr 0x70 0 26 < (s.hub.table p).w → Ends (exec (.longOpEnd 8 r) s) fun t =>
      t.hub.rd64 pPagemgr 0x74 = (s.hub.fwd p (s.hub.fld pPagemgr 0x70 0 26)).toNat ∧ t.hub.opOf pPagemgr = none ∧
      t.hub.pages = s.hub.pages ∧ t.hub.mem = s.hub.mem) ∧
  (∀ (s : State) (r : OpEnd) (p c : Nat), s.hub.inReset = false → s.hub.opOf pPagemgr = some ⟨2, c, p, false⟩ →
    (s.hub.part p).enabled = false → (s.hub.table p).built = true → Ends (exec (.longOpEnd 8 r) s) fun t =>
      t.hub.table p = PageTable.unbuilt ∧ (∀ q, q ≠ p → t.hub.table q = s.hub.table q) ∧ t.hub.opOf pPagemgr = none ∧
      t.hub.mem = s.hub.mem) ∧
  (∀ (s : State) (r : OpEnd) (p c a b : Nat), s.hub.inReset = false → s.hub.opOf pPagemgr = some ⟨1, c, p, false⟩ →
    (s.hub.part p).enabled = false → (s.hub.table p).built = false → (s.hub.part p).managed = true → (s.hub.part p).quad = false →
    let w := (s.hub.part p).units * 32
    let n := (s.hub.part p).count * s.hub.bigD / 256
    s.hub.placeSlots [0, 1, 2, 3] (ceilDiv w 4) [] = some a → s.hub.placeSlots [0, 1, 2, 3] (ceilDiv n 4) [(a, ceilDiv w 4)] = some b →
    Ends (exec (.longOpEnd 8 r) s) fun t =>
      (t.hub.table p).built = true ∧ (t.hub.table p).w = w ∧ (t.hub.table p).p = n ∧ (t.hub.table p).fwdFirst = a ∧
      (t.hub.table p).revFirst = b ∧ (t.hub.table p).units = (s.hub.part p).units ∧ (t.hub.table p).first = (s.hub.part p).first ∧
      (t.hub.table p).count = (s.hub.part p).count ∧ (∀ q, q ≠ p → t.hub.table q = s.hub.table q) ∧ t.hub.opOf pPagemgr = none ∧
      t.hub.mem = s.hub.mem) ∧
  (∀ (s : State) (r : OpEnd) (l c : Nat), s.hub.inReset = false →
    let g := s.hub.gate s.hub.gateSel.1
    (s.hub.opOf pGate = some ⟨1, c, l, false⟩ → g.st ≠ 1 → g.st ≠ 3 → (g.running && g.bank.toNat == s.hub.gateSel.2) = false →
      1 ≤ s.hub.bankLen s.hub.gateSel.1 s.hub.gateSel.2 → s.hub.bankLen s.hub.gateSel.1 s.hub.gateSel.2 ≤ 64 →
      (∀ i, i < s.hub.bankLen s.hub.gateSel.1 s.hub.gateSel.2 → entryDur (s.hub.gateEntry s.hub.gateSel.1 s.hub.gateSel.2 i) ≠ 0) →
      Ends (exec (.longOpEnd 10 r) s) fun t =>
        (t.hub.gate s.hub.gateSel.1).st = (if g.st = 0 then 1 else 3) ∧
        (t.hub.gate s.hub.gateSel.1).pend = BitVec.ofNat 1 s.hub.gateSel.2 ∧ t.hub.opOf pGate = none ∧ t.hub.mem = s.hub.mem) ∧
    (s.hub.opOf pGate = some ⟨2, c, l, false⟩ → g.st ≠ 0 → Becomes (exec (.longOpEnd 10 r) s) s
      ((s.hub.putGate s.hub.gateSel.1 { g with stopping := true }).endOp pGate 0))) ∧
  (∀ (s : State) (r : OpEnd) (i c : Nat), s.hub.inReset = false → s.hub.opOf pPerf = some ⟨1, c, i, false⟩ →
    s.hub.dumping = false → s.hub.dumpBase % 64 = 0 → s.hub.dumpRangeOk = true → Ends (exec (.longOpEnd 13 r) s) fun t =>
      t.hub.dumping = true ∧ t.hub.perf.seq = 0 ∧ t.hub.rd pPerf 0x90 = 0 ∧ t.hub.opOf pPerf = none ∧ t.hub.mem = s.hub.mem) ∧
  (∀ (s : State) (r : OpEnd) (ps : Nat), s.hub.inReset = false → s.hub.journalFull = false →
    s.hub.opOf pRas = some ⟨1, 0, ps, false⟩ → s.hub.readmitCheck ps = 0 → s.hub.testFound r.errs = [] →
    Ends (exec (.longOpEnd 11 r) s) fun t => ∃ prev, t.hub.lastEntry 7 (le16 ps ++ le16 prev) ∧
      t.hub.opOf pRas = some ⟨1, 0, ps, true⟩) ∧
  (∀ (s : State) (r : OpEnd) (i : Nat), s.hub.inReset = false → s.hub.sec.coreReset = false → r.failed = false →
    s.hub.opOf pSec = some ⟨6, 0, i, false⟩ → s.fuses.provLock = false → s.fuses.identity = none → s.hub.drbgError = false →
    Ends (exec (.longOpEnd 2 r) s) fun t => t.fuses.identity.isSome = true ∧ t.fuses.provLock = false ∧
      t.hub.opOf pSec = none ∧ t.hub.mem = s.hub.mem) ∧
  (∀ (s : State) (r : OpEnd) (l c : Nat), s.hub.inReset = false → s.hub.opOf pGate = some ⟨3, c, l, false⟩ →
    (s.hub.gate s.hub.gateSel.1).st = 1 ∨ (s.hub.gate s.hub.gateSel.1).st = 3 → Ends (exec (.longOpEnd 10 r) s) fun t =>
      (t.hub.gate s.hub.gateSel.1).st = (if (s.hub.gate s.hub.gateSel.1).st = 1 then 0 else 2) ∧ t.hub.opOf pGate = none ∧
      t.hub.mem = s.hub.mem) ∧
  (∀ (s : State) (r : OpEnd) (i : Nat), s.hub.inReset = false → s.hub.sec.coreReset = false → r.failed = false →
    s.hub.opOf pSec = some ⟨4, 0, i, false⟩ → Ends (exec (.longOpEnd 2 r) s) fun t =>
      t.fuses = { s.fuses with svn := max s.fuses.svn (min 64 (s.hub.fld pSec 0x48 8 7)) } ∧ t.hub.opOf pSec = none ∧
      t.hub.mem = s.hub.mem) ∧
  (∀ (s : State) (r : OpEnd) (i : Nat), s.hub.inReset = false → s.hub.sec.coreReset = false → r.failed = false →
    s.hub.opOf pSec = some ⟨5, 0, i, false⟩ → i < 4 → Ends (exec (.longOpEnd 2 r) s) fun t =>
      t.fuses = { s.fuses with revoked := s.fuses.revoked ||| putBit s.fuses.revoked i true } ∧
      t.hub.opOf pSec = none ∧ t.hub.mem = s.hub.mem) ∧
  (∀ (s : State) (r : OpEnd) (i : Nat), s.hub.inReset = false → s.hub.sec.coreReset = false → r.failed = false →
    s.hub.opOf pSec = some ⟨7, 0, i, false⟩ → s.fuses.identity.isSome = true → Ends (exec (.longOpEnd 2 r) s) fun t =>
      t.fuses = { s.fuses with provLock := true } ∧ bit (t.hub.rd pSec 0x48) 3 = true ∧ t.hub.opOf pSec = none ∧
      t.hub.mem = s.hub.mem)

/-! The stacks' bytes -/

/-- A command that is not among those that write to the stacks leaves every byte of them as it was. -/
def Obligations.OtherCommandsKeepTheStacks : Prop :=
  ∀ (i : Instr) (s t : State), i.writesStacks = false → exec i s = .next t → ∀ k, t.hub.memByte k = s.hub.memByte k

/-- What a sector's code word is stored as is read back, and storing it leaves every other byte of the stacks as it was. -/
def Obligations.StoredSectorsReadBack : Prop :=
  ∀ (h : Hub) (ps off sector : Nat) (w : Code),
    (h.putCode ps off sector w).memCode ps off sector = w ∧
    (∀ a, (∀ j, j < 72 → a ≠ memKey ps off sector j) → (h.putCode ps off sector w).memByte a = h.memByte a) ∧
    (∀ ps' off' sector', sector < 4 → sector' < 4 → off < 4194304 → off' < 4194304 →
      (ps', off', sector') ≠ (ps, off, sector) → (h.putCode ps off sector w).memCode ps' off' sector' = h.memCode ps' off' sector')

/-! Rules of the window, stated whole -/

/-- R474: the unassigned pages; an access of one is answered DECODE, a read with 0, recorded in UNMAPPED_ERR with IRQ bit 0 set; the pages
of stacks that are not populated and of their engines are assigned, answer as those of any stack, and show READY = 0. -/
def Obligations.UnassignedPagesAreRefused : Prop :=
  (∀ p, p < 4096 → (pageClass p = none ↔ (0x50 ≤ p ∧ p ≤ 0x7F) ∨ (0x88 ≤ p ∧ p ≤ 0xFF) ∨ (0x200 ≤ p ∧ p ≤ 0xFFF))) ∧
  (∀ (s : State) (init : Initiator) (reg : BitVec 22) (w : Option Word), s.hub.inReset = false → pageClass (regPage reg) = none →
    Ends (exec (.unassignedPageAccess init reg w) s) fun t =>
      t.hub.mmio = (0, 5) ∧ bitsNat (t.hub.rd pHub 0x58) 0 12 = regPage reg ∧ bit (t.hub.rd pHub 0x58) 12 = w.isSome ∧
      bit (t.hub.rd pHub 0x58) 31 = true ∧ bit (t.hub.rd pHub 0x10) 0 = true ∧ t.hub.mem = s.hub.mem) ∧
  (∀ (h : Hub) (st : Nat), st < 8 → (h.stack st).populated = false →
    pageClass (pStk st) = some .stk ∧ bit (h.showHeader .stk (pStk st) 0x0C) 1 = false ∧
    ∀ e, e / 32 = st → pageClass (pChe e) = some .che ∧ bit (h.showHeader .che (pChe e) 0x0C) 1 = false) ∧
  (∀ (h : Hub) (st : Nat) (v : Stack) (init : Initiator) (c : PageClass) (page off : Nat) (wr : Bool),
    (h.putStack st v).refusal init c page off wr = h.refusal init c page off wr)

/-- R483: a page that is BUSY refuses every write but those of PAGE_IRQ_STATUS and PAGE_IRQ_ENABLE, serves the reads of its header and
answers the others 0 with NOT_READY; other pages do not notice, and when BUSY falls the page accepts accesses again. -/
def Obligations.BusyPagesRefuse : Prop :=
  (∀ (h : Hub) (init : Initiator) (c : PageClass) (page off : Nat) (wr : Bool), h.busy page = true →
    h.permitted init c page off wr = true → h.pageOpen init c = true →
    h.refusal init c page off wr = if wr = true ∧ off ≠ 0x10 ∧ off ≠ 0x14 then some 3 else if wr = false ∧ 0x40 ≤ off then some 3 else none) ∧
  (∀ (s : State) (init : Initiator) (reg : BitVec 22) (c : PageClass), s.hub.inReset = false → pageClass (regPage reg) = some c →
    s.hub.busy (regPage reg) = true → s.hub.permitted init c (regPage reg) (regOff reg) false = true →
    s.hub.pageOpen init c = true → 0x40 ≤ regOff reg → Ends (exec (.refusedRead init reg) s) fun t =>
      t.hub.mmio = (0, 4) ∧ bitsNat (t.hub.rd (regPage reg) 0x18) 13 4 = 3 ∧ t.hub.ops = s.hub.ops ∧ t.hub.mem = s.hub.mem) ∧
  (∀ (s : State) (init : Initiator) (reg : BitVec 22) (data : Word) (c : PageClass), s.hub.inReset = false →
    pageClass (regPage reg) = some c → s.hub.busy (regPage reg) = true →
    s.hub.permitted init c (regPage reg) (regOff reg) true = true → s.hub.pageOpen init c = true → regOff reg ≠ 0x10 →
    regOff reg ≠ 0x14 → regOff reg ≠ 0x1C → Ends (exec (.registerWrite init reg data) s) fun t =>
      t.hub.mmio = (0, 4) ∧ bitsNat (t.hub.rd (regPage reg) 0x18) 13 4 = 3 ∧ t.hub.ops = s.hub.ops ∧ t.hub.mem = s.hub.mem) ∧
  (∀ (h : Hub) (p q : Nat) (o : Option LongOp) (init : Initiator) (c : PageClass) (off : Nat) (wr : Bool), p ≠ q →
    (h.putLongOp p o).refusal init c q off wr = h.refusal init c q off wr) ∧
  (∀ (h : Hub) (init : Initiator) (c : PageClass) (page off : Nat) (wr : Bool), h.opOf page = none →
    h.refusal init c page off wr ≠ some 3)
end

