-- ==== Sys2Proof/Laws/SMap.lean ====
section
/-!
SUPPORT. The laws of sparse maps: a read after a write gives what was written there and what stood elsewhere, whatever the map;
the canonical form is kept by every operation that writes one (SMap.set, SMap.update, SMap.dropIf).
-/
namespace Sys2Proof.Machine.SMap
variable {α : Type}

@[simp] theorem get_nil (d : Nat → α) (k : Nat) : get d [] k = d k := rfl

theorem get_erase_same (d : Nat → α) (m : SMap α) (k : Nat) : get d (erase m k) k = d k := by
  induction m with
  | nil => rfl
  | cons e m ih =>
    simp only [erase]
    split
    · exact ih
    · simp [get, *]

theorem get_erase_other (d : Nat → α) (m : SMap α) {k j : Nat} (h : j ≠ k) : get d (erase m k) j = get d m j := by
  induction m with
  | nil => rfl
  | cons e m ih =>
    simp only [erase]
    split
    · next hk => rw [ih]; simp [get, hk, Ne.symm h]
    · simp [get, ih]

theorem get_insert_same (d : Nat → α) (m : SMap α) (k : Nat) (v : α) : get d (insert m k v) k = v := by
  induction m with
  | nil => simp [insert, get]
  | cons e m ih =>
    simp only [insert]
    split
    · simp [get]
    · split
      · simp [get]
      · simp [get, *]

theorem get_insert_other (d : Nat → α) (m : SMap α) {k j : Nat} (v : α) (h : j ≠ k) :
    get d (insert m k v) j = get d m j := by
  induction m with
  | nil => simp [insert, get, Ne.symm h]
  | cons e m ih =>
    simp only [insert]
    split
    · simp [get, Ne.symm h]
    · split
      · next hk => simp [get, hk, Ne.symm h]
      · simp [get, ih]

section
variable [DecidableEq α]

/-- A read where a value was written gives it. -/
@[simp] theorem get_set_same (d : Nat → α) (m : SMap α) (k : Nat) (v : α) : get d (set d m k v) k = v := by
  unfold set
  split
  · next h => rw [get_erase_same, h]
  · exact get_insert_same d m k v

/-- A read elsewhere gives what stood there. -/
@[simp] theorem get_set_other (d : Nat → α) (m : SMap α) {k j : Nat} (v : α) (h : j ≠ k) : get d (set d m k v) j = get d m j := by
  unfold set
  split
  · exact get_erase_other d m h
  · exact get_insert_other d m v h

theorem get_set (d : Nat → α) (m : SMap α) (k j : Nat) (v : α) : get d (set d m k v) j = if j = k then v else get d m j := by
  split
  · next h => rw [h, get_set_same]
  · next h => exact get_set_other d m v h

/-! The canonical form -/

theorem wfFrom_mono {d : Nat → α} {lo lo' : Nat} (m : SMap α) (h : lo' ≤ lo) (hm : wfFrom d lo m = true) :
    wfFrom d lo' m = true := by
  cases m with
  | nil => rfl
  | cons e m => simp only [wfFrom, Bool.and_eq_true, decide_eq_true_eq] at hm ⊢; exact ⟨⟨by omega, hm.1.2⟩, hm.2⟩

theorem wfFrom_erase {d : Nat → α} (m : SMap α) (k : Nat) (lo : Nat) (h : wfFrom d lo m = true) :
    wfFrom d lo (erase m k) = true := by
  induction m generalizing lo with
  | nil => rfl
  | cons e m ih =>
    simp only [wfFrom, Bool.and_eq_true, decide_eq_true_eq] at h
    simp only [erase]
    split
    · exact wfFrom_mono _ (by omega) (ih _ h.2)
    · simp only [wfFrom, Bool.and_eq_true, decide_eq_true_eq]; exact ⟨h.1, ih _ h.2⟩

theorem wfFrom_insert {d : Nat → α} (m : SMap α) (k : Nat) {v : α} (hv : v ≠ d k) (lo : Nat) (hk : lo ≤ k)
    (h : wfFrom d lo m = true) : wfFrom d lo (insert m k v) = true := by
  induction m generalizing lo with
  | nil => simp [insert, wfFrom, hv, hk]
  | cons e m ih =>
    simp only [wfFrom, Bool.and_eq_true, decide_eq_true_eq] at h
    simp only [insert]
    split
    · simp only [wfFrom, Bool.and_eq_true, decide_eq_true_eq]
      exact ⟨⟨hk, hv⟩, ⟨⟨by omega, h.1.2⟩, h.2⟩⟩
    · split
      · next hi => simp only [wfFrom, Bool.and_eq_true, decide_eq_true_eq]; exact ⟨⟨hk, hv⟩, hi ▸ h.2⟩
      · simp only [wfFrom, Bool.and_eq_true, decide_eq_true_eq]; exact ⟨h.1, ih _ (by omega) h.2⟩

/-- A write keeps the canonical form. -/
theorem wf_set {d : Nat → α} {m : SMap α} (k : Nat) (v : α) (h : wf d m = true) : wf d (set d m k v) = true := by
  unfold set
  split
  · exact wfFrom_erase m k 0 h
  · next hv => exact wfFrom_insert m k hv 0 (Nat.zero_le k) h

theorem wf_update {d : Nat → α} {m : SMap α} (k : Nat) (f : α → α) (h : wf d m = true) : wf d (update d m k f) = true :=
  wf_set k _ h

theorem wfFrom_dropIf {d : Nat → α} (p : Nat → Bool) (m : SMap α) (lo : Nat) (h : wfFrom d lo m = true) :
    wfFrom d lo (dropIf p m) = true := by
  induction m generalizing lo with
  | nil => rfl
  | cons e m ih =>
    simp only [wfFrom, Bool.and_eq_true, decide_eq_true_eq] at h
    simp only [dropIf, List.filter_cons]
    split
    · simp only [wfFrom, Bool.and_eq_true, decide_eq_true_eq]; exact ⟨h.1, ih _ h.2⟩
    · exact wfFrom_mono _ (by omega) (ih _ h.2)

/-- Dropping entries keeps the canonical form. -/
theorem wf_dropIf {d : Nat → α} {m : SMap α} (p : Nat → Bool) (h : wf d m = true) : wf d (dropIf p m) = true :=
  wfFrom_dropIf p m 0 h

/-- Equal contents are equal data: canonical maps that read alike everywhere are equal. -/
theorem eq_of_get {d : Nat → α} : ∀ {lo : Nat} {m n : SMap α}, wfFrom d lo m = true → wfFrom d lo n = true →
    (∀ k, get d m k = get d n k) → m = n := by
  have low : ∀ {lo : Nat} {m : SMap α} {k : Nat}, wfFrom d lo m = true → k < lo → get d m k = d k := by
    intro lo m
    induction m generalizing lo with
    | nil => intros; rfl
    | cons e m ih =>
      intro k h hk
      simp only [wfFrom, Bool.and_eq_true, decide_eq_true_eq] at h
      have : e.1 ≠ k := by omega
      simp only [get, this, if_false]
      exact ih h.2 (by omega)
  intro lo m
  induction m generalizing lo with
  | nil =>
    intro n _ hn hg
    cases n with
    | nil => rfl
    | cons e n =>
      simp only [wfFrom, Bool.and_eq_true, decide_eq_true_eq] at hn
      exact absurd (by simpa [get] using (hg e.1).symm) hn.1.2
  | cons e m ih =>
    intro n hm hn hg
    cases n with
    | nil =>
      simp only [wfFrom, Bool.and_eq_true, decide_eq_true_eq] at hm
      exact absurd (by simpa [get] using hg e.1) hm.1.2
    | cons f n =>
      obtain ⟨i, v⟩ := e
      obtain ⟨j, w⟩ := f
      simp only [wfFrom, Bool.and_eq_true, decide_eq_true_eq] at hm hn
      have hij : i = j := by
        rcases Nat.lt_trichotomy i j with h | h | h
        · have h1 := hg i
          have hne : j ≠ i := by omega
          simp only [get, hne, if_true, if_false] at h1
          exact absurd (h1.trans (low hn.2 (by omega))) hm.1.2
        · exact h
        · have h1 := hg j
          have hne : i ≠ j := by omega
          simp only [get, hne, if_true, if_false] at h1
          exact absurd (h1.symm.trans (low hm.2 (by omega))) hn.1.2
      subst hij
      have hv : v = w := by simpa [get] using hg i
      subst hv
      congr 1
      refine ih hm.2 hn.2 fun k => ?_
      have h1 := hg k
      by_cases hk : i = k
      · subst hk; rw [low hm.2 (by omega), low hn.2 (by omega)]
      · simpa [get, hk] using h1

end
end Sys2Proof.Machine.SMap
end

