-- ==== Sys2Proof/Laws/State.lean ====
section
/-!
SUPPORT. One lemma per update of the hub: every unit it does not name stands as it was, and a unit it replaces is the new one.
Each lemma is a conjunction that simp takes apart, so no later proof unfolds a record update.
-/
namespace Sys2Proof.Machine

/-- A fold keeps what each of its steps keeps. -/
theorem foldl_keeps {α β : Type} (g : Hub → β) (f : Hub → α → Hub) (H : ∀ h a, g (f h a) = g h) (l : List α) (h : Hub) :
    g (l.foldl f h) = g h := by
  induction l generalizing h with
  | nil => rfl
  | cons a l ih => rw [List.foldl_cons, ih, H]

@[simp] theorem Hub.wr_fields (h : Hub) (p o : Nat) (v : Word) :
    (h.wr p o v).now = h.now ∧ (h.wr p o v).pins = h.pins ∧ (h.wr p o v).boot = h.boot ∧
    (h.wr p o v).latch = h.latch ∧ (h.wr p o v).ops = h.ops ∧ (h.wr p o v).mmio = h.mmio ∧
    (h.wr p o v).ports = h.ports ∧ (h.wr p o v).dports = h.dports ∧ (h.wr p o v).poolRd = h.poolRd ∧
    (h.wr p o v).poolWr = h.poolWr ∧ (h.wr p o v).lines = h.lines ∧ (h.wr p o v).tm = h.tm ∧
    (h.wr p o v).cache = h.cache ∧ (h.wr p o v).amap = h.amap ∧ (h.wr p o v).ras = h.ras ∧
    (h.wr p o v).pages = h.pages ∧ (h.wr p o v).tricks = h.tricks ∧ (h.wr p o v).pcs = h.pcs ∧
    (h.wr p o v).stk = h.stk ∧ (h.wr p o v).dma = h.dma ∧ (h.wr p o v).hmm = h.hmm ∧ (h.wr p o v).far = h.far ∧
    (h.wr p o v).sec = h.sec ∧ (h.wr p o v).journal = h.journal ∧ (h.wr p o v).therm = h.therm ∧
    (h.wr p o v).perf = h.perf ∧ (h.wr p o v).irq = h.irq ∧ (h.wr p o v).mem = h.mem ∧ (h.wr p o v).flash = h.flash := by
  simp only [Hub.wr, and_self]

@[simp] theorem Hub.setLines_fields (h : Hub) (v : Lines) :
    (h.setLines v).lines = v ∧
    (h.setLines v).now = h.now ∧ (h.setLines v).pins = h.pins ∧ (h.setLines v).boot = h.boot ∧
    (h.setLines v).regs = h.regs ∧ (h.setLines v).latch = h.latch ∧ (h.setLines v).ops = h.ops ∧
    (h.setLines v).mmio = h.mmio ∧ (h.setLines v).ports = h.ports ∧ (h.setLines v).dports = h.dports ∧
    (h.setLines v).poolRd = h.poolRd ∧ (h.setLines v).poolWr = h.poolWr ∧ (h.setLines v).tm = h.tm ∧
    (h.setLines v).cache = h.cache ∧ (h.setLines v).amap = h.amap ∧ (h.setLines v).ras = h.ras ∧
    (h.setLines v).pages = h.pages ∧ (h.setLines v).tricks = h.tricks ∧ (h.setLines v).pcs = h.pcs ∧
    (h.setLines v).stk = h.stk ∧ (h.setLines v).dma = h.dma ∧ (h.setLines v).hmm = h.hmm ∧
    (h.setLines v).far = h.far ∧ (h.setLines v).sec = h.sec ∧ (h.setLines v).journal = h.journal ∧
    (h.setLines v).therm = h.therm ∧ (h.setLines v).perf = h.perf ∧ (h.setLines v).irq = h.irq ∧
    (h.setLines v).mem = h.mem ∧ (h.setLines v).flash = h.flash := by
  simp only [Hub.setLines, and_self]

@[simp] theorem Hub.setTm_fields (h : Hub) (v : Tm) :
    (h.setTm v).tm = v ∧
    (h.setTm v).now = h.now ∧ (h.setTm v).pins = h.pins ∧ (h.setTm v).boot = h.boot ∧ (h.setTm v).regs = h.regs ∧
    (h.setTm v).latch = h.latch ∧ (h.setTm v).ops = h.ops ∧ (h.setTm v).mmio = h.mmio ∧ (h.setTm v).ports = h.ports ∧
    (h.setTm v).dports = h.dports ∧ (h.setTm v).poolRd = h.poolRd ∧ (h.setTm v).poolWr = h.poolWr ∧
    (h.setTm v).lines = h.lines ∧ (h.setTm v).cache = h.cache ∧ (h.setTm v).amap = h.amap ∧ (h.setTm v).ras = h.ras ∧
    (h.setTm v).pages = h.pages ∧ (h.setTm v).tricks = h.tricks ∧ (h.setTm v).pcs = h.pcs ∧ (h.setTm v).stk = h.stk ∧
    (h.setTm v).dma = h.dma ∧ (h.setTm v).hmm = h.hmm ∧ (h.setTm v).far = h.far ∧ (h.setTm v).sec = h.sec ∧
    (h.setTm v).journal = h.journal ∧ (h.setTm v).therm = h.therm ∧ (h.setTm v).perf = h.perf ∧
    (h.setTm v).irq = h.irq ∧ (h.setTm v).mem = h.mem ∧ (h.setTm v).flash = h.flash := by
  simp only [Hub.setTm, and_self]

@[simp] theorem Hub.setCache_fields (h : Hub) (v : Cache) :
    (h.setCache v).cache = v ∧
    (h.setCache v).now = h.now ∧ (h.setCache v).pins = h.pins ∧ (h.setCache v).boot = h.boot ∧
    (h.setCache v).regs = h.regs ∧ (h.setCache v).latch = h.latch ∧ (h.setCache v).ops = h.ops ∧
    (h.setCache v).mmio = h.mmio ∧ (h.setCache v).ports = h.ports ∧ (h.setCache v).dports = h.dports ∧
    (h.setCache v).poolRd = h.poolRd ∧ (h.setCache v).poolWr = h.poolWr ∧ (h.setCache v).lines = h.lines ∧
    (h.setCache v).tm = h.tm ∧ (h.setCache v).amap = h.amap ∧ (h.setCache v).ras = h.ras ∧
    (h.setCache v).pages = h.pages ∧ (h.setCache v).tricks = h.tricks ∧ (h.setCache v).pcs = h.pcs ∧
    (h.setCache v).stk = h.stk ∧ (h.setCache v).dma = h.dma ∧ (h.setCache v).hmm = h.hmm ∧
    (h.setCache v).far = h.far ∧ (h.setCache v).sec = h.sec ∧ (h.setCache v).journal = h.journal ∧
    (h.setCache v).therm = h.therm ∧ (h.setCache v).perf = h.perf ∧ (h.setCache v).irq = h.irq ∧
    (h.setCache v).mem = h.mem ∧ (h.setCache v).flash = h.flash := by
  simp only [Hub.setCache, and_self]

@[simp] theorem Hub.setAmap_fields (h : Hub) (v : AMap) :
    (h.setAmap v).amap = v ∧
    (h.setAmap v).now = h.now ∧ (h.setAmap v).pins = h.pins ∧ (h.setAmap v).boot = h.boot ∧
    (h.setAmap v).regs = h.regs ∧ (h.setAmap v).latch = h.latch ∧ (h.setAmap v).ops = h.ops ∧
    (h.setAmap v).mmio = h.mmio ∧ (h.setAmap v).ports = h.ports ∧ (h.setAmap v).dports = h.dports ∧
    (h.setAmap v).poolRd = h.poolRd ∧ (h.setAmap v).poolWr = h.poolWr ∧ (h.setAmap v).lines = h.lines ∧
    (h.setAmap v).tm = h.tm ∧ (h.setAmap v).cache = h.cache ∧ (h.setAmap v).ras = h.ras ∧
    (h.setAmap v).pages = h.pages ∧ (h.setAmap v).tricks = h.tricks ∧ (h.setAmap v).pcs = h.pcs ∧
    (h.setAmap v).stk = h.stk ∧ (h.setAmap v).dma = h.dma ∧ (h.setAmap v).hmm = h.hmm ∧ (h.setAmap v).far = h.far ∧
    (h.setAmap v).sec = h.sec ∧ (h.setAmap v).journal = h.journal ∧ (h.setAmap v).therm = h.therm ∧
    (h.setAmap v).perf = h.perf ∧ (h.setAmap v).irq = h.irq ∧ (h.setAmap v).mem = h.mem ∧
    (h.setAmap v).flash = h.flash := by
  simp only [Hub.setAmap, and_self]

@[simp] theorem Hub.setRas_fields (h : Hub) (v : Ras) :
    (h.setRas v).ras = v ∧
    (h.setRas v).now = h.now ∧ (h.setRas v).pins = h.pins ∧ (h.setRas v).boot = h.boot ∧ (h.setRas v).regs = h.regs ∧
    (h.setRas v).latch = h.latch ∧ (h.setRas v).ops = h.ops ∧ (h.setRas v).mmio = h.mmio ∧
    (h.setRas v).ports = h.ports ∧ (h.setRas v).dports = h.dports ∧ (h.setRas v).poolRd = h.poolRd ∧
    (h.setRas v).poolWr = h.poolWr ∧ (h.setRas v).lines = h.lines ∧ (h.setRas v).tm = h.tm ∧
    (h.setRas v).cache = h.cache ∧ (h.setRas v).amap = h.amap ∧ (h.setRas v).pages = h.pages ∧
    (h.setRas v).tricks = h.tricks ∧ (h.setRas v).pcs = h.pcs ∧ (h.setRas v).stk = h.stk ∧ (h.setRas v).dma = h.dma ∧
    (h.setRas v).hmm = h.hmm ∧ (h.setRas v).far = h.far ∧ (h.setRas v).sec = h.sec ∧
    (h.setRas v).journal = h.journal ∧ (h.setRas v).therm = h.therm ∧ (h.setRas v).perf = h.perf ∧
    (h.setRas v).irq = h.irq ∧ (h.setRas v).mem = h.mem ∧ (h.setRas v).flash = h.flash := by
  simp only [Hub.setRas, and_self]

@[simp] theorem Hub.setPages_fields (h : Hub) (v : Pages) :
    (h.setPages v).pages = v ∧
    (h.setPages v).now = h.now ∧ (h.setPages v).pins = h.pins ∧ (h.setPages v).boot = h.boot ∧
    (h.setPages v).regs = h.regs ∧ (h.setPages v).latch = h.latch ∧ (h.setPages v).ops = h.ops ∧
    (h.setPages v).mmio = h.mmio ∧ (h.setPages v).ports = h.ports ∧ (h.setPages v).dports = h.dports ∧
    (h.setPages v).poolRd = h.poolRd ∧ (h.setPages v).poolWr = h.poolWr ∧ (h.setPages v).lines = h.lines ∧
    (h.setPages v).tm = h.tm ∧ (h.setPages v).cache = h.cache ∧ (h.setPages v).amap = h.amap ∧
    (h.setPages v).ras = h.ras ∧ (h.setPages v).tricks = h.tricks ∧ (h.setPages v).pcs = h.pcs ∧
    (h.setPages v).stk = h.stk ∧ (h.setPages v).dma = h.dma ∧ (h.setPages v).hmm = h.hmm ∧
    (h.setPages v).far = h.far ∧ (h.setPages v).sec = h.sec ∧ (h.setPages v).journal = h.journal ∧
    (h.setPages v).therm = h.therm ∧ (h.setPages v).perf = h.perf ∧ (h.setPages v).irq = h.irq ∧
    (h.setPages v).mem = h.mem ∧ (h.setPages v).flash = h.flash := by
  simp only [Hub.setPages, and_self]

@[simp] theorem Hub.setFar_fields (h : Hub) (v : Far) :
    (h.setFar v).far = v ∧
    (h.setFar v).now = h.now ∧ (h.setFar v).pins = h.pins ∧ (h.setFar v).boot = h.boot ∧ (h.setFar v).regs = h.regs ∧
    (h.setFar v).latch = h.latch ∧ (h.setFar v).ops = h.ops ∧ (h.setFar v).mmio = h.mmio ∧
    (h.setFar v).ports = h.ports ∧ (h.setFar v).dports = h.dports ∧ (h.setFar v).poolRd = h.poolRd ∧
    (h.setFar v).poolWr = h.poolWr ∧ (h.setFar v).lines = h.lines ∧ (h.setFar v).tm = h.tm ∧
    (h.setFar v).cache = h.cache ∧ (h.setFar v).amap = h.amap ∧ (h.setFar v).ras = h.ras ∧
    (h.setFar v).pages = h.pages ∧ (h.setFar v).tricks = h.tricks ∧ (h.setFar v).pcs = h.pcs ∧
    (h.setFar v).stk = h.stk ∧ (h.setFar v).dma = h.dma ∧ (h.setFar v).hmm = h.hmm ∧ (h.setFar v).sec = h.sec ∧
    (h.setFar v).journal = h.journal ∧ (h.setFar v).therm = h.therm ∧ (h.setFar v).perf = h.perf ∧
    (h.setFar v).irq = h.irq ∧ (h.setFar v).mem = h.mem ∧ (h.setFar v).flash = h.flash := by
  simp only [Hub.setFar, and_self]

@[simp] theorem Hub.setSec_fields (h : Hub) (v : Sec) :
    (h.setSec v).sec = v ∧
    (h.setSec v).now = h.now ∧ (h.setSec v).pins = h.pins ∧ (h.setSec v).boot = h.boot ∧ (h.setSec v).regs = h.regs ∧
    (h.setSec v).latch = h.latch ∧ (h.setSec v).ops = h.ops ∧ (h.setSec v).mmio = h.mmio ∧
    (h.setSec v).ports = h.ports ∧ (h.setSec v).dports = h.dports ∧ (h.setSec v).poolRd = h.poolRd ∧
    (h.setSec v).poolWr = h.poolWr ∧ (h.setSec v).lines = h.lines ∧ (h.setSec v).tm = h.tm ∧
    (h.setSec v).cache = h.cache ∧ (h.setSec v).amap = h.amap ∧ (h.setSec v).ras = h.ras ∧
    (h.setSec v).pages = h.pages ∧ (h.setSec v).tricks = h.tricks ∧ (h.setSec v).pcs = h.pcs ∧
    (h.setSec v).stk = h.stk ∧ (h.setSec v).dma = h.dma ∧ (h.setSec v).hmm = h.hmm ∧ (h.setSec v).far = h.far ∧
    (h.setSec v).journal = h.journal ∧ (h.setSec v).therm = h.therm ∧ (h.setSec v).perf = h.perf ∧
    (h.setSec v).irq = h.irq ∧ (h.setSec v).mem = h.mem ∧ (h.setSec v).flash = h.flash := by
  simp only [Hub.setSec, and_self]

@[simp] theorem Hub.setJournal_fields (h : Hub) (v : Journal) :
    (h.setJournal v).journal = v ∧
    (h.setJournal v).now = h.now ∧ (h.setJournal v).pins = h.pins ∧ (h.setJournal v).boot = h.boot ∧
    (h.setJournal v).regs = h.regs ∧ (h.setJournal v).latch = h.latch ∧ (h.setJournal v).ops = h.ops ∧
    (h.setJournal v).mmio = h.mmio ∧ (h.setJournal v).ports = h.ports ∧ (h.setJournal v).dports = h.dports ∧
    (h.setJournal v).poolRd = h.poolRd ∧ (h.setJournal v).poolWr = h.poolWr ∧ (h.setJournal v).lines = h.lines ∧
    (h.setJournal v).tm = h.tm ∧ (h.setJournal v).cache = h.cache ∧ (h.setJournal v).amap = h.amap ∧
    (h.setJournal v).ras = h.ras ∧ (h.setJournal v).pages = h.pages ∧ (h.setJournal v).tricks = h.tricks ∧
    (h.setJournal v).pcs = h.pcs ∧ (h.setJournal v).stk = h.stk ∧ (h.setJournal v).dma = h.dma ∧
    (h.setJournal v).hmm = h.hmm ∧ (h.setJournal v).far = h.far ∧ (h.setJournal v).sec = h.sec ∧
    (h.setJournal v).therm = h.therm ∧ (h.setJournal v).perf = h.perf ∧ (h.setJournal v).irq = h.irq ∧
    (h.setJournal v).mem = h.mem ∧ (h.setJournal v).flash = h.flash := by
  simp only [Hub.setJournal, and_self]

@[simp] theorem Hub.setTherm_fields (h : Hub) (v : Therm) :
    (h.setTherm v).therm = v ∧
    (h.setTherm v).now = h.now ∧ (h.setTherm v).pins = h.pins ∧ (h.setTherm v).boot = h.boot ∧
    (h.setTherm v).regs = h.regs ∧ (h.setTherm v).latch = h.latch ∧ (h.setTherm v).ops = h.ops ∧
    (h.setTherm v).mmio = h.mmio ∧ (h.setTherm v).ports = h.ports ∧ (h.setTherm v).dports = h.dports ∧
    (h.setTherm v).poolRd = h.poolRd ∧ (h.setTherm v).poolWr = h.poolWr ∧ (h.setTherm v).lines = h.lines ∧
    (h.setTherm v).tm = h.tm ∧ (h.setTherm v).cache = h.cache ∧ (h.setTherm v).amap = h.amap ∧
    (h.setTherm v).ras = h.ras ∧ (h.setTherm v).pages = h.pages ∧ (h.setTherm v).tricks = h.tricks ∧
    (h.setTherm v).pcs = h.pcs ∧ (h.setTherm v).stk = h.stk ∧ (h.setTherm v).dma = h.dma ∧
    (h.setTherm v).hmm = h.hmm ∧ (h.setTherm v).far = h.far ∧ (h.setTherm v).sec = h.sec ∧
    (h.setTherm v).journal = h.journal ∧ (h.setTherm v).perf = h.perf ∧ (h.setTherm v).irq = h.irq ∧
    (h.setTherm v).mem = h.mem ∧ (h.setTherm v).flash = h.flash := by
  simp only [Hub.setTherm, and_self]

@[simp] theorem Hub.setPerf_fields (h : Hub) (v : Perf) :
    (h.setPerf v).perf = v ∧
    (h.setPerf v).now = h.now ∧ (h.setPerf v).pins = h.pins ∧ (h.setPerf v).boot = h.boot ∧
    (h.setPerf v).regs = h.regs ∧ (h.setPerf v).latch = h.latch ∧ (h.setPerf v).ops = h.ops ∧
    (h.setPerf v).mmio = h.mmio ∧ (h.setPerf v).ports = h.ports ∧ (h.setPerf v).dports = h.dports ∧
    (h.setPerf v).poolRd = h.poolRd ∧ (h.setPerf v).poolWr = h.poolWr ∧ (h.setPerf v).lines = h.lines ∧
    (h.setPerf v).tm = h.tm ∧ (h.setPerf v).cache = h.cache ∧ (h.setPerf v).amap = h.amap ∧
    (h.setPerf v).ras = h.ras ∧ (h.setPerf v).pages = h.pages ∧ (h.setPerf v).tricks = h.tricks ∧
    (h.setPerf v).pcs = h.pcs ∧ (h.setPerf v).stk = h.stk ∧ (h.setPerf v).dma = h.dma ∧ (h.setPerf v).hmm = h.hmm ∧
    (h.setPerf v).far = h.far ∧ (h.setPerf v).sec = h.sec ∧ (h.setPerf v).journal = h.journal ∧
    (h.setPerf v).therm = h.therm ∧ (h.setPerf v).irq = h.irq ∧ (h.setPerf v).mem = h.mem ∧
    (h.setPerf v).flash = h.flash := by
  simp only [Hub.setPerf, and_self]

@[simp] theorem Hub.setIrq_fields (h : Hub) (v : Irq) :
    (h.setIrq v).irq = v ∧
    (h.setIrq v).now = h.now ∧ (h.setIrq v).pins = h.pins ∧ (h.setIrq v).boot = h.boot ∧ (h.setIrq v).regs = h.regs ∧
    (h.setIrq v).latch = h.latch ∧ (h.setIrq v).ops = h.ops ∧ (h.setIrq v).mmio = h.mmio ∧
    (h.setIrq v).ports = h.ports ∧ (h.setIrq v).dports = h.dports ∧ (h.setIrq v).poolRd = h.poolRd ∧
    (h.setIrq v).poolWr = h.poolWr ∧ (h.setIrq v).lines = h.lines ∧ (h.setIrq v).tm = h.tm ∧
    (h.setIrq v).cache = h.cache ∧ (h.setIrq v).amap = h.amap ∧ (h.setIrq v).ras = h.ras ∧
    (h.setIrq v).pages = h.pages ∧ (h.setIrq v).tricks = h.tricks ∧ (h.setIrq v).pcs = h.pcs ∧
    (h.setIrq v).stk = h.stk ∧ (h.setIrq v).dma = h.dma ∧ (h.setIrq v).hmm = h.hmm ∧ (h.setIrq v).far = h.far ∧
    (h.setIrq v).sec = h.sec ∧ (h.setIrq v).journal = h.journal ∧ (h.setIrq v).therm = h.therm ∧
    (h.setIrq v).perf = h.perf ∧ (h.setIrq v).mem = h.mem ∧ (h.setIrq v).flash = h.flash := by
  simp only [Hub.setIrq, and_self]

@[simp] theorem Hub.setBoot_fields (h : Hub) (v : Boot) :
    (h.setBoot v).boot = v ∧
    (h.setBoot v).now = h.now ∧ (h.setBoot v).pins = h.pins ∧ (h.setBoot v).regs = h.regs ∧
    (h.setBoot v).latch = h.latch ∧ (h.setBoot v).ops = h.ops ∧ (h.setBoot v).mmio = h.mmio ∧
    (h.setBoot v).ports = h.ports ∧ (h.setBoot v).dports = h.dports ∧ (h.setBoot v).poolRd = h.poolRd ∧
    (h.setBoot v).poolWr = h.poolWr ∧ (h.setBoot v).lines = h.lines ∧ (h.setBoot v).tm = h.tm ∧
    (h.setBoot v).cache = h.cache ∧ (h.setBoot v).amap = h.amap ∧ (h.setBoot v).ras = h.ras ∧
    (h.setBoot v).pages = h.pages ∧ (h.setBoot v).tricks = h.tricks ∧ (h.setBoot v).pcs = h.pcs ∧
    (h.setBoot v).stk = h.stk ∧ (h.setBoot v).dma = h.dma ∧ (h.setBoot v).hmm = h.hmm ∧ (h.setBoot v).far = h.far ∧
    (h.setBoot v).sec = h.sec ∧ (h.setBoot v).journal = h.journal ∧ (h.setBoot v).therm = h.therm ∧
    (h.setBoot v).perf = h.perf ∧ (h.setBoot v).irq = h.irq ∧ (h.setBoot v).mem = h.mem ∧
    (h.setBoot v).flash = h.flash := by
  simp only [Hub.setBoot, and_self]

@[simp] theorem Hub.setPins_fields (h : Hub) (v : Pins) :
    (h.setPins v).pins = v ∧
    (h.setPins v).now = h.now ∧ (h.setPins v).boot = h.boot ∧ (h.setPins v).regs = h.regs ∧
    (h.setPins v).latch = h.latch ∧ (h.setPins v).ops = h.ops ∧ (h.setPins v).mmio = h.mmio ∧
    (h.setPins v).ports = h.ports ∧ (h.setPins v).dports = h.dports ∧ (h.setPins v).poolRd = h.poolRd ∧
    (h.setPins v).poolWr = h.poolWr ∧ (h.setPins v).lines = h.lines ∧ (h.setPins v).tm = h.tm ∧
    (h.setPins v).cache = h.cache ∧ (h.setPins v).amap = h.amap ∧ (h.setPins v).ras = h.ras ∧
    (h.setPins v).pages = h.pages ∧ (h.setPins v).tricks = h.tricks ∧ (h.setPins v).pcs = h.pcs ∧
    (h.setPins v).stk = h.stk ∧ (h.setPins v).dma = h.dma ∧ (h.setPins v).hmm = h.hmm ∧ (h.setPins v).far = h.far ∧
    (h.setPins v).sec = h.sec ∧ (h.setPins v).journal = h.journal ∧ (h.setPins v).therm = h.therm ∧
    (h.setPins v).perf = h.perf ∧ (h.setPins v).irq = h.irq ∧ (h.setPins v).mem = h.mem ∧
    (h.setPins v).flash = h.flash := by
  simp only [Hub.setPins, and_self]

@[simp] theorem Hub.putPort_fields (h : Hub) (p : Nat) (v : Port) :
    (h.putPort p v).now = h.now ∧ (h.putPort p v).pins = h.pins ∧ (h.putPort p v).boot = h.boot ∧
    (h.putPort p v).regs = h.regs ∧ (h.putPort p v).latch = h.latch ∧ (h.putPort p v).ops = h.ops ∧
    (h.putPort p v).mmio = h.mmio ∧ (h.putPort p v).dports = h.dports ∧ (h.putPort p v).poolRd = h.poolRd ∧
    (h.putPort p v).poolWr = h.poolWr ∧ (h.putPort p v).lines = h.lines ∧ (h.putPort p v).tm = h.tm ∧
    (h.putPort p v).cache = h.cache ∧ (h.putPort p v).amap = h.amap ∧ (h.putPort p v).ras = h.ras ∧
    (h.putPort p v).pages = h.pages ∧ (h.putPort p v).tricks = h.tricks ∧ (h.putPort p v).pcs = h.pcs ∧
    (h.putPort p v).stk = h.stk ∧ (h.putPort p v).dma = h.dma ∧ (h.putPort p v).hmm = h.hmm ∧
    (h.putPort p v).far = h.far ∧ (h.putPort p v).sec = h.sec ∧ (h.putPort p v).journal = h.journal ∧
    (h.putPort p v).therm = h.therm ∧ (h.putPort p v).perf = h.perf ∧ (h.putPort p v).irq = h.irq ∧
    (h.putPort p v).mem = h.mem ∧ (h.putPort p v).flash = h.flash := by
  simp only [Hub.putPort, and_self]

@[simp] theorem Hub.putDport_fields (h : Hub) (c : Nat) (v : Port) :
    (h.putDport c v).now = h.now ∧ (h.putDport c v).pins = h.pins ∧ (h.putDport c v).boot = h.boot ∧
    (h.putDport c v).regs = h.regs ∧ (h.putDport c v).latch = h.latch ∧ (h.putDport c v).ops = h.ops ∧
    (h.putDport c v).mmio = h.mmio ∧ (h.putDport c v).ports = h.ports ∧ (h.putDport c v).poolRd = h.poolRd ∧
    (h.putDport c v).poolWr = h.poolWr ∧ (h.putDport c v).lines = h.lines ∧ (h.putDport c v).tm = h.tm ∧
    (h.putDport c v).cache = h.cache ∧ (h.putDport c v).amap = h.amap ∧ (h.putDport c v).ras = h.ras ∧
    (h.putDport c v).pages = h.pages ∧ (h.putDport c v).tricks = h.tricks ∧ (h.putDport c v).pcs = h.pcs ∧
    (h.putDport c v).stk = h.stk ∧ (h.putDport c v).dma = h.dma ∧ (h.putDport c v).hmm = h.hmm ∧
    (h.putDport c v).far = h.far ∧ (h.putDport c v).sec = h.sec ∧ (h.putDport c v).journal = h.journal ∧
    (h.putDport c v).therm = h.therm ∧ (h.putDport c v).perf = h.perf ∧ (h.putDport c v).irq = h.irq ∧
    (h.putDport c v).mem = h.mem ∧ (h.putDport c v).flash = h.flash := by
  simp only [Hub.putDport, and_self]

@[simp] theorem Hub.putPolicer_fields (h : Hub) (k : Nat) (v : Policer) :
    (h.putPolicer k v).now = h.now ∧ (h.putPolicer k v).pins = h.pins ∧ (h.putPolicer k v).boot = h.boot ∧
    (h.putPolicer k v).regs = h.regs ∧ (h.putPolicer k v).latch = h.latch ∧ (h.putPolicer k v).ops = h.ops ∧
    (h.putPolicer k v).mmio = h.mmio ∧ (h.putPolicer k v).ports = h.ports ∧ (h.putPolicer k v).dports = h.dports ∧
    (h.putPolicer k v).poolRd = h.poolRd ∧ (h.putPolicer k v).poolWr = h.poolWr ∧
    (h.putPolicer k v).lines = h.lines ∧ (h.putPolicer k v).cache = h.cache ∧ (h.putPolicer k v).amap = h.amap ∧
    (h.putPolicer k v).ras = h.ras ∧ (h.putPolicer k v).pages = h.pages ∧ (h.putPolicer k v).tricks = h.tricks ∧
    (h.putPolicer k v).pcs = h.pcs ∧ (h.putPolicer k v).stk = h.stk ∧ (h.putPolicer k v).dma = h.dma ∧
    (h.putPolicer k v).hmm = h.hmm ∧ (h.putPolicer k v).far = h.far ∧ (h.putPolicer k v).sec = h.sec ∧
    (h.putPolicer k v).journal = h.journal ∧ (h.putPolicer k v).therm = h.therm ∧ (h.putPolicer k v).perf = h.perf ∧
    (h.putPolicer k v).irq = h.irq ∧ (h.putPolicer k v).mem = h.mem ∧ (h.putPolicer k v).flash = h.flash := by
  simp only [Hub.putPolicer, and_self]

@[simp] theorem Hub.putShaper_fields (h : Hub) (k : Nat) (v : Shaper) :
    (h.putShaper k v).now = h.now ∧ (h.putShaper k v).pins = h.pins ∧ (h.putShaper k v).boot = h.boot ∧
    (h.putShaper k v).regs = h.regs ∧ (h.putShaper k v).latch = h.latch ∧ (h.putShaper k v).ops = h.ops ∧
    (h.putShaper k v).mmio = h.mmio ∧ (h.putShaper k v).ports = h.ports ∧ (h.putShaper k v).dports = h.dports ∧
    (h.putShaper k v).poolRd = h.poolRd ∧ (h.putShaper k v).poolWr = h.poolWr ∧ (h.putShaper k v).lines = h.lines ∧
    (h.putShaper k v).cache = h.cache ∧ (h.putShaper k v).amap = h.amap ∧ (h.putShaper k v).ras = h.ras ∧
    (h.putShaper k v).pages = h.pages ∧ (h.putShaper k v).tricks = h.tricks ∧ (h.putShaper k v).pcs = h.pcs ∧
    (h.putShaper k v).stk = h.stk ∧ (h.putShaper k v).dma = h.dma ∧ (h.putShaper k v).hmm = h.hmm ∧
    (h.putShaper k v).far = h.far ∧ (h.putShaper k v).sec = h.sec ∧ (h.putShaper k v).journal = h.journal ∧
    (h.putShaper k v).therm = h.therm ∧ (h.putShaper k v).perf = h.perf ∧ (h.putShaper k v).irq = h.irq ∧
    (h.putShaper k v).mem = h.mem ∧ (h.putShaper k v).flash = h.flash := by
  simp only [Hub.putShaper, and_self]

@[simp] theorem Hub.putGframe_fields (h : Hub) (k : Nat) (v : GFrame) :
    (h.putGframe k v).now = h.now ∧ (h.putGframe k v).pins = h.pins ∧ (h.putGframe k v).boot = h.boot ∧
    (h.putGframe k v).regs = h.regs ∧ (h.putGframe k v).latch = h.latch ∧ (h.putGframe k v).ops = h.ops ∧
    (h.putGframe k v).mmio = h.mmio ∧ (h.putGframe k v).ports = h.ports ∧ (h.putGframe k v).dports = h.dports ∧
    (h.putGframe k v).poolRd = h.poolRd ∧ (h.putGframe k v).poolWr = h.poolWr ∧ (h.putGframe k v).lines = h.lines ∧
    (h.putGframe k v).cache = h.cache ∧ (h.putGframe k v).amap = h.amap ∧ (h.putGframe k v).ras = h.ras ∧
    (h.putGframe k v).pages = h.pages ∧ (h.putGframe k v).tricks = h.tricks ∧ (h.putGframe k v).pcs = h.pcs ∧
    (h.putGframe k v).stk = h.stk ∧ (h.putGframe k v).dma = h.dma ∧ (h.putGframe k v).hmm = h.hmm ∧
    (h.putGframe k v).far = h.far ∧ (h.putGframe k v).sec = h.sec ∧ (h.putGframe k v).journal = h.journal ∧
    (h.putGframe k v).therm = h.therm ∧ (h.putGframe k v).perf = h.perf ∧ (h.putGframe k v).irq = h.irq ∧
    (h.putGframe k v).mem = h.mem ∧ (h.putGframe k v).flash = h.flash := by
  simp only [Hub.putGframe, and_self]

@[simp] theorem Hub.putGate_fields (h : Hub) (l : Nat) (v : GateList) :
    (h.putGate l v).now = h.now ∧ (h.putGate l v).pins = h.pins ∧ (h.putGate l v).boot = h.boot ∧
    (h.putGate l v).regs = h.regs ∧ (h.putGate l v).latch = h.latch ∧ (h.putGate l v).ops = h.ops ∧
    (h.putGate l v).mmio = h.mmio ∧ (h.putGate l v).ports = h.ports ∧ (h.putGate l v).dports = h.dports ∧
    (h.putGate l v).poolRd = h.poolRd ∧ (h.putGate l v).poolWr = h.poolWr ∧ (h.putGate l v).lines = h.lines ∧
    (h.putGate l v).cache = h.cache ∧ (h.putGate l v).amap = h.amap ∧ (h.putGate l v).ras = h.ras ∧
    (h.putGate l v).pages = h.pages ∧ (h.putGate l v).tricks = h.tricks ∧ (h.putGate l v).pcs = h.pcs ∧
    (h.putGate l v).stk = h.stk ∧ (h.putGate l v).dma = h.dma ∧ (h.putGate l v).hmm = h.hmm ∧
    (h.putGate l v).far = h.far ∧ (h.putGate l v).sec = h.sec ∧ (h.putGate l v).journal = h.journal ∧
    (h.putGate l v).therm = h.therm ∧ (h.putGate l v).perf = h.perf ∧ (h.putGate l v).irq = h.irq ∧
    (h.putGate l v).mem = h.mem ∧ (h.putGate l v).flash = h.flash := by
  simp only [Hub.putGate, and_self]

@[simp] theorem Hub.putWay_fields (h : Hub) (k : Nat) (v : Way) :
    (h.putWay k v).now = h.now ∧ (h.putWay k v).pins = h.pins ∧ (h.putWay k v).boot = h.boot ∧
    (h.putWay k v).regs = h.regs ∧ (h.putWay k v).latch = h.latch ∧ (h.putWay k v).ops = h.ops ∧
    (h.putWay k v).mmio = h.mmio ∧ (h.putWay k v).ports = h.ports ∧ (h.putWay k v).dports = h.dports ∧
    (h.putWay k v).poolRd = h.poolRd ∧ (h.putWay k v).poolWr = h.poolWr ∧ (h.putWay k v).lines = h.lines ∧
    (h.putWay k v).tm = h.tm ∧ (h.putWay k v).amap = h.amap ∧ (h.putWay k v).ras = h.ras ∧
    (h.putWay k v).pages = h.pages ∧ (h.putWay k v).tricks = h.tricks ∧ (h.putWay k v).pcs = h.pcs ∧
    (h.putWay k v).stk = h.stk ∧ (h.putWay k v).dma = h.dma ∧ (h.putWay k v).hmm = h.hmm ∧
    (h.putWay k v).far = h.far ∧ (h.putWay k v).sec = h.sec ∧ (h.putWay k v).journal = h.journal ∧
    (h.putWay k v).therm = h.therm ∧ (h.putWay k v).perf = h.perf ∧ (h.putWay k v).irq = h.irq ∧
    (h.putWay k v).mem = h.mem ∧ (h.putWay k v).flash = h.flash := by
  simp only [Hub.putWay, and_self]

@[simp] theorem Hub.putPslab_fields (h : Hub) (k : Nat) (v : PSlab) :
    (h.putPslab k v).now = h.now ∧ (h.putPslab k v).pins = h.pins ∧ (h.putPslab k v).boot = h.boot ∧
    (h.putPslab k v).regs = h.regs ∧ (h.putPslab k v).latch = h.latch ∧ (h.putPslab k v).ops = h.ops ∧
    (h.putPslab k v).mmio = h.mmio ∧ (h.putPslab k v).ports = h.ports ∧ (h.putPslab k v).dports = h.dports ∧
    (h.putPslab k v).poolRd = h.poolRd ∧ (h.putPslab k v).poolWr = h.poolWr ∧ (h.putPslab k v).lines = h.lines ∧
    (h.putPslab k v).tm = h.tm ∧ (h.putPslab k v).cache = h.cache ∧ (h.putPslab k v).ras = h.ras ∧
    (h.putPslab k v).pages = h.pages ∧ (h.putPslab k v).tricks = h.tricks ∧ (h.putPslab k v).pcs = h.pcs ∧
    (h.putPslab k v).stk = h.stk ∧ (h.putPslab k v).dma = h.dma ∧ (h.putPslab k v).hmm = h.hmm ∧
    (h.putPslab k v).far = h.far ∧ (h.putPslab k v).sec = h.sec ∧ (h.putPslab k v).journal = h.journal ∧
    (h.putPslab k v).therm = h.therm ∧ (h.putPslab k v).perf = h.perf ∧ (h.putPslab k v).irq = h.irq ∧
    (h.putPslab k v).mem = h.mem ∧ (h.putPslab k v).flash = h.flash := by
  simp only [Hub.putPslab, and_self]

@[simp] theorem Hub.putLslab_fields (h : Hub) (k : Nat) (v : LSlab) :
    (h.putLslab k v).now = h.now ∧ (h.putLslab k v).pins = h.pins ∧ (h.putLslab k v).boot = h.boot ∧
    (h.putLslab k v).regs = h.regs ∧ (h.putLslab k v).latch = h.latch ∧ (h.putLslab k v).ops = h.ops ∧
    (h.putLslab k v).mmio = h.mmio ∧ (h.putLslab k v).ports = h.ports ∧ (h.putLslab k v).dports = h.dports ∧
    (h.putLslab k v).poolRd = h.poolRd ∧ (h.putLslab k v).poolWr = h.poolWr ∧ (h.putLslab k v).lines = h.lines ∧
    (h.putLslab k v).tm = h.tm ∧ (h.putLslab k v).cache = h.cache ∧ (h.putLslab k v).ras = h.ras ∧
    (h.putLslab k v).pages = h.pages ∧ (h.putLslab k v).tricks = h.tricks ∧ (h.putLslab k v).pcs = h.pcs ∧
    (h.putLslab k v).stk = h.stk ∧ (h.putLslab k v).dma = h.dma ∧ (h.putLslab k v).hmm = h.hmm ∧
    (h.putLslab k v).far = h.far ∧ (h.putLslab k v).sec = h.sec ∧ (h.putLslab k v).journal = h.journal ∧
    (h.putLslab k v).therm = h.therm ∧ (h.putLslab k v).perf = h.perf ∧ (h.putLslab k v).irq = h.irq ∧
    (h.putLslab k v).mem = h.mem ∧ (h.putLslab k v).flash = h.flash := by
  simp only [Hub.putLslab, and_self]

@[simp] theorem Hub.putPart_fields (h : Hub) (p : Nat) (v : PartCfg) :
    (h.putPart p v).now = h.now ∧ (h.putPart p v).pins = h.pins ∧ (h.putPart p v).boot = h.boot ∧
    (h.putPart p v).regs = h.regs ∧ (h.putPart p v).latch = h.latch ∧ (h.putPart p v).ops = h.ops ∧
    (h.putPart p v).mmio = h.mmio ∧ (h.putPart p v).ports = h.ports ∧ (h.putPart p v).dports = h.dports ∧
    (h.putPart p v).poolRd = h.poolRd ∧ (h.putPart p v).poolWr = h.poolWr ∧ (h.putPart p v).lines = h.lines ∧
    (h.putPart p v).tm = h.tm ∧ (h.putPart p v).cache = h.cache ∧ (h.putPart p v).ras = h.ras ∧
    (h.putPart p v).pages = h.pages ∧ (h.putPart p v).tricks = h.tricks ∧ (h.putPart p v).pcs = h.pcs ∧
    (h.putPart p v).stk = h.stk ∧ (h.putPart p v).dma = h.dma ∧ (h.putPart p v).hmm = h.hmm ∧
    (h.putPart p v).far = h.far ∧ (h.putPart p v).sec = h.sec ∧ (h.putPart p v).journal = h.journal ∧
    (h.putPart p v).therm = h.therm ∧ (h.putPart p v).perf = h.perf ∧ (h.putPart p v).irq = h.irq ∧
    (h.putPart p v).mem = h.mem ∧ (h.putPart p v).flash = h.flash := by
  simp only [Hub.putPart, and_self]

@[simp] theorem Hub.putTrick_fields (h : Hub) (i : Nat) (v : Trick) :
    (h.putTrick i v).now = h.now ∧ (h.putTrick i v).pins = h.pins ∧ (h.putTrick i v).boot = h.boot ∧
    (h.putTrick i v).regs = h.regs ∧ (h.putTrick i v).latch = h.latch ∧ (h.putTrick i v).ops = h.ops ∧
    (h.putTrick i v).mmio = h.mmio ∧ (h.putTrick i v).ports = h.ports ∧ (h.putTrick i v).dports = h.dports ∧
    (h.putTrick i v).poolRd = h.poolRd ∧ (h.putTrick i v).poolWr = h.poolWr ∧ (h.putTrick i v).lines = h.lines ∧
    (h.putTrick i v).tm = h.tm ∧ (h.putTrick i v).cache = h.cache ∧ (h.putTrick i v).amap = h.amap ∧
    (h.putTrick i v).ras = h.ras ∧ (h.putTrick i v).pages = h.pages ∧ (h.putTrick i v).pcs = h.pcs ∧
    (h.putTrick i v).stk = h.stk ∧ (h.putTrick i v).dma = h.dma ∧ (h.putTrick i v).hmm = h.hmm ∧
    (h.putTrick i v).far = h.far ∧ (h.putTrick i v).sec = h.sec ∧ (h.putTrick i v).journal = h.journal ∧
    (h.putTrick i v).therm = h.therm ∧ (h.putTrick i v).perf = h.perf ∧ (h.putTrick i v).irq = h.irq ∧
    (h.putTrick i v).mem = h.mem ∧ (h.putTrick i v).flash = h.flash := by
  simp only [Hub.putTrick, and_self]

@[simp] theorem Hub.putPc_fields (h : Hub) (i : Nat) (v : Pc) :
    (h.putPc i v).now = h.now ∧ (h.putPc i v).pins = h.pins ∧ (h.putPc i v).boot = h.boot ∧
    (h.putPc i v).regs = h.regs ∧ (h.putPc i v).latch = h.latch ∧ (h.putPc i v).ops = h.ops ∧
    (h.putPc i v).mmio = h.mmio ∧ (h.putPc i v).ports = h.ports ∧ (h.putPc i v).dports = h.dports ∧
    (h.putPc i v).poolRd = h.poolRd ∧ (h.putPc i v).poolWr = h.poolWr ∧ (h.putPc i v).lines = h.lines ∧
    (h.putPc i v).tm = h.tm ∧ (h.putPc i v).cache = h.cache ∧ (h.putPc i v).amap = h.amap ∧
    (h.putPc i v).ras = h.ras ∧ (h.putPc i v).pages = h.pages ∧ (h.putPc i v).tricks = h.tricks ∧
    (h.putPc i v).stk = h.stk ∧ (h.putPc i v).dma = h.dma ∧ (h.putPc i v).hmm = h.hmm ∧ (h.putPc i v).far = h.far ∧
    (h.putPc i v).sec = h.sec ∧ (h.putPc i v).journal = h.journal ∧ (h.putPc i v).therm = h.therm ∧
    (h.putPc i v).perf = h.perf ∧ (h.putPc i v).irq = h.irq ∧ (h.putPc i v).mem = h.mem ∧
    (h.putPc i v).flash = h.flash := by
  simp only [Hub.putPc, and_self]

@[simp] theorem Hub.putStack_fields (h : Hub) (i : Nat) (v : Stack) :
    (h.putStack i v).now = h.now ∧ (h.putStack i v).pins = h.pins ∧ (h.putStack i v).boot = h.boot ∧
    (h.putStack i v).regs = h.regs ∧ (h.putStack i v).latch = h.latch ∧ (h.putStack i v).ops = h.ops ∧
    (h.putStack i v).mmio = h.mmio ∧ (h.putStack i v).ports = h.ports ∧ (h.putStack i v).dports = h.dports ∧
    (h.putStack i v).poolRd = h.poolRd ∧ (h.putStack i v).poolWr = h.poolWr ∧ (h.putStack i v).lines = h.lines ∧
    (h.putStack i v).tm = h.tm ∧ (h.putStack i v).cache = h.cache ∧ (h.putStack i v).amap = h.amap ∧
    (h.putStack i v).ras = h.ras ∧ (h.putStack i v).pages = h.pages ∧ (h.putStack i v).tricks = h.tricks ∧
    (h.putStack i v).pcs = h.pcs ∧ (h.putStack i v).dma = h.dma ∧ (h.putStack i v).hmm = h.hmm ∧
    (h.putStack i v).far = h.far ∧ (h.putStack i v).sec = h.sec ∧ (h.putStack i v).journal = h.journal ∧
    (h.putStack i v).therm = h.therm ∧ (h.putStack i v).perf = h.perf ∧ (h.putStack i v).irq = h.irq ∧
    (h.putStack i v).mem = h.mem ∧ (h.putStack i v).flash = h.flash := by
  simp only [Hub.putStack, and_self]

@[simp] theorem Hub.putDma_fields (h : Hub) (i : Nat) (v : Dma) :
    (h.putDma i v).now = h.now ∧ (h.putDma i v).pins = h.pins ∧ (h.putDma i v).boot = h.boot ∧
    (h.putDma i v).regs = h.regs ∧ (h.putDma i v).latch = h.latch ∧ (h.putDma i v).ops = h.ops ∧
    (h.putDma i v).mmio = h.mmio ∧ (h.putDma i v).ports = h.ports ∧ (h.putDma i v).dports = h.dports ∧
    (h.putDma i v).poolRd = h.poolRd ∧ (h.putDma i v).poolWr = h.poolWr ∧ (h.putDma i v).lines = h.lines ∧
    (h.putDma i v).tm = h.tm ∧ (h.putDma i v).cache = h.cache ∧ (h.putDma i v).amap = h.amap ∧
    (h.putDma i v).ras = h.ras ∧ (h.putDma i v).pages = h.pages ∧ (h.putDma i v).tricks = h.tricks ∧
    (h.putDma i v).pcs = h.pcs ∧ (h.putDma i v).stk = h.stk ∧ (h.putDma i v).hmm = h.hmm ∧
    (h.putDma i v).far = h.far ∧ (h.putDma i v).sec = h.sec ∧ (h.putDma i v).journal = h.journal ∧
    (h.putDma i v).therm = h.therm ∧ (h.putDma i v).perf = h.perf ∧ (h.putDma i v).irq = h.irq ∧
    (h.putDma i v).mem = h.mem ∧ (h.putDma i v).flash = h.flash := by
  simp only [Hub.putDma, and_self]

@[simp] theorem Hub.putHmm_fields (h : Hub) (i : Nat) (v : Hmm) :
    (h.putHmm i v).now = h.now ∧ (h.putHmm i v).pins = h.pins ∧ (h.putHmm i v).boot = h.boot ∧
    (h.putHmm i v).regs = h.regs ∧ (h.putHmm i v).latch = h.latch ∧ (h.putHmm i v).ops = h.ops ∧
    (h.putHmm i v).mmio = h.mmio ∧ (h.putHmm i v).ports = h.ports ∧ (h.putHmm i v).dports = h.dports ∧
    (h.putHmm i v).poolRd = h.poolRd ∧ (h.putHmm i v).poolWr = h.poolWr ∧ (h.putHmm i v).lines = h.lines ∧
    (h.putHmm i v).tm = h.tm ∧ (h.putHmm i v).cache = h.cache ∧ (h.putHmm i v).amap = h.amap ∧
    (h.putHmm i v).ras = h.ras ∧ (h.putHmm i v).pages = h.pages ∧ (h.putHmm i v).tricks = h.tricks ∧
    (h.putHmm i v).pcs = h.pcs ∧ (h.putHmm i v).stk = h.stk ∧ (h.putHmm i v).dma = h.dma ∧
    (h.putHmm i v).far = h.far ∧ (h.putHmm i v).sec = h.sec ∧ (h.putHmm i v).journal = h.journal ∧
    (h.putHmm i v).therm = h.therm ∧ (h.putHmm i v).perf = h.perf ∧ (h.putHmm i v).irq = h.irq ∧
    (h.putHmm i v).mem = h.mem ∧ (h.putHmm i v).flash = h.flash := by
  simp only [Hub.putHmm, and_self]

@[simp] theorem Hub.putFarPort_fields (h : Hub) (i : Nat) (v : FarPort) :
    (h.putFarPort i v).now = h.now ∧ (h.putFarPort i v).pins = h.pins ∧ (h.putFarPort i v).boot = h.boot ∧
    (h.putFarPort i v).regs = h.regs ∧ (h.putFarPort i v).latch = h.latch ∧ (h.putFarPort i v).ops = h.ops ∧
    (h.putFarPort i v).mmio = h.mmio ∧ (h.putFarPort i v).ports = h.ports ∧ (h.putFarPort i v).dports = h.dports ∧
    (h.putFarPort i v).poolRd = h.poolRd ∧ (h.putFarPort i v).poolWr = h.poolWr ∧
    (h.putFarPort i v).lines = h.lines ∧ (h.putFarPort i v).tm = h.tm ∧ (h.putFarPort i v).cache = h.cache ∧
    (h.putFarPort i v).amap = h.amap ∧ (h.putFarPort i v).ras = h.ras ∧ (h.putFarPort i v).pages = h.pages ∧
    (h.putFarPort i v).tricks = h.tricks ∧ (h.putFarPort i v).pcs = h.pcs ∧ (h.putFarPort i v).stk = h.stk ∧
    (h.putFarPort i v).dma = h.dma ∧ (h.putFarPort i v).hmm = h.hmm ∧ (h.putFarPort i v).sec = h.sec ∧
    (h.putFarPort i v).journal = h.journal ∧ (h.putFarPort i v).therm = h.therm ∧ (h.putFarPort i v).perf = h.perf ∧
    (h.putFarPort i v).irq = h.irq ∧ (h.putFarPort i v).mem = h.mem ∧ (h.putFarPort i v).flash = h.flash := by
  simp only [Hub.putFarPort, and_self]

@[simp] theorem Hub.putPair_fields (h : Hub) (i : Nat) (v : Pair) :
    (h.putPair i v).now = h.now ∧ (h.putPair i v).pins = h.pins ∧ (h.putPair i v).boot = h.boot ∧
    (h.putPair i v).regs = h.regs ∧ (h.putPair i v).latch = h.latch ∧ (h.putPair i v).ops = h.ops ∧
    (h.putPair i v).mmio = h.mmio ∧ (h.putPair i v).ports = h.ports ∧ (h.putPair i v).dports = h.dports ∧
    (h.putPair i v).poolRd = h.poolRd ∧ (h.putPair i v).poolWr = h.poolWr ∧ (h.putPair i v).lines = h.lines ∧
    (h.putPair i v).tm = h.tm ∧ (h.putPair i v).cache = h.cache ∧ (h.putPair i v).amap = h.amap ∧
    (h.putPair i v).ras = h.ras ∧ (h.putPair i v).pages = h.pages ∧ (h.putPair i v).tricks = h.tricks ∧
    (h.putPair i v).pcs = h.pcs ∧ (h.putPair i v).stk = h.stk ∧ (h.putPair i v).dma = h.dma ∧
    (h.putPair i v).hmm = h.hmm ∧ (h.putPair i v).sec = h.sec ∧ (h.putPair i v).journal = h.journal ∧
    (h.putPair i v).therm = h.therm ∧ (h.putPair i v).perf = h.perf ∧ (h.putPair i v).irq = h.irq ∧
    (h.putPair i v).mem = h.mem ∧ (h.putPair i v).flash = h.flash := by
  simp only [Hub.putPair, and_self]

@[simp] theorem Hub.putSource_fields (h : Hub) (i : Nat) (v : Source) :
    (h.putSource i v).now = h.now ∧ (h.putSource i v).pins = h.pins ∧ (h.putSource i v).boot = h.boot ∧
    (h.putSource i v).regs = h.regs ∧ (h.putSource i v).latch = h.latch ∧ (h.putSource i v).ops = h.ops ∧
    (h.putSource i v).mmio = h.mmio ∧ (h.putSource i v).ports = h.ports ∧ (h.putSource i v).dports = h.dports ∧
    (h.putSource i v).poolRd = h.poolRd ∧ (h.putSource i v).poolWr = h.poolWr ∧ (h.putSource i v).lines = h.lines ∧
    (h.putSource i v).tm = h.tm ∧ (h.putSource i v).cache = h.cache ∧ (h.putSource i v).amap = h.amap ∧
    (h.putSource i v).ras = h.ras ∧ (h.putSource i v).pages = h.pages ∧ (h.putSource i v).tricks = h.tricks ∧
    (h.putSource i v).pcs = h.pcs ∧ (h.putSource i v).stk = h.stk ∧ (h.putSource i v).dma = h.dma ∧
    (h.putSource i v).hmm = h.hmm ∧ (h.putSource i v).far = h.far ∧ (h.putSource i v).sec = h.sec ∧
    (h.putSource i v).journal = h.journal ∧ (h.putSource i v).perf = h.perf ∧ (h.putSource i v).irq = h.irq ∧
    (h.putSource i v).mem = h.mem ∧ (h.putSource i v).flash = h.flash := by
  simp only [Hub.putSource, and_self]

@[simp] theorem Hub.putTable_fields (h : Hub) (p : Nat) (v : PageTable) :
    (h.putTable p v).now = h.now ∧ (h.putTable p v).pins = h.pins ∧ (h.putTable p v).boot = h.boot ∧
    (h.putTable p v).regs = h.regs ∧ (h.putTable p v).latch = h.latch ∧ (h.putTable p v).ops = h.ops ∧
    (h.putTable p v).mmio = h.mmio ∧ (h.putTable p v).ports = h.ports ∧ (h.putTable p v).dports = h.dports ∧
    (h.putTable p v).poolRd = h.poolRd ∧ (h.putTable p v).poolWr = h.poolWr ∧ (h.putTable p v).lines = h.lines ∧
    (h.putTable p v).tm = h.tm ∧ (h.putTable p v).cache = h.cache ∧ (h.putTable p v).amap = h.amap ∧
    (h.putTable p v).ras = h.ras ∧ (h.putTable p v).tricks = h.tricks ∧ (h.putTable p v).pcs = h.pcs ∧
    (h.putTable p v).stk = h.stk ∧ (h.putTable p v).dma = h.dma ∧ (h.putTable p v).hmm = h.hmm ∧
    (h.putTable p v).far = h.far ∧ (h.putTable p v).sec = h.sec ∧ (h.putTable p v).journal = h.journal ∧
    (h.putTable p v).therm = h.therm ∧ (h.putTable p v).perf = h.perf ∧ (h.putTable p v).irq = h.irq ∧
    (h.putTable p v).mem = h.mem ∧ (h.putTable p v).flash = h.flash := by
  simp only [Hub.putTable, and_self]

@[simp] theorem Hub.putKeySlot_fields (h : Hub) (p : Nat) (v : Option KeySlot) :
    (h.putKeySlot p v).now = h.now ∧ (h.putKeySlot p v).pins = h.pins ∧ (h.putKeySlot p v).boot = h.boot ∧
    (h.putKeySlot p v).regs = h.regs ∧ (h.putKeySlot p v).latch = h.latch ∧ (h.putKeySlot p v).ops = h.ops ∧
    (h.putKeySlot p v).mmio = h.mmio ∧ (h.putKeySlot p v).ports = h.ports ∧ (h.putKeySlot p v).dports = h.dports ∧
    (h.putKeySlot p v).poolRd = h.poolRd ∧ (h.putKeySlot p v).poolWr = h.poolWr ∧
    (h.putKeySlot p v).lines = h.lines ∧ (h.putKeySlot p v).tm = h.tm ∧ (h.putKeySlot p v).cache = h.cache ∧
    (h.putKeySlot p v).amap = h.amap ∧ (h.putKeySlot p v).ras = h.ras ∧ (h.putKeySlot p v).pages = h.pages ∧
    (h.putKeySlot p v).tricks = h.tricks ∧ (h.putKeySlot p v).pcs = h.pcs ∧ (h.putKeySlot p v).stk = h.stk ∧
    (h.putKeySlot p v).dma = h.dma ∧ (h.putKeySlot p v).hmm = h.hmm ∧ (h.putKeySlot p v).far = h.far ∧
    (h.putKeySlot p v).journal = h.journal ∧ (h.putKeySlot p v).therm = h.therm ∧ (h.putKeySlot p v).perf = h.perf ∧
    (h.putKeySlot p v).irq = h.irq ∧ (h.putKeySlot p v).mem = h.mem ∧ (h.putKeySlot p v).flash = h.flash := by
  simp only [Hub.putKeySlot, and_self]

@[simp] theorem Hub.putFlash_fields (h : Hub) (a : Nat) (bs : List Byte) :
    (h.putFlash a bs).now = h.now ∧ (h.putFlash a bs).pins = h.pins ∧ (h.putFlash a bs).boot = h.boot ∧
    (h.putFlash a bs).regs = h.regs ∧ (h.putFlash a bs).latch = h.latch ∧ (h.putFlash a bs).ops = h.ops ∧
    (h.putFlash a bs).mmio = h.mmio ∧ (h.putFlash a bs).ports = h.ports ∧ (h.putFlash a bs).dports = h.dports ∧
    (h.putFlash a bs).poolRd = h.poolRd ∧ (h.putFlash a bs).poolWr = h.poolWr ∧ (h.putFlash a bs).lines = h.lines ∧
    (h.putFlash a bs).tm = h.tm ∧ (h.putFlash a bs).cache = h.cache ∧ (h.putFlash a bs).amap = h.amap ∧
    (h.putFlash a bs).ras = h.ras ∧ (h.putFlash a bs).pages = h.pages ∧ (h.putFlash a bs).tricks = h.tricks ∧
    (h.putFlash a bs).pcs = h.pcs ∧ (h.putFlash a bs).stk = h.stk ∧ (h.putFlash a bs).dma = h.dma ∧
    (h.putFlash a bs).hmm = h.hmm ∧ (h.putFlash a bs).far = h.far ∧ (h.putFlash a bs).sec = h.sec ∧
    (h.putFlash a bs).journal = h.journal ∧ (h.putFlash a bs).therm = h.therm ∧ (h.putFlash a bs).perf = h.perf ∧
    (h.putFlash a bs).irq = h.irq ∧ (h.putFlash a bs).mem = h.mem := by
  simp only [Hub.putFlash, and_self]

@[simp] theorem Hub.eraseFlash_fields (h : Hub) (a n : Nat) :
    (h.eraseFlash a n).now = h.now ∧ (h.eraseFlash a n).pins = h.pins ∧ (h.eraseFlash a n).boot = h.boot ∧
    (h.eraseFlash a n).regs = h.regs ∧ (h.eraseFlash a n).latch = h.latch ∧ (h.eraseFlash a n).ops = h.ops ∧
    (h.eraseFlash a n).mmio = h.mmio ∧ (h.eraseFlash a n).ports = h.ports ∧ (h.eraseFlash a n).dports = h.dports ∧
    (h.eraseFlash a n).poolRd = h.poolRd ∧ (h.eraseFlash a n).poolWr = h.poolWr ∧
    (h.eraseFlash a n).lines = h.lines ∧ (h.eraseFlash a n).tm = h.tm ∧ (h.eraseFlash a n).cache = h.cache ∧
    (h.eraseFlash a n).amap = h.amap ∧ (h.eraseFlash a n).ras = h.ras ∧ (h.eraseFlash a n).pages = h.pages ∧
    (h.eraseFlash a n).tricks = h.tricks ∧ (h.eraseFlash a n).pcs = h.pcs ∧ (h.eraseFlash a n).stk = h.stk ∧
    (h.eraseFlash a n).dma = h.dma ∧ (h.eraseFlash a n).hmm = h.hmm ∧ (h.eraseFlash a n).far = h.far ∧
    (h.eraseFlash a n).sec = h.sec ∧ (h.eraseFlash a n).journal = h.journal ∧ (h.eraseFlash a n).therm = h.therm ∧
    (h.eraseFlash a n).perf = h.perf ∧ (h.eraseFlash a n).irq = h.irq ∧ (h.eraseFlash a n).mem = h.mem := by
  simp only [Hub.eraseFlash, and_self]

@[simp] theorem Hub.putReq_fields (h : Hub) (r : Req) :
    (h.putReq r).now = h.now ∧ (h.putReq r).pins = h.pins ∧ (h.putReq r).boot = h.boot ∧ (h.putReq r).regs = h.regs ∧
    (h.putReq r).latch = h.latch ∧ (h.putReq r).ops = h.ops ∧ (h.putReq r).mmio = h.mmio ∧
    (h.putReq r).ports = h.ports ∧ (h.putReq r).dports = h.dports ∧ (h.putReq r).poolRd = h.poolRd ∧
    (h.putReq r).poolWr = h.poolWr ∧ (h.putReq r).tm = h.tm ∧ (h.putReq r).cache = h.cache ∧
    (h.putReq r).amap = h.amap ∧ (h.putReq r).ras = h.ras ∧ (h.putReq r).pages = h.pages ∧
    (h.putReq r).tricks = h.tricks ∧ (h.putReq r).pcs = h.pcs ∧ (h.putReq r).stk = h.stk ∧ (h.putReq r).dma = h.dma ∧
    (h.putReq r).hmm = h.hmm ∧ (h.putReq r).far = h.far ∧ (h.putReq r).sec = h.sec ∧
    (h.putReq r).journal = h.journal ∧ (h.putReq r).therm = h.therm ∧ (h.putReq r).perf = h.perf ∧
    (h.putReq r).irq = h.irq ∧ (h.putReq r).mem = h.mem ∧ (h.putReq r).flash = h.flash := by
  simp only [Hub.putReq, and_self]

@[simp] theorem Hub.dropReq_fields (h : Hub) (id : Nat) :
    (h.dropReq id).now = h.now ∧ (h.dropReq id).pins = h.pins ∧ (h.dropReq id).boot = h.boot ∧
    (h.dropReq id).regs = h.regs ∧ (h.dropReq id).latch = h.latch ∧ (h.dropReq id).ops = h.ops ∧
    (h.dropReq id).mmio = h.mmio ∧ (h.dropReq id).ports = h.ports ∧ (h.dropReq id).dports = h.dports ∧
    (h.dropReq id).poolRd = h.poolRd ∧ (h.dropReq id).poolWr = h.poolWr ∧ (h.dropReq id).tm = h.tm ∧
    (h.dropReq id).cache = h.cache ∧ (h.dropReq id).amap = h.amap ∧ (h.dropReq id).ras = h.ras ∧
    (h.dropReq id).pages = h.pages ∧ (h.dropReq id).tricks = h.tricks ∧ (h.dropReq id).pcs = h.pcs ∧
    (h.dropReq id).stk = h.stk ∧ (h.dropReq id).dma = h.dma ∧ (h.dropReq id).hmm = h.hmm ∧
    (h.dropReq id).far = h.far ∧ (h.dropReq id).sec = h.sec ∧ (h.dropReq id).journal = h.journal ∧
    (h.dropReq id).therm = h.therm ∧ (h.dropReq id).perf = h.perf ∧ (h.dropReq id).irq = h.irq ∧
    (h.dropReq id).mem = h.mem ∧ (h.dropReq id).flash = h.flash := by
  simp only [Hub.dropReq, and_self]

@[simp] theorem Hub.act_fields (h : Hub) (i n : Nat) :
    (h.act i n).now = h.now ∧ (h.act i n).pins = h.pins ∧ (h.act i n).boot = h.boot ∧ (h.act i n).regs = h.regs ∧
    (h.act i n).latch = h.latch ∧ (h.act i n).ops = h.ops ∧ (h.act i n).mmio = h.mmio ∧ (h.act i n).ports = h.ports ∧
    (h.act i n).dports = h.dports ∧ (h.act i n).poolRd = h.poolRd ∧ (h.act i n).poolWr = h.poolWr ∧
    (h.act i n).lines = h.lines ∧ (h.act i n).tm = h.tm ∧ (h.act i n).cache = h.cache ∧ (h.act i n).amap = h.amap ∧
    (h.act i n).ras = h.ras ∧ (h.act i n).pages = h.pages ∧ (h.act i n).tricks = h.tricks ∧ (h.act i n).pcs = h.pcs ∧
    (h.act i n).stk = h.stk ∧ (h.act i n).dma = h.dma ∧ (h.act i n).hmm = h.hmm ∧ (h.act i n).far = h.far ∧
    (h.act i n).sec = h.sec ∧ (h.act i n).journal = h.journal ∧ (h.act i n).perf = h.perf ∧ (h.act i n).irq = h.irq ∧
    (h.act i n).mem = h.mem ∧ (h.act i n).flash = h.flash := by
  simp only [Hub.act, and_self]

@[simp] theorem Hub.reach_fields (h : Hub) (t : Nat) :
    (h.reach t).pins = h.pins ∧ (h.reach t).boot = h.boot ∧ (h.reach t).regs = h.regs ∧ (h.reach t).latch = h.latch ∧
    (h.reach t).ops = h.ops ∧ (h.reach t).mmio = h.mmio ∧ (h.reach t).ports = h.ports ∧
    (h.reach t).dports = h.dports ∧ (h.reach t).poolRd = h.poolRd ∧ (h.reach t).poolWr = h.poolWr ∧
    (h.reach t).lines = h.lines ∧ (h.reach t).tm = h.tm ∧ (h.reach t).cache = h.cache ∧ (h.reach t).amap = h.amap ∧
    (h.reach t).ras = h.ras ∧ (h.reach t).pages = h.pages ∧ (h.reach t).tricks = h.tricks ∧ (h.reach t).pcs = h.pcs ∧
    (h.reach t).stk = h.stk ∧ (h.reach t).dma = h.dma ∧ (h.reach t).hmm = h.hmm ∧ (h.reach t).far = h.far ∧
    (h.reach t).sec = h.sec ∧ (h.reach t).journal = h.journal ∧ (h.reach t).therm = h.therm ∧
    (h.reach t).perf = h.perf ∧ (h.reach t).irq = h.irq ∧ (h.reach t).mem = h.mem ∧ (h.reach t).flash = h.flash := by
  simp only [Hub.reach, and_self]

@[simp] theorem Hub.respondMmio_fields (h : Hub) (v : Word) (code : BitVec 3) :
    (h.respondMmio v code).now = h.now ∧ (h.respondMmio v code).pins = h.pins ∧
    (h.respondMmio v code).boot = h.boot ∧ (h.respondMmio v code).regs = h.regs ∧
    (h.respondMmio v code).latch = h.latch ∧ (h.respondMmio v code).ops = h.ops ∧
    (h.respondMmio v code).ports = h.ports ∧ (h.respondMmio v code).dports = h.dports ∧
    (h.respondMmio v code).poolRd = h.poolRd ∧ (h.respondMmio v code).poolWr = h.poolWr ∧
    (h.respondMmio v code).lines = h.lines ∧ (h.respondMmio v code).tm = h.tm ∧
    (h.respondMmio v code).cache = h.cache ∧ (h.respondMmio v code).amap = h.amap ∧
    (h.respondMmio v code).ras = h.ras ∧ (h.respondMmio v code).pages = h.pages ∧
    (h.respondMmio v code).tricks = h.tricks ∧ (h.respondMmio v code).pcs = h.pcs ∧
    (h.respondMmio v code).stk = h.stk ∧ (h.respondMmio v code).dma = h.dma ∧ (h.respondMmio v code).hmm = h.hmm ∧
    (h.respondMmio v code).far = h.far ∧ (h.respondMmio v code).sec = h.sec ∧
    (h.respondMmio v code).journal = h.journal ∧ (h.respondMmio v code).therm = h.therm ∧
    (h.respondMmio v code).perf = h.perf ∧ (h.respondMmio v code).irq = h.irq ∧ (h.respondMmio v code).mem = h.mem ∧
    (h.respondMmio v code).flash = h.flash := by
  simp only [Hub.respondMmio, and_self]

@[simp] theorem Hub.putLongOp_fields (h : Hub) (page : Nat) (o : Option LongOp) :
    (h.putLongOp page o).now = h.now ∧ (h.putLongOp page o).pins = h.pins ∧ (h.putLongOp page o).boot = h.boot ∧
    (h.putLongOp page o).regs = h.regs ∧ (h.putLongOp page o).latch = h.latch ∧ (h.putLongOp page o).mmio = h.mmio ∧
    (h.putLongOp page o).ports = h.ports ∧ (h.putLongOp page o).dports = h.dports ∧
    (h.putLongOp page o).poolRd = h.poolRd ∧ (h.putLongOp page o).poolWr = h.poolWr ∧
    (h.putLongOp page o).lines = h.lines ∧ (h.putLongOp page o).tm = h.tm ∧ (h.putLongOp page o).cache = h.cache ∧
    (h.putLongOp page o).amap = h.amap ∧ (h.putLongOp page o).ras = h.ras ∧ (h.putLongOp page o).pages = h.pages ∧
    (h.putLongOp page o).tricks = h.tricks ∧ (h.putLongOp page o).pcs = h.pcs ∧ (h.putLongOp page o).stk = h.stk ∧
    (h.putLongOp page o).dma = h.dma ∧ (h.putLongOp page o).hmm = h.hmm ∧ (h.putLongOp page o).far = h.far ∧
    (h.putLongOp page o).sec = h.sec ∧ (h.putLongOp page o).journal = h.journal ∧
    (h.putLongOp page o).therm = h.therm ∧ (h.putLongOp page o).perf = h.perf ∧ (h.putLongOp page o).irq = h.irq ∧
    (h.putLongOp page o).mem = h.mem ∧ (h.putLongOp page o).flash = h.flash := by
  simp only [Hub.putLongOp, and_self]

@[simp] theorem Hub.wrFld_fields (h : Hub) (p o lo n v : Nat) :
    (h.wrFld p o lo n v).now = h.now ∧ (h.wrFld p o lo n v).pins = h.pins ∧ (h.wrFld p o lo n v).boot = h.boot ∧
    (h.wrFld p o lo n v).latch = h.latch ∧ (h.wrFld p o lo n v).ops = h.ops ∧ (h.wrFld p o lo n v).mmio = h.mmio ∧
    (h.wrFld p o lo n v).ports = h.ports ∧ (h.wrFld p o lo n v).dports = h.dports ∧
    (h.wrFld p o lo n v).poolRd = h.poolRd ∧ (h.wrFld p o lo n v).poolWr = h.poolWr ∧
    (h.wrFld p o lo n v).lines = h.lines ∧ (h.wrFld p o lo n v).tm = h.tm ∧ (h.wrFld p o lo n v).cache = h.cache ∧
    (h.wrFld p o lo n v).amap = h.amap ∧ (h.wrFld p o lo n v).ras = h.ras ∧ (h.wrFld p o lo n v).pages = h.pages ∧
    (h.wrFld p o lo n v).tricks = h.tricks ∧ (h.wrFld p o lo n v).pcs = h.pcs ∧ (h.wrFld p o lo n v).stk = h.stk ∧
    (h.wrFld p o lo n v).dma = h.dma ∧ (h.wrFld p o lo n v).hmm = h.hmm ∧ (h.wrFld p o lo n v).far = h.far ∧
    (h.wrFld p o lo n v).sec = h.sec ∧ (h.wrFld p o lo n v).journal = h.journal ∧
    (h.wrFld p o lo n v).therm = h.therm ∧ (h.wrFld p o lo n v).perf = h.perf ∧ (h.wrFld p o lo n v).irq = h.irq ∧
    (h.wrFld p o lo n v).mem = h.mem ∧ (h.wrFld p o lo n v).flash = h.flash := by
  simp [Hub.wrFld]

@[simp] theorem Hub.bump_fields (h : Hub) (p o lo n k : Nat) :
    (h.bump p o lo n k).now = h.now ∧ (h.bump p o lo n k).pins = h.pins ∧ (h.bump p o lo n k).boot = h.boot ∧
    (h.bump p o lo n k).latch = h.latch ∧ (h.bump p o lo n k).ops = h.ops ∧ (h.bump p o lo n k).mmio = h.mmio ∧
    (h.bump p o lo n k).ports = h.ports ∧ (h.bump p o lo n k).dports = h.dports ∧
    (h.bump p o lo n k).poolRd = h.poolRd ∧ (h.bump p o lo n k).poolWr = h.poolWr ∧
    (h.bump p o lo n k).lines = h.lines ∧ (h.bump p o lo n k).tm = h.tm ∧ (h.bump p o lo n k).cache = h.cache ∧
    (h.bump p o lo n k).amap = h.amap ∧ (h.bump p o lo n k).ras = h.ras ∧ (h.bump p o lo n k).pages = h.pages ∧
    (h.bump p o lo n k).tricks = h.tricks ∧ (h.bump p o lo n k).pcs = h.pcs ∧ (h.bump p o lo n k).stk = h.stk ∧
    (h.bump p o lo n k).dma = h.dma ∧ (h.bump p o lo n k).hmm = h.hmm ∧ (h.bump p o lo n k).far = h.far ∧
    (h.bump p o lo n k).sec = h.sec ∧ (h.bump p o lo n k).journal = h.journal ∧ (h.bump p o lo n k).therm = h.therm ∧
    (h.bump p o lo n k).perf = h.perf ∧ (h.bump p o lo n k).irq = h.irq ∧ (h.bump p o lo n k).mem = h.mem ∧
    (h.bump p o lo n k).flash = h.flash := by
  simp [Hub.bump]

@[simp] theorem Hub.wr64_fields (h : Hub) (p o v : Nat) :
    (h.wr64 p o v).now = h.now ∧ (h.wr64 p o v).pins = h.pins ∧ (h.wr64 p o v).boot = h.boot ∧
    (h.wr64 p o v).latch = h.latch ∧ (h.wr64 p o v).ops = h.ops ∧ (h.wr64 p o v).mmio = h.mmio ∧
    (h.wr64 p o v).ports = h.ports ∧ (h.wr64 p o v).dports = h.dports ∧ (h.wr64 p o v).poolRd = h.poolRd ∧
    (h.wr64 p o v).poolWr = h.poolWr ∧ (h.wr64 p o v).lines = h.lines ∧ (h.wr64 p o v).tm = h.tm ∧
    (h.wr64 p o v).cache = h.cache ∧ (h.wr64 p o v).amap = h.amap ∧ (h.wr64 p o v).ras = h.ras ∧
    (h.wr64 p o v).pages = h.pages ∧ (h.wr64 p o v).tricks = h.tricks ∧ (h.wr64 p o v).pcs = h.pcs ∧
    (h.wr64 p o v).stk = h.stk ∧ (h.wr64 p o v).dma = h.dma ∧ (h.wr64 p o v).hmm = h.hmm ∧
    (h.wr64 p o v).far = h.far ∧ (h.wr64 p o v).sec = h.sec ∧ (h.wr64 p o v).journal = h.journal ∧
    (h.wr64 p o v).therm = h.therm ∧ (h.wr64 p o v).perf = h.perf ∧ (h.wr64 p o v).irq = h.irq ∧
    (h.wr64 p o v).mem = h.mem ∧ (h.wr64 p o v).flash = h.flash := by
  simp [Hub.wr64]

@[simp] theorem Hub.putPool_fields (h : Hub) (wr : Bool) (g v : Nat) :
    (h.putPool wr g v).now = h.now ∧ (h.putPool wr g v).pins = h.pins ∧ (h.putPool wr g v).boot = h.boot ∧
    (h.putPool wr g v).regs = h.regs ∧ (h.putPool wr g v).latch = h.latch ∧ (h.putPool wr g v).ops = h.ops ∧
    (h.putPool wr g v).mmio = h.mmio ∧ (h.putPool wr g v).ports = h.ports ∧ (h.putPool wr g v).dports = h.dports ∧
    (h.putPool wr g v).lines = h.lines ∧ (h.putPool wr g v).tm = h.tm ∧ (h.putPool wr g v).cache = h.cache ∧
    (h.putPool wr g v).amap = h.amap ∧ (h.putPool wr g v).ras = h.ras ∧ (h.putPool wr g v).pages = h.pages ∧
    (h.putPool wr g v).tricks = h.tricks ∧ (h.putPool wr g v).pcs = h.pcs ∧ (h.putPool wr g v).stk = h.stk ∧
    (h.putPool wr g v).dma = h.dma ∧ (h.putPool wr g v).hmm = h.hmm ∧ (h.putPool wr g v).far = h.far ∧
    (h.putPool wr g v).sec = h.sec ∧ (h.putPool wr g v).journal = h.journal ∧ (h.putPool wr g v).therm = h.therm ∧
    (h.putPool wr g v).perf = h.perf ∧ (h.putPool wr g v).irq = h.irq ∧ (h.putPool wr g v).mem = h.mem ∧
    (h.putPool wr g v).flash = h.flash := by
  unfold Hub.putPool
  try dsimp only
  (repeat' split) <;> simp

@[simp] theorem Hub.msi_fields (h : Hub) (p : Nat) :
    (h.msi p).now = h.now ∧ (h.msi p).pins = h.pins ∧ (h.msi p).boot = h.boot ∧ (h.msi p).regs = h.regs ∧
    (h.msi p).latch = h.latch ∧ (h.msi p).ops = h.ops ∧ (h.msi p).mmio = h.mmio ∧ (h.msi p).ports = h.ports ∧
    (h.msi p).dports = h.dports ∧ (h.msi p).poolRd = h.poolRd ∧ (h.msi p).poolWr = h.poolWr ∧
    (h.msi p).lines = h.lines ∧ (h.msi p).tm = h.tm ∧ (h.msi p).cache = h.cache ∧ (h.msi p).amap = h.amap ∧
    (h.msi p).ras = h.ras ∧ (h.msi p).pages = h.pages ∧ (h.msi p).tricks = h.tricks ∧ (h.msi p).pcs = h.pcs ∧
    (h.msi p).stk = h.stk ∧ (h.msi p).dma = h.dma ∧ (h.msi p).hmm = h.hmm ∧ (h.msi p).far = h.far ∧
    (h.msi p).sec = h.sec ∧ (h.msi p).journal = h.journal ∧ (h.msi p).therm = h.therm ∧ (h.msi p).perf = h.perf ∧
    (h.msi p).mem = h.mem ∧ (h.msi p).flash = h.flash := by
  unfold Hub.msi
  try dsimp only
  (repeat' split) <;> simp

@[simp] theorem Hub.raise_fields (h : Hub) (p n : Nat) :
    (h.raise p n).now = h.now ∧ (h.raise p n).pins = h.pins ∧ (h.raise p n).boot = h.boot ∧
    (h.raise p n).latch = h.latch ∧ (h.raise p n).ops = h.ops ∧ (h.raise p n).mmio = h.mmio ∧
    (h.raise p n).ports = h.ports ∧ (h.raise p n).dports = h.dports ∧ (h.raise p n).poolRd = h.poolRd ∧
    (h.raise p n).poolWr = h.poolWr ∧ (h.raise p n).lines = h.lines ∧ (h.raise p n).tm = h.tm ∧
    (h.raise p n).cache = h.cache ∧ (h.raise p n).amap = h.amap ∧ (h.raise p n).ras = h.ras ∧
    (h.raise p n).pages = h.pages ∧ (h.raise p n).tricks = h.tricks ∧ (h.raise p n).pcs = h.pcs ∧
    (h.raise p n).stk = h.stk ∧ (h.raise p n).dma = h.dma ∧ (h.raise p n).hmm = h.hmm ∧ (h.raise p n).far = h.far ∧
    (h.raise p n).sec = h.sec ∧ (h.raise p n).journal = h.journal ∧ (h.raise p n).therm = h.therm ∧
    (h.raise p n).perf = h.perf ∧ (h.raise p n).mem = h.mem ∧ (h.raise p n).flash = h.flash := by
  unfold Hub.raise
  try dsimp only
  (repeat' split) <;> simp

@[simp] theorem Hub.submit_fields (h : Hub) (typ : Nat) (critical : Bool) (payload : List Byte) :
    (h.submit typ critical payload).now = h.now ∧ (h.submit typ critical payload).pins = h.pins ∧
    (h.submit typ critical payload).boot = h.boot ∧ (h.submit typ critical payload).regs = h.regs ∧
    (h.submit typ critical payload).latch = h.latch ∧ (h.submit typ critical payload).ops = h.ops ∧
    (h.submit typ critical payload).mmio = h.mmio ∧ (h.submit typ critical payload).ports = h.ports ∧
    (h.submit typ critical payload).dports = h.dports ∧ (h.submit typ critical payload).poolRd = h.poolRd ∧
    (h.submit typ critical payload).poolWr = h.poolWr ∧ (h.submit typ critical payload).lines = h.lines ∧
    (h.submit typ critical payload).tm = h.tm ∧ (h.submit typ critical payload).cache = h.cache ∧
    (h.submit typ critical payload).amap = h.amap ∧ (h.submit typ critical payload).ras = h.ras ∧
    (h.submit typ critical payload).pages = h.pages ∧ (h.submit typ critical payload).tricks = h.tricks ∧
    (h.submit typ critical payload).pcs = h.pcs ∧ (h.submit typ critical payload).stk = h.stk ∧
    (h.submit typ critical payload).dma = h.dma ∧ (h.submit typ critical payload).hmm = h.hmm ∧
    (h.submit typ critical payload).far = h.far ∧ (h.submit typ critical payload).sec = h.sec ∧
    (h.submit typ critical payload).therm = h.therm ∧ (h.submit typ critical payload).perf = h.perf ∧
    (h.submit typ critical payload).irq = h.irq ∧ (h.submit typ critical payload).mem = h.mem ∧
    (h.submit typ critical payload).flash = h.flash := by
  simp [Hub.submit]

@[simp] theorem Hub.submitO_fields (h : Hub) (typ : Nat) (flags : Byte) (payload : List Byte) :
    (h.submitO typ flags payload).now = h.now ∧ (h.submitO typ flags payload).pins = h.pins ∧
    (h.submitO typ flags payload).boot = h.boot ∧ (h.submitO typ flags payload).latch = h.latch ∧
    (h.submitO typ flags payload).ops = h.ops ∧ (h.submitO typ flags payload).mmio = h.mmio ∧
    (h.submitO typ flags payload).ports = h.ports ∧ (h.submitO typ flags payload).dports = h.dports ∧
    (h.submitO typ flags payload).poolRd = h.poolRd ∧ (h.submitO typ flags payload).poolWr = h.poolWr ∧
    (h.submitO typ flags payload).lines = h.lines ∧ (h.submitO typ flags payload).tm = h.tm ∧
    (h.submitO typ flags payload).cache = h.cache ∧ (h.submitO typ flags payload).amap = h.amap ∧
    (h.submitO typ flags payload).ras = h.ras ∧ (h.submitO typ flags payload).pages = h.pages ∧
    (h.submitO typ flags payload).tricks = h.tricks ∧ (h.submitO typ flags payload).pcs = h.pcs ∧
    (h.submitO typ flags payload).stk = h.stk ∧ (h.submitO typ flags payload).dma = h.dma ∧
    (h.submitO typ flags payload).hmm = h.hmm ∧ (h.submitO typ flags payload).far = h.far ∧
    (h.submitO typ flags payload).sec = h.sec ∧ (h.submitO typ flags payload).therm = h.therm ∧
    (h.submitO typ flags payload).perf = h.perf ∧ (h.submitO typ flags payload).irq = h.irq ∧
    (h.submitO typ flags payload).mem = h.mem ∧ (h.submitO typ flags payload).flash = h.flash := by
  unfold Hub.submitO
  try dsimp only
  (repeat' split) <;> simp

@[simp] theorem Hub.topUpPort_fields (h : Hub) (wr : Bool) (p : Nat) :
    (h.topUpPort wr p).now = h.now ∧ (h.topUpPort wr p).pins = h.pins ∧ (h.topUpPort wr p).boot = h.boot ∧
    (h.topUpPort wr p).regs = h.regs ∧ (h.topUpPort wr p).latch = h.latch ∧ (h.topUpPort wr p).ops = h.ops ∧
    (h.topUpPort wr p).mmio = h.mmio ∧ (h.topUpPort wr p).dports = h.dports ∧ (h.topUpPort wr p).lines = h.lines ∧
    (h.topUpPort wr p).tm = h.tm ∧ (h.topUpPort wr p).cache = h.cache ∧ (h.topUpPort wr p).amap = h.amap ∧
    (h.topUpPort wr p).ras = h.ras ∧ (h.topUpPort wr p).pages = h.pages ∧ (h.topUpPort wr p).tricks = h.tricks ∧
    (h.topUpPort wr p).pcs = h.pcs ∧ (h.topUpPort wr p).stk = h.stk ∧ (h.topUpPort wr p).dma = h.dma ∧
    (h.topUpPort wr p).hmm = h.hmm ∧ (h.topUpPort wr p).far = h.far ∧ (h.topUpPort wr p).sec = h.sec ∧
    (h.topUpPort wr p).journal = h.journal ∧ (h.topUpPort wr p).therm = h.therm ∧ (h.topUpPort wr p).perf = h.perf ∧
    (h.topUpPort wr p).irq = h.irq ∧ (h.topUpPort wr p).mem = h.mem ∧ (h.topUpPort wr p).flash = h.flash := by
  unfold Hub.topUpPort
  try dsimp only
  (repeat' split) <;> simp

@[simp] theorem Hub.topUp_fields (h : Hub) (g : Nat) :
    (h.topUp g).now = h.now ∧ (h.topUp g).pins = h.pins ∧ (h.topUp g).boot = h.boot ∧ (h.topUp g).regs = h.regs ∧
    (h.topUp g).latch = h.latch ∧ (h.topUp g).ops = h.ops ∧ (h.topUp g).mmio = h.mmio ∧
    (h.topUp g).dports = h.dports ∧ (h.topUp g).lines = h.lines ∧ (h.topUp g).tm = h.tm ∧
    (h.topUp g).cache = h.cache ∧ (h.topUp g).amap = h.amap ∧ (h.topUp g).ras = h.ras ∧ (h.topUp g).pages = h.pages ∧
    (h.topUp g).tricks = h.tricks ∧ (h.topUp g).pcs = h.pcs ∧ (h.topUp g).stk = h.stk ∧ (h.topUp g).dma = h.dma ∧
    (h.topUp g).hmm = h.hmm ∧ (h.topUp g).far = h.far ∧ (h.topUp g).sec = h.sec ∧ (h.topUp g).journal = h.journal ∧
    (h.topUp g).therm = h.therm ∧ (h.topUp g).perf = h.perf ∧ (h.topUp g).irq = h.irq ∧ (h.topUp g).mem = h.mem ∧
    (h.topUp g).flash = h.flash := by
  unfold Hub.topUp
  refine ⟨?_, ?_, ?_, ?_, ?_, ?_, ?_, ?_, ?_, ?_, ?_, ?_, ?_, ?_, ?_, ?_, ?_, ?_, ?_, ?_, ?_, ?_, ?_, ?_, ?_, ?_, ?_⟩ <;>
    (apply foldl_keeps; intro h i; simp)

@[simp] theorem Hub.spend_fields (h : Hub) (wr : Bool) (p n : Nat) :
    (h.spend wr p n).now = h.now ∧ (h.spend wr p n).pins = h.pins ∧ (h.spend wr p n).boot = h.boot ∧
    (h.spend wr p n).regs = h.regs ∧ (h.spend wr p n).latch = h.latch ∧ (h.spend wr p n).ops = h.ops ∧
    (h.spend wr p n).mmio = h.mmio ∧ (h.spend wr p n).dports = h.dports ∧ (h.spend wr p n).lines = h.lines ∧
    (h.spend wr p n).tm = h.tm ∧ (h.spend wr p n).cache = h.cache ∧ (h.spend wr p n).amap = h.amap ∧
    (h.spend wr p n).ras = h.ras ∧ (h.spend wr p n).pages = h.pages ∧ (h.spend wr p n).tricks = h.tricks ∧
    (h.spend wr p n).pcs = h.pcs ∧ (h.spend wr p n).stk = h.stk ∧ (h.spend wr p n).dma = h.dma ∧
    (h.spend wr p n).hmm = h.hmm ∧ (h.spend wr p n).far = h.far ∧ (h.spend wr p n).sec = h.sec ∧
    (h.spend wr p n).journal = h.journal ∧ (h.spend wr p n).therm = h.therm ∧ (h.spend wr p n).perf = h.perf ∧
    (h.spend wr p n).irq = h.irq ∧ (h.spend wr p n).mem = h.mem ∧ (h.spend wr p n).flash = h.flash := by
  simp [Hub.spend]

@[simp] theorem Hub.giveBack_fields (h : Hub) (wr : Bool) (p : Nat) :
    (h.giveBack wr p).now = h.now ∧ (h.giveBack wr p).pins = h.pins ∧ (h.giveBack wr p).boot = h.boot ∧
    (h.giveBack wr p).regs = h.regs ∧ (h.giveBack wr p).latch = h.latch ∧ (h.giveBack wr p).ops = h.ops ∧
    (h.giveBack wr p).mmio = h.mmio ∧ (h.giveBack wr p).dports = h.dports ∧ (h.giveBack wr p).lines = h.lines ∧
    (h.giveBack wr p).tm = h.tm ∧ (h.giveBack wr p).cache = h.cache ∧ (h.giveBack wr p).amap = h.amap ∧
    (h.giveBack wr p).ras = h.ras ∧ (h.giveBack wr p).pages = h.pages ∧ (h.giveBack wr p).tricks = h.tricks ∧
    (h.giveBack wr p).pcs = h.pcs ∧ (h.giveBack wr p).stk = h.stk ∧ (h.giveBack wr p).dma = h.dma ∧
    (h.giveBack wr p).hmm = h.hmm ∧ (h.giveBack wr p).far = h.far ∧ (h.giveBack wr p).sec = h.sec ∧
    (h.giveBack wr p).journal = h.journal ∧ (h.giveBack wr p).therm = h.therm ∧ (h.giveBack wr p).perf = h.perf ∧
    (h.giveBack wr p).irq = h.irq ∧ (h.giveBack wr p).mem = h.mem ∧ (h.giveBack wr p).flash = h.flash := by
  unfold Hub.giveBack
  try dsimp only
  (repeat' split) <;> simp

@[simp] theorem Hub.pushSample_fields (h : Hub) (i : Nat) (s : Sample) :
    (h.pushSample i s).now = h.now ∧ (h.pushSample i s).pins = h.pins ∧ (h.pushSample i s).boot = h.boot ∧
    (h.pushSample i s).latch = h.latch ∧ (h.pushSample i s).ops = h.ops ∧ (h.pushSample i s).mmio = h.mmio ∧
    (h.pushSample i s).ports = h.ports ∧ (h.pushSample i s).dports = h.dports ∧
    (h.pushSample i s).poolRd = h.poolRd ∧ (h.pushSample i s).poolWr = h.poolWr ∧
    (h.pushSample i s).lines = h.lines ∧ (h.pushSample i s).tm = h.tm ∧ (h.pushSample i s).cache = h.cache ∧
    (h.pushSample i s).amap = h.amap ∧ (h.pushSample i s).ras = h.ras ∧ (h.pushSample i s).pages = h.pages ∧
    (h.pushSample i s).tricks = h.tricks ∧ (h.pushSample i s).pcs = h.pcs ∧ (h.pushSample i s).stk = h.stk ∧
    (h.pushSample i s).dma = h.dma ∧ (h.pushSample i s).hmm = h.hmm ∧ (h.pushSample i s).far = h.far ∧
    (h.pushSample i s).sec = h.sec ∧ (h.pushSample i s).journal = h.journal ∧ (h.pushSample i s).therm = h.therm ∧
    (h.pushSample i s).mem = h.mem ∧ (h.pushSample i s).flash = h.flash := by
  unfold Hub.pushSample
  try dsimp only
  (repeat' split) <;> simp

@[simp] theorem Hub.countOne_fields (h : Hub) (e : PerfEvt) (i : Nat) :
    (h.countOne e i).now = h.now ∧ (h.countOne e i).pins = h.pins ∧ (h.countOne e i).boot = h.boot ∧
    (h.countOne e i).latch = h.latch ∧ (h.countOne e i).ops = h.ops ∧ (h.countOne e i).mmio = h.mmio ∧
    (h.countOne e i).ports = h.ports ∧ (h.countOne e i).dports = h.dports ∧ (h.countOne e i).poolRd = h.poolRd ∧
    (h.countOne e i).poolWr = h.poolWr ∧ (h.countOne e i).lines = h.lines ∧ (h.countOne e i).tm = h.tm ∧
    (h.countOne e i).cache = h.cache ∧ (h.countOne e i).amap = h.amap ∧ (h.countOne e i).ras = h.ras ∧
    (h.countOne e i).pages = h.pages ∧ (h.countOne e i).tricks = h.tricks ∧ (h.countOne e i).pcs = h.pcs ∧
    (h.countOne e i).stk = h.stk ∧ (h.countOne e i).dma = h.dma ∧ (h.countOne e i).hmm = h.hmm ∧
    (h.countOne e i).far = h.far ∧ (h.countOne e i).sec = h.sec ∧ (h.countOne e i).journal = h.journal ∧
    (h.countOne e i).therm = h.therm ∧ (h.countOne e i).mem = h.mem ∧ (h.countOne e i).flash = h.flash := by
  unfold Hub.countOne
  try dsimp only
  (repeat' split) <;> simp

@[simp] theorem Hub.count_fields (h : Hub) (e : PerfEvt) :
    (h.count e).now = h.now ∧ (h.count e).pins = h.pins ∧ (h.count e).boot = h.boot ∧ (h.count e).latch = h.latch ∧
    (h.count e).ops = h.ops ∧ (h.count e).mmio = h.mmio ∧ (h.count e).ports = h.ports ∧
    (h.count e).dports = h.dports ∧ (h.count e).poolRd = h.poolRd ∧ (h.count e).poolWr = h.poolWr ∧
    (h.count e).lines = h.lines ∧ (h.count e).tm = h.tm ∧ (h.count e).cache = h.cache ∧ (h.count e).amap = h.amap ∧
    (h.count e).ras = h.ras ∧ (h.count e).pages = h.pages ∧ (h.count e).tricks = h.tricks ∧ (h.count e).pcs = h.pcs ∧
    (h.count e).stk = h.stk ∧ (h.count e).dma = h.dma ∧ (h.count e).hmm = h.hmm ∧ (h.count e).far = h.far ∧
    (h.count e).sec = h.sec ∧ (h.count e).journal = h.journal ∧ (h.count e).therm = h.therm ∧
    (h.count e).mem = h.mem ∧ (h.count e).flash = h.flash := by
  unfold Hub.count
  split
  · refine ⟨?_, ?_, ?_, ?_, ?_, ?_, ?_, ?_, ?_, ?_, ?_, ?_, ?_, ?_, ?_, ?_, ?_, ?_, ?_, ?_, ?_, ?_, ?_, ?_, ?_, ?_, ?_⟩ <;>
      (apply foldl_keeps; intro h i; simp)
  · simp

@[simp] theorem Hub.countLine_fields (h : Hub) (code amt : Nat) (src : Src) (hd : Header) (idx lat : Nat) :
    (h.countLine code amt src hd idx lat).now = h.now ∧ (h.countLine code amt src hd idx lat).pins = h.pins ∧
    (h.countLine code amt src hd idx lat).boot = h.boot ∧ (h.countLine code amt src hd idx lat).latch = h.latch ∧
    (h.countLine code amt src hd idx lat).ops = h.ops ∧ (h.countLine code amt src hd idx lat).mmio = h.mmio ∧
    (h.countLine code amt src hd idx lat).ports = h.ports ∧ (h.countLine code amt src hd idx lat).dports = h.dports ∧
    (h.countLine code amt src hd idx lat).poolRd = h.poolRd ∧
    (h.countLine code amt src hd idx lat).poolWr = h.poolWr ∧ (h.countLine code amt src hd idx lat).lines = h.lines ∧
    (h.countLine code amt src hd idx lat).tm = h.tm ∧ (h.countLine code amt src hd idx lat).cache = h.cache ∧
    (h.countLine code amt src hd idx lat).amap = h.amap ∧ (h.countLine code amt src hd idx lat).ras = h.ras ∧
    (h.countLine code amt src hd idx lat).pages = h.pages ∧ (h.countLine code amt src hd idx lat).tricks = h.tricks ∧
    (h.countLine code amt src hd idx lat).pcs = h.pcs ∧ (h.countLine code amt src hd idx lat).stk = h.stk ∧
    (h.countLine code amt src hd idx lat).dma = h.dma ∧ (h.countLine code amt src hd idx lat).hmm = h.hmm ∧
    (h.countLine code amt src hd idx lat).far = h.far ∧ (h.countLine code amt src hd idx lat).sec = h.sec ∧
    (h.countLine code amt src hd idx lat).journal = h.journal ∧
    (h.countLine code amt src hd idx lat).therm = h.therm ∧ (h.countLine code amt src hd idx lat).mem = h.mem ∧
    (h.countLine code amt src hd idx lat).flash = h.flash := by
  simp [Hub.countLine]

@[simp] theorem Hub.respond_fields (h : Hub) (p : BitVec 5) (hd : Header) (idx code result : Nat) (data : List Sector) (credit : Bool) :
    (h.respond p hd idx code result data credit).now = h.now ∧
    (h.respond p hd idx code result data credit).pins = h.pins ∧
    (h.respond p hd idx code result data credit).boot = h.boot ∧
    (h.respond p hd idx code result data credit).regs = h.regs ∧
    (h.respond p hd idx code result data credit).latch = h.latch ∧
    (h.respond p hd idx code result data credit).ops = h.ops ∧
    (h.respond p hd idx code result data credit).mmio = h.mmio ∧
    (h.respond p hd idx code result data credit).dports = h.dports ∧
    (h.respond p hd idx code result data credit).poolRd = h.poolRd ∧
    (h.respond p hd idx code result data credit).poolWr = h.poolWr ∧
    (h.respond p hd idx code result data credit).lines = h.lines ∧
    (h.respond p hd idx code result data credit).tm = h.tm ∧
    (h.respond p hd idx code result data credit).cache = h.cache ∧
    (h.respond p hd idx code result data credit).amap = h.amap ∧
    (h.respond p hd idx code result data credit).ras = h.ras ∧
    (h.respond p hd idx code result data credit).pages = h.pages ∧
    (h.respond p hd idx code result data credit).tricks = h.tricks ∧
    (h.respond p hd idx code result data credit).pcs = h.pcs ∧
    (h.respond p hd idx code result data credit).stk = h.stk ∧
    (h.respond p hd idx code result data credit).dma = h.dma ∧
    (h.respond p hd idx code result data credit).hmm = h.hmm ∧
    (h.respond p hd idx code result data credit).far = h.far ∧
    (h.respond p hd idx code result data credit).sec = h.sec ∧
    (h.respond p hd idx code result data credit).journal = h.journal ∧
    (h.respond p hd idx code result data credit).perf = h.perf ∧
    (h.respond p hd idx code result data credit).irq = h.irq ∧
    (h.respond p hd idx code result data credit).mem = h.mem ∧
    (h.respond p hd idx code result data credit).flash = h.flash := by
  simp [Hub.respond]

@[simp] theorem Hub.refuse_fields (h : Hub) (init : Initiator) (page off : Nat) (wr : Bool) (reason : Nat) :
    (h.refuse init page off wr reason).now = h.now ∧ (h.refuse init page off wr reason).pins = h.pins ∧
    (h.refuse init page off wr reason).boot = h.boot ∧ (h.refuse init page off wr reason).latch = h.latch ∧
    (h.refuse init page off wr reason).ops = h.ops ∧ (h.refuse init page off wr reason).ports = h.ports ∧
    (h.refuse init page off wr reason).dports = h.dports ∧ (h.refuse init page off wr reason).poolRd = h.poolRd ∧
    (h.refuse init page off wr reason).poolWr = h.poolWr ∧ (h.refuse init page off wr reason).lines = h.lines ∧
    (h.refuse init page off wr reason).tm = h.tm ∧ (h.refuse init page off wr reason).cache = h.cache ∧
    (h.refuse init page off wr reason).amap = h.amap ∧ (h.refuse init page off wr reason).ras = h.ras ∧
    (h.refuse init page off wr reason).pages = h.pages ∧ (h.refuse init page off wr reason).tricks = h.tricks ∧
    (h.refuse init page off wr reason).pcs = h.pcs ∧ (h.refuse init page off wr reason).stk = h.stk ∧
    (h.refuse init page off wr reason).dma = h.dma ∧ (h.refuse init page off wr reason).hmm = h.hmm ∧
    (h.refuse init page off wr reason).far = h.far ∧ (h.refuse init page off wr reason).sec = h.sec ∧
    (h.refuse init page off wr reason).journal = h.journal ∧ (h.refuse init page off wr reason).therm = h.therm ∧
    (h.refuse init page off wr reason).perf = h.perf ∧ (h.refuse init page off wr reason).irq = h.irq ∧
    (h.refuse init page off wr reason).mem = h.mem ∧ (h.refuse init page off wr reason).flash = h.flash := by
  unfold Hub.refuse
  try dsimp only
  (repeat' split) <;> simp

@[simp] theorem Hub.refuseUnmapped_fields (h : Hub) (init : Initiator) (page : Nat) (wr : Bool) :
    (h.refuseUnmapped init page wr).now = h.now ∧ (h.refuseUnmapped init page wr).pins = h.pins ∧
    (h.refuseUnmapped init page wr).boot = h.boot ∧ (h.refuseUnmapped init page wr).latch = h.latch ∧
    (h.refuseUnmapped init page wr).ops = h.ops ∧ (h.refuseUnmapped init page wr).ports = h.ports ∧
    (h.refuseUnmapped init page wr).dports = h.dports ∧ (h.refuseUnmapped init page wr).poolRd = h.poolRd ∧
    (h.refuseUnmapped init page wr).poolWr = h.poolWr ∧ (h.refuseUnmapped init page wr).lines = h.lines ∧
    (h.refuseUnmapped init page wr).tm = h.tm ∧ (h.refuseUnmapped init page wr).cache = h.cache ∧
    (h.refuseUnmapped init page wr).amap = h.amap ∧ (h.refuseUnmapped init page wr).ras = h.ras ∧
    (h.refuseUnmapped init page wr).pages = h.pages ∧ (h.refuseUnmapped init page wr).tricks = h.tricks ∧
    (h.refuseUnmapped init page wr).pcs = h.pcs ∧ (h.refuseUnmapped init page wr).stk = h.stk ∧
    (h.refuseUnmapped init page wr).dma = h.dma ∧ (h.refuseUnmapped init page wr).hmm = h.hmm ∧
    (h.refuseUnmapped init page wr).far = h.far ∧ (h.refuseUnmapped init page wr).sec = h.sec ∧
    (h.refuseUnmapped init page wr).journal = h.journal ∧ (h.refuseUnmapped init page wr).therm = h.therm ∧
    (h.refuseUnmapped init page wr).perf = h.perf ∧ (h.refuseUnmapped init page wr).mem = h.mem ∧
    (h.refuseUnmapped init page wr).flash = h.flash := by
  unfold Hub.refuseUnmapped
  try dsimp only
  (repeat' split) <;> simp

@[simp] theorem Hub.beginOp_fields (h : Hub) (page opcode index : Nat) :
    (h.beginOp page opcode index).now = h.now ∧ (h.beginOp page opcode index).pins = h.pins ∧
    (h.beginOp page opcode index).boot = h.boot ∧ (h.beginOp page opcode index).latch = h.latch ∧
    (h.beginOp page opcode index).mmio = h.mmio ∧ (h.beginOp page opcode index).ports = h.ports ∧
    (h.beginOp page opcode index).dports = h.dports ∧ (h.beginOp page opcode index).poolRd = h.poolRd ∧
    (h.beginOp page opcode index).poolWr = h.poolWr ∧ (h.beginOp page opcode index).lines = h.lines ∧
    (h.beginOp page opcode index).tm = h.tm ∧ (h.beginOp page opcode index).cache = h.cache ∧
    (h.beginOp page opcode index).amap = h.amap ∧ (h.beginOp page opcode index).ras = h.ras ∧
    (h.beginOp page opcode index).pages = h.pages ∧ (h.beginOp page opcode index).tricks = h.tricks ∧
    (h.beginOp page opcode index).pcs = h.pcs ∧ (h.beginOp page opcode index).stk = h.stk ∧
    (h.beginOp page opcode index).dma = h.dma ∧ (h.beginOp page opcode index).hmm = h.hmm ∧
    (h.beginOp page opcode index).far = h.far ∧ (h.beginOp page opcode index).sec = h.sec ∧
    (h.beginOp page opcode index).journal = h.journal ∧ (h.beginOp page opcode index).therm = h.therm ∧
    (h.beginOp page opcode index).perf = h.perf ∧ (h.beginOp page opcode index).irq = h.irq ∧
    (h.beginOp page opcode index).mem = h.mem ∧ (h.beginOp page opcode index).flash = h.flash := by
  simp [Hub.beginOp]

@[simp] theorem Hub.endOp_fields (h : Hub) (page code : Nat) :
    (h.endOp page code).now = h.now ∧ (h.endOp page code).pins = h.pins ∧ (h.endOp page code).boot = h.boot ∧
    (h.endOp page code).latch = h.latch ∧ (h.endOp page code).mmio = h.mmio ∧ (h.endOp page code).ports = h.ports ∧
    (h.endOp page code).dports = h.dports ∧ (h.endOp page code).poolRd = h.poolRd ∧
    (h.endOp page code).poolWr = h.poolWr ∧ (h.endOp page code).lines = h.lines ∧ (h.endOp page code).tm = h.tm ∧
    (h.endOp page code).cache = h.cache ∧ (h.endOp page code).amap = h.amap ∧ (h.endOp page code).ras = h.ras ∧
    (h.endOp page code).pages = h.pages ∧ (h.endOp page code).tricks = h.tricks ∧ (h.endOp page code).pcs = h.pcs ∧
    (h.endOp page code).stk = h.stk ∧ (h.endOp page code).dma = h.dma ∧ (h.endOp page code).hmm = h.hmm ∧
    (h.endOp page code).far = h.far ∧ (h.endOp page code).sec = h.sec ∧ (h.endOp page code).journal = h.journal ∧
    (h.endOp page code).therm = h.therm ∧ (h.endOp page code).perf = h.perf ∧ (h.endOp page code).mem = h.mem ∧
    (h.endOp page code).flash = h.flash := by
  unfold Hub.endOp
  try dsimp only
  (repeat' split) <;> simp

@[simp] theorem Hub.opWaits_fields (h : Hub) (page : Nat) (code : Nat) :
    (h.opWaits page code).now = h.now ∧ (h.opWaits page code).pins = h.pins ∧ (h.opWaits page code).boot = h.boot ∧
    (h.opWaits page code).regs = h.regs ∧ (h.opWaits page code).latch = h.latch ∧
    (h.opWaits page code).mmio = h.mmio ∧ (h.opWaits page code).ports = h.ports ∧
    (h.opWaits page code).dports = h.dports ∧ (h.opWaits page code).poolRd = h.poolRd ∧
    (h.opWaits page code).poolWr = h.poolWr ∧ (h.opWaits page code).lines = h.lines ∧
    (h.opWaits page code).tm = h.tm ∧ (h.opWaits page code).cache = h.cache ∧ (h.opWaits page code).amap = h.amap ∧
    (h.opWaits page code).ras = h.ras ∧ (h.opWaits page code).pages = h.pages ∧
    (h.opWaits page code).tricks = h.tricks ∧ (h.opWaits page code).pcs = h.pcs ∧ (h.opWaits page code).stk = h.stk ∧
    (h.opWaits page code).dma = h.dma ∧ (h.opWaits page code).hmm = h.hmm ∧ (h.opWaits page code).far = h.far ∧
    (h.opWaits page code).sec = h.sec ∧ (h.opWaits page code).journal = h.journal ∧
    (h.opWaits page code).therm = h.therm ∧ (h.opWaits page code).perf = h.perf ∧ (h.opWaits page code).irq = h.irq ∧
    (h.opWaits page code).mem = h.mem ∧ (h.opWaits page code).flash = h.flash := by
  unfold Hub.opWaits
  try dsimp only
  (repeat' split) <;> simp

end Sys2Proof.Machine
end

