-- ==== Sys2Proof/Laws/Ops.lean ====
section
/-!
SUPPORT. What the shared operations do: registers and tables read after a write, interrupts, journal submissions, long operations, the
three ways a command changes the block (onHub, onHubIf, onStack), and the canonical form of the stacks' bytes and of the flash.
-/
namespace Sys2Proof.Machine

/-! Registers -/

theorem Hub.rd_wr (h : Hub) (p o p' o' : Nat) (v : Word) :
    (h.wr p o v).rd p' o' = if 4096 * p' + o' = 4096 * p + o then v else h.rd p' o' := by
  simp only [Hub.rd, Hub.wr, SMap.get_set]

@[simp] theorem Hub.rd_wr_same (h : Hub) (p o : Nat) (v : Word) : (h.wr p o v).rd p o = v := by simp [Hub.rd_wr]

theorem Hub.rd_wr_ne (h : Hub) {p o p' o' : Nat} (v : Word) (hn : 4096 * p' + o' ≠ 4096 * p + o) :
    (h.wr p o v).rd p' o' = h.rd p' o' := by simp [Hub.rd_wr, hn]

/-- Registers read alike where the register file is the same. -/
theorem Hub.rd_of_regs {h h' : Hub} (e : h'.regs = h.regs) (p o : Nat) : h'.rd p o = h.rd p o := by simp only [Hub.rd, e]

theorem Hub.rd_wrFld (h : Hub) (p o lo n v p' o' : Nat) :
    (h.wrFld p o lo n v).rd p' o' =
      if 4096 * p' + o' = 4096 * p + o then putBits (h.rd p o) lo n v else h.rd p' o' := by
  simp only [Hub.wrFld, Hub.rd_wr]

/-- An interrupt cause is set in PAGE_IRQ_STATUS, and no other register changes. -/
theorem Hub.rd_raise (h : Hub) (p n p' o' : Nat) :
    (h.raise p n).rd p' o' = if 4096 * p' + o' = 4096 * p + 0x10 then putBit (h.rd p 0x10) n true else h.rd p' o' := by
  unfold Hub.raise
  dsimp only
  split
  · rw [Hub.rd_of_regs (Hub.msi_fields _ _).2.2.2.1, Hub.rd_wr]
  · rw [Hub.rd_wr]

/-! Tables -/

theorem Hub.port_putPort (h : Hub) (p q : Nat) (v : Port) : (h.putPort p v).port q = if q = p then v else h.port q := by
  simp only [Hub.port, Hub.putPort, SMap.get_set]
theorem Hub.part_putPart (h : Hub) (p q : Nat) (v : PartCfg) : (h.putPart p v).part q = if q = p then v else h.part q := by
  simp only [Hub.part, Hub.putPart, SMap.get_set]
theorem Hub.way_putWay (h : Hub) (p q : Nat) (v : Way) : (h.putWay p v).way q = if q = p then v else h.way q := by
  simp only [Hub.way, Hub.putWay, SMap.get_set]
theorem Hub.trick_putTrick (h : Hub) (p q : Nat) (v : Trick) : (h.putTrick p v).trick q = if q = p then v else h.trick q := by
  simp only [Hub.trick, Hub.putTrick, SMap.get_set]
theorem Hub.pc_putPc (h : Hub) (p q : Nat) (v : Pc) : (h.putPc p v).pc q = if q = p then v else h.pc q := by
  simp only [Hub.pc, Hub.putPc, SMap.get_set]
theorem Hub.stack_putStack (h : Hub) (p q : Nat) (v : Stack) : (h.putStack p v).stack q = if q = p then v else h.stack q := by
  simp only [Hub.stack, Hub.putStack, SMap.get_set]
theorem Hub.dmaCh_putDma (h : Hub) (p q : Nat) (v : Dma) : (h.putDma p v).dmaCh q = if q = p then v else h.dmaCh q := by
  simp only [Hub.dmaCh, Hub.putDma, SMap.get_set]
theorem Hub.hmmIf_putHmm (h : Hub) (p q : Nat) (v : Hmm) : (h.putHmm p v).hmmIf q = if q = p then v else h.hmmIf q := by
  simp only [Hub.hmmIf, Hub.putHmm, SMap.get_set]
theorem Hub.farPort_putFarPort (h : Hub) (p q : Nat) (v : FarPort) :
    (h.putFarPort p v).farPort q = if q = p then v else h.farPort q := by
  simp only [Hub.farPort, Hub.putFarPort, SMap.get_set]
theorem Hub.pair_putPair (h : Hub) (p q : Nat) (v : Pair) : (h.putPair p v).pair q = if q = p then v else h.pair q := by
  simp only [Hub.pair, Hub.putPair, SMap.get_set]
theorem Hub.gate_putGate (h : Hub) (p q : Nat) (v : GateList) : (h.putGate p v).gate q = if q = p then v else h.gate q := by
  simp only [Hub.gate, Hub.putGate, SMap.get_set]
theorem Hub.policer_putPolicer (h : Hub) (p q : Nat) (v : Policer) :
    (h.putPolicer p v).policer q = if q = p then v else h.policer q := by
  simp only [Hub.policer, Hub.putPolicer, SMap.get_set]
theorem Hub.shaper_putShaper (h : Hub) (p q : Nat) (v : Shaper) : (h.putShaper p v).shaper q = if q = p then v else h.shaper q := by
  simp only [Hub.shaper, Hub.putShaper, SMap.get_set]
theorem Hub.source_putSource (h : Hub) (p q : Nat) (v : Source) : (h.putSource p v).source q = if q = p then v else h.source q := by
  simp only [Hub.source, Hub.putSource, SMap.get_set]
theorem Hub.opOf_putLongOp (h : Hub) (p q : Nat) (v : Option LongOp) : (h.putLongOp p v).opOf q = if q = p then v else h.opOf q := by
  simp only [Hub.opOf, Hub.putLongOp, SMap.get_set]

/-! Journal submissions -/

/-- An H, C or K entry is appended to the queue and nothing else changes. -/
theorem Hub.submit_journal (h : Hub) (typ : Nat) (critical : Bool) (payload : List Byte) :
    (h.submit typ critical payload).journal =
      { h.journal with queue := h.journal.queue ++ [⟨BitVec.ofNat 16 typ, if critical then 1 else 4, false, payload⟩] } := rfl

/-- An event that has to leave a C entry either waits, or takes its effect. -/
theorem Hub.withRoom_cases (h : Hub) (f : Hub → Hub) : h.withRoom f = h ∨ h.withRoom f = f h := by
  unfold Hub.withRoom
  dsimp only
  split
  · exact .inl rfl
  · exact .inr rfl

/-- With room in the journal's queue an event takes its effect. -/
theorem Hub.withRoom_free {h : Hub} (f : Hub → Hub) (hr : h.journalFull = false) : h.withRoom f = f h := by
  simp [Hub.withRoom, hr]

/-! Long operations -/

/-- A begun operation is in progress under its opcode and index; FAULT is clear, PAGE_OP holds the opcode. -/
theorem Hub.beginOp_opOf (h : Hub) (page opcode index : Nat) :
    (h.beginOp page opcode index).opOf page = some ⟨opcode, 0, index, false⟩ := by
  simp only [Hub.beginOp, Hub.opOf_putLongOp, if_true]

/-- A long operation that ends leaves none in progress. -/
theorem Hub.endOp_opOf (h : Hub) (page code : Nat) (o : LongOp) (c : PageClass) (ho : h.opOf page = some o)
    (hc : pageClass page = some c) : (h.endOp page code).opOf page = none := by
  unfold Hub.endOp
  rw [ho, hc]
  simp only [Hub.opOf, Hub.raise_fields, Hub.wrFld_fields, Hub.putLongOp, SMap.get_set_same]

/-! How commands change the block -/

/-- A command that changes the hub completes; the queue, the fuses and the trip pin stay. -/
theorem onHub_next {s t : State} {f : Hub → Hub} : onHub s f = .next t ↔ t = { s with hub := f s.hub } := by
  simp [onHub, eq_comm]

theorem onHubIf_next {ok : Bool} {s t : State} {f : Hub → Hub} :
    onHubIf ok s f = .next t ↔ ok = true ∧ t = { s with hub := f s.hub } := by
  unfold onHubIf
  split <;> simp_all [onHub, eq_comm]

theorem onStack_next {s t : State} {st : Nat} {f : Hub → Hub} :
    onStack s st f = .next t ↔ s.hub.pins.stackFit.getLsbD st = true ∧ t = { s with hub := f s.hub } := by
  unfold onStack
  by_cases h : s.hub.pins.stackFit.getLsbD st = true
  · rw [if_pos h, onHub_next, and_iff_right h]
  · rw [if_neg h]
    exact ⟨fun e => by simp at e, fun e => absurd e.1 h⟩

/-- A write of a register changes the hub only, or runs the operation that GO names. -/
theorem writeReg_cases (init : Initiator) (page off : Nat) (data : Word) (s : State) :
    (∃ run, opOfCode init page (bitsNat data 0 8) = some run ∧ off = 0x1C ∧ bit data 31 = true ∧
      writeReg init page off data s = run s) ∨
    writeReg init page off data s = onHub s (fun h => h.regWrite s.fuses init page off data) := by
  unfold writeReg
  split
  · next run hr =>
    left
    split at hr
    · next h => exact ⟨run, hr, h.1, h.2, rfl⟩
    · exact absurd hr (by simp)
  · exact .inr rfl

/-! Stored bytes -/

/-- A code word written keeps the canonical form of the stacks' bytes. -/
theorem Hub.putCode_wf (h : Hub) (ps off sector : Nat) (w : Code) (hm : Memory.wf h.mem = true) :
    Memory.wf (h.putCode ps off sector w).mem = true := by
  unfold Hub.putCode
  dsimp only
  generalize (leBytes 72 w.toNat).zipIdx = l
  generalize h.mem = m at hm
  induction l generalizing m with
  | nil => exact hm
  | cons a l ih => exact ih _ (SMap.wf_set _ _ hm)

/-- Programmed flash keeps its canonical form. -/
theorem Hub.putFlash_wf (h : Hub) (a : Nat) (bs : List Byte) (hm : SMap.wf (fun _ => 0xFF) h.flash = true) :
    SMap.wf (fun _ => 0xFF) (h.putFlash a bs).flash = true := by
  unfold Hub.putFlash
  dsimp only
  generalize bs.zipIdx = l
  generalize h.flash = m at hm
  induction l generalizing m with
  | nil => exact hm
  | cons b l ih => exact ih _ (SMap.wf_set _ _ hm)

/-- Erased flash keeps its canonical form. -/
theorem Hub.eraseFlash_wf (h : Hub) (a n : Nat) (hm : SMap.wf (fun _ => 0xFF) h.flash = true) :
    SMap.wf (fun _ => 0xFF) (h.eraseFlash a n).flash = true := by
  dsimp only [Hub.eraseFlash]
  exact SMap.wf_dropIf _ hm

/-- The stacks' bytes and the flash are canonical at reset. -/
theorem reset_stores_wf : Memory.wf State.reset.hub.mem = true ∧ SMap.wf (fun _ => 0xFF) State.reset.hub.flash = true := ⟨rfl, rfl⟩

end Sys2Proof.Machine
end

