-- ==== Sys2Proof/Tests/Slice0.lean ====
section
/-!
SUPPORT. Tests of the model: ill-formed commands, a witness for every statement with hypotheses, and single steps. A witness names the
statement and, where it has several clauses, the clause: a state and operands that meet the clause's hypotheses together.
-/
namespace Sys2Proof.Tests
open Sys2Proof Sys2Proof.Machine
set_option Elab.async false

/-! Small states -/

/-- The hub in service: resets released, eight stacks fitted, S7 ended; nothing configured. -/
def up : Hub := (Hub.reset.setPins { Hub.reset.pins with porst := false, stackFit := 0xFF }).setBoot { Hub.reset.boot with ended := 8 }

/-- A hub of a bring-up in which n stages have ended. -/
def ended (n : Nat) : Hub := up.setBoot { up.boot with ended := n, go := true }

def stateOf (h : Hub) : State := { State.reset with hub := h }

def hd : Header := ⟨0, 0, false, false, 0, 0, 0, 0, false, 0, 0, 0, 0, 0, 0, 0, 0, 0⟩
def part0 : PartCfg := { PartCfg.off with units := 1, ports := 1, count := 1, enabled := true }
/-- Partition 0 with one slab and a window of one unit at address 0, and port 0 with credits. -/
def mapped : Hub := ((up.putPart 0 part0).putPort 0 { Port.empty with rdHeld := 4, wrHeld := 4 }).setAmap
  { (up.putPart 0 part0).amap with dens := 1, sids := 1 }
def req0 : Req := ⟨1, .port 0, hd, [], 0, 1, .local 0, .arbiter, [], false, 0, 0⟩
def op0 : LineOp := ⟨1, .read, .port 0, 1, 0, 0, 0, hd, 0, 0, 0, 0, false, 0, false, 0, false, false⟩
def fetch0 : Fetch := ⟨1, .fill, 0, 0, 0, 0, 0, 0, 0, [], 0, 0, false, none, none⟩
def trick0 : Trick := { Trick.free with st := 1, lines := [⟨0, 1, 0x55⟩] }
def burst0 : Burst := ⟨0, 0, 1, [], [], [], [], 0, false, 0⟩
def frame0 (t : BitVec 4) : Frame := Frame.plain t 5 0 0 []
def pair0 : Pair := { Pair.empty with st := 2, rdCrd := 4, wrCrd := 4, txKey := some 1, rxKey := some 2, master := some 3 }
/-- Far-port 0 UP, and pair 5 on it. -/
def paired : Hub := (up.putFarPort 1 { FarPort.down with st := 2, linkUp := true }).putPair 5 pair0
def opEnd0 : OpEnd := ⟨false, 0, ⟨true, 8, 16, true⟩, ⟨0, 0, 0, 0⟩, []⟩
def withOp (page opcode index : Nat) : Hub := up.putLongOp page (some ⟨opcode, 0, index, false⟩)

/-- Two stages ended, every TIMING register written. -/
def timed : Hub :=
  (List.range 8).foldl (fun h st => timingFields.foldl (fun h f => h.wrFld (pStk st) f.1 f.2.1 f.2.2 1) h) (ended 2)
def waiting1 : Hub := { mapped with now := 200, lines := { mapped.lines with reqs := [req0] } }
def reducing : Hub := (mapped.setLines { mapped.lines with ordered := [{ op0 with kind := .reduce }] }).putWay 0
  { Way.invalid with st := .reducing, v := 15 }
def fetching (k : FetchKind) : Hub := mapped.setLines { mapped.lines with
  ordered := [op0], fetches := [if k = .narrow then { fetch0 with kind := k, op := 1 } else { fetch0 with kind := k }] }
def judged (k : FetchKind) : Found × Hub :=
  let f : Fetch := if k = .narrow then { fetch0 with kind := k, op := 1 } else { fetch0 with kind := k }
  (fetching k).judge f []
def target0 : LineOp × Hub := reducing.readTarget { op0 with kind := .reduce }
def computed0 : Line × Hub := target0.2.computeUpdate target0.1 (target0.2.way 0).data
/-- The word of a void line of slab 0. -/
def voidWord (off : Nat) : MetaWord := ⟨0, off, { Meta.zero with void := true }, false, 0⟩
def withWords (h : Hub) (ws : List MetaWord) : Hub := h.setCache { h.cache with words := ws }
theorem open_passes : (mapped.accept 0 { hd with opcode := 3 } []).2.passesAtOnce (mapped.accept 0 { hd with opcode := 3 } []).1 0 := by
  intro r h
  have e : (((mapped.accept 0 { hd with opcode := 3 } []).2).choose 0).findReq (mapped.accept 0 { hd with opcode := 3 } []).1 = none := by
    decide +kernel
  cases e.symm.trans h

def wb0 : WbEntry := ⟨0, 0, 0, 15, 0x55, [], false, []⟩
/-- Partition 0 MANAGED, with a table of eight pages limited to four. -/
def managed : Hub :=
  let h := (((mapped.putPart 0 { part0 with cfg := 1 }).putTable 0 { PageTable.unbuilt with built := true, w := 8, p := 8 }).wr
    pPagemgr 0x90 1)
  h.setPages { h.pages with limit := [(0, 4)] }
/-- A page move from page 0 to page 1 whose locks are placed and whose lines are void. -/
def move0 : PageMove := ⟨0, 0, 0, 1, 0, 0, []⟩
def mtrick0 : ITrick := ⟨0, some 0, 0, move0.lines, []⟩
def moving : Hub :=
  let h := withWords managed ((managed.moveItems move0).map (fun i => ⟨i.slab, i.off, { Meta.zero with void := true }, false, 0⟩))
  (h.setPages { h.pages with itricks := [mtrick0] }).putMove 0 (some move0)
def rd0 : RdEntry := ⟨1, 0, 4, 0, false, 3, false, some 0, 0, none, none, false, none⟩
def dumping (n : Nat) : Hub := ((up.setPerf { up.perf with ticks := 1, dump := { Dump.idle with step := n } }).wr pPerf 0x74 1).wr pPerf 0x8C 1
def desc0 : List Word := [0, 64, 0x1000, 0, 0x2000, 0, 0, 0, 0, 0, 0, 0, 0, 0, 0, 0]
def sent0 (p : ReqPhase) : Req := { req0 with phase := p, target := .peer 5 7 0 }
def awaiting : Hub := paired.setLines { paired.lines with reqs := [sent0 .sent] }
def arrival0 : Arrival := ⟨4, 1, frame0 1, 0, 1, [(0, 0)], [(0, [0])]⟩
def offer0 : Offer := ⟨1, 0, 9, 0, 0, true⟩
def wipe0 : Wipe := ⟨0, [6], 1, 2, 0, 0⟩
def entry0 : JEntry := ⟨0x14, 4, false, [0]⟩
def rowAt (c : PageClass) (o : Nat) : RegRow := (findRow c.rows o).getD ⟨0, 0, 0, 0, 0, 0, 0, 0, 0, 0⟩

/-- A trip whose flush waits for a line of a chunk that is not FILLED. -/
def dirtyTrip : Hub := (mapped.putWay 0 { Way.invalid with st := .valid, v := 15, m := 15 }).setTherm { mapped.therm with trip := 2 }
def mig0 : Migration := ⟨0, 0, 1, 0, 0, [], 3, 1⟩
def migrating : Hub := mapped.setRas { mapped.ras with migs := [mig0] }
def dumpable : Hub := ((mapped.wr pPerf 0x74 1).wr pPerf 0x80 1).putLongOp pPerf (some ⟨1, 0, 0, false⟩)
def building : Hub := (mapped.putPart 0 { part0 with cfg := 1, enabled := false }).putLongOp pPagemgr (some ⟨1, 0, 0, false⟩)
def readmitting : Hub := ((withOp pRas 1 0).putPslab 0 { PSlab.absent with st := 4 }).putPc 0 { Pc.untrained with st := 1 }

theorem holdHead_waiting : waiting1.holdHead 0 = some req0 := by
  have e : ((((List.range 8).map (fun c => (waiting1.waiting 0).filter (fun r => !r.scav && r.hdr.cls.toNat == c)) ++
      [(waiting1.waiting 0).filter (·.scav)]).flatMap heads).filter
      (fun r => r.src.isPort && !lineBlocked (waiting1.waiting 0) r)) = [req0] := by decide +kernel
  simp only [Hub.holdHead, e, List.mergeSort_singleton, List.head?_cons]

def enabling : Hub := ((mapped.putPart 0 { part0 with enabled := false, units := 124 }).putLslab 0 { LSlab.unused with st := 1 }).putLongOp pPart
  (some ⟨1, 0, 0, false⟩)

/-- Far-port 1 is UP outside any frame, the hub has number 0, and pair 5 expects frame 0 under key 2. -/
def listens (h : Hub) : Bool :=
  !h.inReset && (h.farPort 1).st == 2 && !(h.farPort 1).inFrame && h.hubId == 0 && (h.pair 5).rxKeyOf 0 == some 2 && (h.pair 5).rxNext == 0

theorem tagOk_seal (k : BitVec 256) (f : Frame) (hp : f.payload = []) : tagOk k (sealFrame k f) = true := by
  have p : ∀ n, gcmCrypt k n f.payload = f.payload := by intro n; rw [hp]; rfl
  have e : (sealFrame k f).header = f.header := by unfold sealFrame Frame.header Frame.headerNat; simp only [p]
  have n : frameNonce 0 (sealFrame k f) (sealFrame k f).counter.toNat = frameNonce 0 f f.counter.toNat := rfl
  unfold tagOk
  rw [e, n]
  simp only [sealFrame, p, beq_self_eq_true]
theorem crcOk_crc (f : Frame) : crcOk (crcFrame f) = true := beq_self_eq_true _

theorem heard_next (h : Hub) (t : BitVec 4) (e : listens h = true) : (stateOf h).hub.hearsNext 1 (sealFrame 2 (frame0 t)) 2 := by
  simp only [listens, Bool.and_eq_true, Bool.not_eq_true', beq_iff_eq] at e
  obtain ⟨⟨⟨⟨⟨a, b⟩, c⟩, d⟩, k⟩, n⟩ := e
  exact ⟨⟨a, b, c, d.symm⟩, k, tagOk_seal _ _ rfl, n.symm⟩

def keyxHead (op : Nat) : List Byte := [BitVec.ofNat 8 op, 0, 0, 0] ++ le32 1 ++ le64 7
def keyxNonce : List Byte := frameNonce 0xFFF (Frame.plain 11 5 0 0 []) 0
def keyxCt : List Byte := gcmCrypt 3 keyxNonce (bytesOf (9 : BitVec 256))
/-- What the receiver unwraps. -/
def unwrapped : BitVec 256 := BitVec.ofNat 256 (leNat (gcmCrypt 3 keyxNonce keyxCt))

theorem keyx_ct_length : keyxCt.length = 32 := by decide +kernel

theorem keyx_payload (op : Nat) :
    (keyxFrame 3 5 0 op 1 7 9 0).payload = keyxHead op ++ (keyxCt ++ gcmTag 3 keyxNonce (keyxHead op) keyxCt) :=
  List.append_assoc _ _ _

theorem keyx_opens (op : Nat) : keyxOpen 3 (keyxFrame 3 5 0 op 1 7 9 0) = some (1, 7, unwrapped) := by
  have hl : (gcmTag 3 keyxNonce (keyxHead op) keyxCt).length = 16 := by simp [gcmTag, beBytes]; rfl
  have ht : (keyxFrame 3 5 0 op 1 7 9 0).payload.take 16 = keyxHead op := by rw [keyx_payload]; exact List.take_left' rfl
  have hd : (keyxFrame 3 5 0 op 1 7 9 0).payload.drop 16 = keyxCt ++ gcmTag 3 keyxNonce (keyxHead op) keyxCt := by
    rw [keyx_payload]; exact List.drop_left' rfl
  have hc : (keyxCt ++ gcmTag 3 keyxNonce (keyxHead op) keyxCt).take 32 = keyxCt := List.take_left' keyx_ct_length
  have hg : (keyxFrame 3 5 0 op 1 7 9 0).payload.drop 48 = gcmTag 3 keyxNonce (keyxHead op) keyxCt := by
    rw [show (48 : Nat) = 16 + 32 from rfl, ← List.drop_drop, hd]; exact List.drop_left' keyx_ct_length
  have hn : (keyxFrame 3 5 0 op 1 7 9 0).payload.length = 64 := by
    rw [keyx_payload, List.length_append, List.length_append, hl, keyx_ct_length]; rfl
  simp only [keyxOpen, ht, hd, hc, hg, hn]
  rw [if_pos ⟨trivial, rfl⟩]
  rfl

/-! Ill-formed commands are refused -/

def refuses (i : Instr) : Prop := i.wf = false ∧ exec i (stateOf up) = .refused .illFormed

theorem test_wf_read : refuses (.read 0 { hd with opcode := 1 }) := ⟨rfl, rfl⟩
theorem test_wf_write : refuses (.write 0 hd []) := ⟨rfl, rfl⟩
theorem test_wf_write_flits : refuses (.write 0 { hd with opcode := 1 } [0, 0]) := ⟨rfl, rfl⟩
theorem test_wf_reduce : refuses (.reduce 0 hd []) := ⟨rfl, rfl⟩
theorem test_wf_trick_open : refuses (.trickOpen 0 hd) := ⟨rfl, rfl⟩
theorem test_wf_trick_write : refuses (.trickWrite 0 { hd with opcode := 4 } [0, 0]) := ⟨rfl, rfl⟩
theorem test_wf_trick_compare : refuses (.trickCompare 0 hd) := ⟨rfl, rfl⟩
theorem test_wf_trick_commit : refuses (.trickCommit 0 hd) := ⟨rfl, rfl⟩
theorem test_wf_trick_abort : refuses (.trickAbort 0 hd) := ⟨rfl, rfl⟩
theorem test_wf_page_release : refuses (.pageRelease 0 hd) := ⟨rfl, rfl⟩
theorem test_wf_clear_poison : refuses (.clearPoison 0 hd) := ⟨rfl, rfl⟩
theorem test_wf_rx_read : refuses (.rxReadFrame 0 (frame0 2)) := ⟨rfl, rfl⟩
theorem test_wf_rx_write : refuses (.rxWriteFrame 0 (frame0 1)) := ⟨rfl, rfl⟩
theorem test_wf_rx_reduce : refuses (.rxReduceFrame 0 (frame0 1)) := ⟨rfl, rfl⟩
theorem test_wf_rx_response : refuses (.rxResponseFrame 0 (frame0 1)) := ⟨rfl, rfl⟩
theorem test_wf_heartbeat : refuses (.rxHeartbeat 0 (frame0 9)) := ⟨rfl, rfl⟩
theorem test_wf_ack : refuses (.rxAck 0 (frame0 8)) := ⟨rfl, rfl⟩
theorem test_wf_nak : refuses (.rxNak 0 (frame0 8)) := ⟨rfl, rfl⟩
theorem test_wf_offer : refuses (.rxKeyxOffer 0 { frame0 11 with payload := [1] }) := ⟨rfl, rfl⟩
theorem test_wf_accept : refuses (.rxKeyxAccept 0 { frame0 11 with payload := [0] }) := ⟨rfl, rfl⟩
theorem test_wf_other_type : refuses (.otherTypeFrame 0 (frame0 8)) := ⟨rfl, rfl⟩
theorem test_wf_s2 : refuses (.stageS2Phy []) := ⟨rfl, rfl⟩
theorem test_wf_s3 : refuses (.stageS3Train []) := ⟨rfl, rfl⟩
theorem test_wf_s6 : refuses (.stageS6Far 0 []) := ⟨rfl, rfl⟩

/-- A parity error of an engine whose stack is not fitted cannot be reported (R403). -/
theorem test_no_stack : exec (.parityError 0 0) (stateOf (up.setPins { up.pins with stackFit := 0xFE })) = .fault .noStack := rfl

/-! Worked examples of the spec -/

/-- The first example of chapter 3: the set-table entry, the deck entry and HOME_SEG that it names. -/
def chapter3 : Hub :=
  let h := up.putPart 5 { PartCfg.off with enabled := true, first := 240, count := 48, units := 5952, base := 0x2000000000 }
  (h.setAmap { h.amap with dens := 1, setTable := [(260, 1172)], deck := [(5 * 4096 + 1095, 3)] }).putLslab 1172 ⟨1, 1189, 2⟩

theorem test_shuffle : chapter3.shuffle 5 3001697 = (1172, 62535) := by decide +kernel
theorem test_home_slice : chapter3.homeSlice 5 3001697 = 267 := by decide +kernel
theorem test_row_and_bank : rowOf 62535 = 977 ∧ bgOf 62535 = 0 ∧ bankOf 62535 = 0 := by decide +kernel
theorem test_metadata : metaOffset (dataLines 1) 62535 = 1017762 ∧ metaWord 62535 = 7 := by decide +kernel
theorem test_slab_units : 48 * slabUnits 1 = 5952 := by decide +kernel
theorem test_slab_channel : slabEngine 1189 = 4 * 32 + 20 ∧ slabPc 1189 % 2 = 1 ∧ slabSid 1189 = 1 := by decide +kernel
/-- The example of chapter 12. -/
theorem test_tweak : xtsTweak 1172 62535 2 = 0x49403D11E := by decide +kernel
/-- The example of chapter 16: the header of CHE page 0x194. -/
theorem test_page_id : up.show State.reset.fuses .che 0x194 0 = 0x40940001 ∧ up.show State.reset.fuses .che 0x194 4 = 2 := by decide +kernel
/-- ROR_CFG after reset, the example of chapter 14. -/
theorem test_ror_cfg : up.rd pTherm 0x60 = 0x0064180C := by decide +kernel

/-- A line in REDUCING whose first BF16 element holds t and receives ADD x (chapter 5). -/
def adding (t x : Line) : State :=
  stateOf ((mapped.setLines { mapped.lines with
    ordered := [{ op0 with kind := .reduce, hdr := { hd with fmt := 1, size := 2 }, en := 3, data := x }] }).putWay 0
      { Way.invalid with st := .reducing, v := 15, data := t })

/-- The first element of way 0 after a command. -/
def firstOf (o : Host.Outcome State Fault Refusal) : Option (BitVec 16) :=
  match o with
  | .next t => some ((t.hub.way 0).data.setWidth 16)
  | _ => none

theorem test_reduce_up : firstOf (exec (.reductionUpdateEnd 0 0) (adding 0x4349 0x3F40)) = some 0x434A := by decide +kernel
theorem test_reduce_tie : firstOf (exec (.reductionUpdateEnd 0 0) (adding 0x434A 0x3F00)) = some 0x434A := by decide +kernel

/-- The policer of the example of chapter 8 in its last state before red: 4 KiB, no green tokens left. -/
def policer8 : Policer := { Policer.off with cfg := 1, cfgNow := 1, cirNow := 0xC3500, pirNow := 0x186A00, cbsNow := 65536, pbsNow := 131072, tp := 65536 * 256 }
theorem test_policer_yellow : policer8.mark false 0 (4096 * 256) = (2, 0, 61440 * 256) := by decide +kernel
theorem test_policer_red : ({ policer8 with tp := 0 }).mark false 0 (4096 * 256) = (3, 0, 0) := by decide +kernel

/-- A stored sector with one flipped symbol is corrected (R326). -/
theorem test_code_corrects : rsDecode (rsEncode 0x1234 ^^^ 0xFF0000) = (.corrected, 0x1234) := by decide +kernel
theorem test_code_clean : rsDecode (rsEncode 0x1234) = (.clean, 0x1234) := by decide +kernel
/-- The check value of CRC-32C: "123456789". -/
theorem test_crc32c : crc32c [0x31, 0x32, 0x33, 0x34, 0x35, 0x36, 0x37, 0x38, 0x39] = 0xE3069283 := by decide +kernel

/-! The published standards, by their own examples (R8) -/

/-- FIPS 197, appendix C.3. -/
theorem test_aes256 : aes256 0x1f1e1d1c1b1a191817161514131211100f0e0d0c0b0a09080706050403020100 0xffeeddccbbaa99887766554433221100 =
    0x8960494b9049fceabf456751cab7a28e := by decide +kernel
/-- FIPS 180-4: the digest of "abc". -/
theorem test_sha384 : sha384 [0x61, 0x62, 0x63] = BitVec.ofNat 384 (leNat (beBytes 48
    0xcb00753f45a35e8bb5a03d699ac65007272c32ab0eded1631a8b605a43ff5bed8086072ba1e7cc2358baeca134c825a7)) := by decide +kernel
/-- The first AES-256 case of the GCM specification: no data under a zero key and nonce. -/
theorem test_gcm : gcmTag 0 (List.replicate 12 0) [] [] = beBytes 16 0x530f8afbc74536b9a963b4f1c4cb738b := by decide +kernel
/-- The base point of P-384 lies on its curve, and is the public key of 1 (FIPS 186). -/
theorem test_p384 : p384Gy ^ 2 % p384 = (p384Gx ^ 3 + (p384 - 3) * p384Gx + p384B) % p384 ∧
    ecdsaPublic 1 = beBytes 48 p384Gx ++ beBytes 48 p384Gy := by decide +kernel

/-! Words written out from the layouts of chapters 2 and 3 -/

/-- A WRITE of SIZE 2, PART 5, TAG 7 at 0x1000, byte 0 enabled (R56). -/
theorem test_header : Header.ofFlit (1 + 2 * 2 ^ 4 + 5 * 2 ^ 11 + 7 * 2 ^ 32 + 0x1000 * 2 ^ 64 + 1 * 2 ^ 256) =
    { hd with opcode := 1, size := 2, part := 5, tag := 7, addr := 0x1000, byteEn := 1 } := by decide +kernel
/-- A response NOT_READY for line 1 of request 7, without data (R64). -/
theorem test_response : (Response.toFlit ⟨7, 1, 4, 0, 0, [], true⟩) = 7 + 1 * 2 ^ 16 + 4 * 2 ^ 20 := by decide +kernel
/-- Sector 2 of offset 62,535 starts at column 14 of its row (R118). -/
theorem test_column : sectorCol 62535 2 = 14 := by decide +kernel
/-- An infinite value becomes the largest finite E5M2 number in a block-scaled format, infinity in E5M2 itself (R159, R170). -/
theorem test_infinity : blockElem 4 127 false (.inf false) = 0x7B ∧ convertElem 4 false (.inf false) = 0x7C := by decide +kernel

/-- What a step shows of the next state's hub. -/
def after (o : Host.Outcome State Fault Refusal) (f : Hub → Nat) : Option Nat :=
  match o with
  | .next t => some (f t.hub)
  | _ => none

/-- A slow pace window: 43,115 cycles (R38). -/
theorem test_pace_slow : after (exec (.paceWindowEnd 2 43115) (stateOf up)) (fun h => (h.rd pHub 0x118).toNat) = some 0xC000A86B := by
  decide +kernel
/-- A reading of exactly 105 °C does not start a trip, the second of 105.125 °C does (R432). -/
theorem test_trip : after (exec (.sensorRead 3 true 840) (stateOf (up.putSource 3 { Source.unread with hot := true }))) (·.therm.trip) = some 0 ∧
    after (exec (.sensorRead 3 true 841) (stateOf (up.putSource 3 { Source.unread with hot := true }))) (·.therm.trip) = some 1 := by
  decide +kernel
/-- A read of an unassigned page: DECODE, UNMAPPED_ERR (R474). -/
theorem test_unassigned : after (exec (.unassignedPageAccess .mgmt 0x3FFFFF none) (stateOf up)) (fun h => (h.rd pHub 0x58).toNat) =
    some 0x80000FFF := by decide +kernel
/-- The idle step moves time by one unit (log 1). -/
theorem test_idle : after (step (stateOf up)) (·.now) = some 1 := by decide +kernel
/-- The word 0 spells no command, so nothing is put at the front of the queue. -/
theorem test_no_words : decodeTableWord 8 0 = none := rfl

/-! Witnesses -/

theorem witness_StepRunsTheFrontCommand :
    ∃ (s : State) (c : Instr) (rest : List Instr),
    s.pending = c :: rest :=
  ⟨{ stateOf up with pending := [.rorCheck] }, .rorCheck, [], by decide +kernel⟩

theorem witness_QueueLosesOnlyItsFront_1 :
    ∃ (s : State) (t : State),
    step s = .next t :=
  ⟨{ stateOf up with pending := [.rorCheck] }, _, rfl⟩

theorem witness_QueueLosesOnlyItsFront_2 :
    ∃ (s : State),
    s.pending = [] :=
  ⟨stateOf up, by decide +kernel⟩

theorem witness_FusesOnlyGain :
    ∃ (s : State) (t : State),
    step s = .next t :=
  ⟨{ stateOf up with pending := [.rorCheck] }, _, rfl⟩

theorem witness_TripPinChanges :
    ∃ (i : Instr) (s : State) (t : State),
    exec i s = .next t :=
  ⟨.hubPorstAssert, stateOf up, _, rfl⟩

theorem witness_WellFormedCommandsComplete :
    ∃ (i : Instr) (s : State),
    i.wf = true ∧
    fitted i s :=
  ⟨.stackTempRead 2 true 40, stateOf up, by decide +kernel, fun st h => by cases h; decide +kernel⟩

theorem witness_StoresStayCanonical :
    ∃ (s : State) (t : State),
    s.hub.storesWf ∧
    step s = .next t :=
  ⟨{ stateOf up with pending := [.rorCheck] }, _, by unfold Hub.storesWf; decide +kernel, rfl⟩

theorem witness_Resets_2 :
    ∃ (s : State),
    s.hub.pins.porst = true ∧
    s.hub.pins.wrst = false :=
  ⟨State.reset, by decide +kernel⟩

theorem witness_Resets_3 :
    ∃ (s : State),
    s.hub.pins.porst = true ∧
    s.hub.pins.wrst = true :=
  ⟨stateOf (up.setPins { up.pins with porst := true, wrst := true }), by decide +kernel⟩

theorem witness_Resets_4 :
    ∃ (s : State),
    s.hub.inReset = false :=
  ⟨stateOf up, by decide +kernel⟩

theorem witness_Resets_5 :
    ∃ (s : State),
    s.hub.pins.wrst = true ∧
    s.hub.pins.porst = false :=
  ⟨stateOf (up.setPins { up.pins with wrst := true }), by decide +kernel⟩

theorem witness_StagesEnd_1 :
    ∃ (s : State),
    s.hub.inStage 0 = true :=
  ⟨stateOf (ended 0), by decide +kernel⟩

theorem witness_StagesEnd_2 :
    ∃ (s : State),
    s.hub.inStage 1 = true :=
  ⟨stateOf (ended 1), by decide +kernel⟩

theorem witness_StagesEnd_3 :
    ∃ (s : State) (reports : List StackReport),
    reports.length = 8 ∧
    s.hub.inStage 2 = true ∧
    s.hub.bootBit 6 = false ∧
    (∀ st, st < 8 → s.hub.zeroTiming st = false) :=
  ⟨stateOf timed, List.replicate 8 ⟨true, 8, 16, true⟩, by decide +kernel⟩

theorem witness_StagesEnd_4 :
    ∃ (s : State) (results : List TrainReport),
    results.length = 8 ∧
    s.hub.inStage 3 = true :=
  ⟨stateOf (ended 3), List.replicate 8 ⟨0, 0, 0, 0⟩, by decide +kernel⟩

theorem witness_StagesEnd_5 :
    ∃ (s : State),
    s.hub.inStage 4 = true :=
  ⟨stateOf (ended 4), by decide +kernel⟩

theorem witness_StagesEnd_6 :
    ∃ (s : State),
    s.hub.inStage 5 = true :=
  ⟨stateOf (ended 5), by decide +kernel⟩

theorem witness_StagesEnd_7 :
    ∃ (s : State) (lanes : List (BitVec 8)),
    lanes.length = 4 ∧
    s.hub.inStage 6 = true :=
  ⟨stateOf (ended 6), [0xFF, 0xFF, 0xFF, 0xFF], by decide +kernel⟩

theorem witness_StagesEnd_8 :
    ∃ (s : State),
    s.hub.inStage 7 = true ∧
    s.hub.reported7 = false :=
  ⟨stateOf (ended 7), by decide +kernel⟩

theorem witness_BootOperationsBegin_1 :
    ∃ (s : State) (init : Initiator),
    s.hub.starts init .boot pBoot ∧
    2 ≤ s.hub.boot.ended ∧
    s.hub.bootBit 11 = false :=
  ⟨stateOf (ended 2), .mgmt, by unfold Hub.starts Hub.takes; decide +kernel⟩

theorem witness_BootOperationsBegin_2 :
    ∃ (s : State) (init : Initiator),
    s.hub.starts init .boot pBoot ∧
    s.hub.bootBit 6 = true ∧
    s.hub.boot.go = false :=
  ⟨stateOf ((up.setBoot { up.boot with go := false }).wr pBoot 0x40 64), .mgmt, by unfold Hub.starts Hub.takes; decide +kernel⟩

theorem witness_BootOperationsBegin_3 :
    ∃ (s : State) (init : Initiator),
    s.hub.starts init .boot pBoot ∧
    s.hub.bootBit 7 = true ∧
    s.hub.bootBit 10 = false ∧
    (∀ st, st < 8 → bit (s.hub.rd (pStk st) 0x40) 2 = false) ∧
    (∀ c, c < 64 → (s.hub.dmaCh c).st = 0 ∨ (s.hub.dmaCh c).st = 1 ∨ (s.hub.dmaCh c).st = 4 ∨ (s.hub.dmaCh c).st = 6) ∧
    s.hub.therm.episode = false ∧
    s.hub.therm.exiting = false :=
  ⟨stateOf (up.wr pBoot 0x40 128), .mgmt, by unfold Hub.starts Hub.takes; decide +kernel⟩

theorem witness_BootOperationsBegin_4 :
    ∃ (s : State) (init : Initiator),
    s.hub.starts init .boot pBoot ∧
    s.hub.bootBit 7 = true ∧
    s.hub.bootBit 10 = false ∧
    (s.hub.stack (stackSel s.hub)).populated = true ∧
    s.hub.pins.pdAck.getLsbD (stackSel s.hub) = false ∧
    s.hub.stackLive (stackSel s.hub) = false :=
  ⟨stateOf ((up.wr pBoot 0x40 128).putStack 0 { Stack.absent with populated := true }), .mgmt, by unfold Hub.starts Hub.takes; decide +kernel⟩

theorem witness_SourcesAreRead_1 :
    ∃ (s : State) (st : BitVec 3),
    s.hub.pins.stackFit.getLsbD st.toNat = true ∧
    s.hub.inReset = false ∧
    s.hub.awake st.toNat = true :=
  ⟨stateOf (up.putStack 2 { Stack.absent with populated := true }), 2, by decide +kernel⟩

theorem witness_SourcesAreRead_2 :
    ∃ (s : State) (e : BitVec 12),
    s.hub.inReset = false ∧
    -320 ≤ e.toInt ∧
    e.toInt ≤ 1200 :=
  ⟨stateOf up, 1200, by decide +kernel⟩

theorem witness_SourcesAreRead_3 :
    ∃ (s : State) (ok : Bool) (e : BitVec 12),
    s.hub.inReset = false ∧
    (ok = false ∨ e.toInt < -320 ∨ 1200 < e.toInt) :=
  ⟨stateOf up, true, 1201, by decide +kernel⟩

theorem witness_SecondHotReadingTrips :
    ∃ (s : State) (i : BitVec 4) (e : BitVec 12),
    s.hub.inReset = false ∧
    840 < e.toInt ∧
    e.toInt ≤ 1200 ∧
    (s.hub.source i.toNat).hot = true ∧
    s.hub.therm.trip = 0 :=
  ⟨stateOf (up.putSource 3 { Source.unread with hot := true }), 3, 841, by decide +kernel⟩

theorem witness_ThrottlePowerAndPace_1 :
    ∃ (s : State) (r : Int),
    s.hub.inReset = false ∧
    s.hub.rmax = some r ∧
    bitsNat (s.hub.rd pTherm 0x60) 0 8 ≠ 0 ∧
    (2 * bitsNat (s.hub.rd pTherm 0x60) 0 8 : Nat) ≤ r ∧
    (bitsNat (s.hub.rd pTherm 0x60) 8 8 = 0 ∨ r < (2 * bitsNat (s.hub.rd pTherm 0x60) 8 8 : Nat)) ∧
    s.hub.throttle < 7 ∧
    9 ≤ s.hub.therm.sinceRise :=
  ⟨stateOf ((up.setTherm { up.therm with sinceRise := 9 }).putSource 0 ⟨[5, 0, 0, 0, 0, 0, 0, 0, 0, 0, 0], 40, true, false, false⟩ |>.wr pTherm 0x60 2), 5, by decide +kernel⟩

theorem witness_ThrottlePowerAndPace_2 :
    ∃ (s : State),
    s.hub.inReset = false :=
  ⟨stateOf up, by decide +kernel⟩

theorem witness_ThrottlePowerAndPace_3 :
    ∃ (s : State),
    s.hub.inReset = false ∧
    s.hub.therm.num ≠ 0 :=
  ⟨stateOf (up.setTherm { up.therm with sum := 5000, num := 1 }), by decide +kernel⟩

theorem witness_ThrottlePowerAndPace_4 :
    ∃ (s : State),
    s.hub.inReset = false :=
  ⟨stateOf up, by decide +kernel⟩

theorem witness_TripSteps_1 :
    ∃ (s : State),
    s.hub.therm.trip = 1 ∧
    s.hub.drained = true :=
  ⟨stateOf (up.setTherm { up.therm with trip := 1 }), by decide +kernel⟩

theorem witness_TripSteps_2 :
    ∃ (s : State) (h : Hub),
    s.hub.therm.trip = 2 ∧
    (s.hub.therm.episode && s.hub.therm.warn) = false ∧
    s.hub.therm.selfDone = false ∧
    s.hub.therm.exiting = false ∧
    s.hub.flushAll = (true, h) :=
  ⟨stateOf (up.setTherm { up.therm with trip := 2 }), ((up.setTherm { up.therm with trip := 2 }).flushAll).2, by decide +kernel⟩

theorem witness_TripSteps_3 :
    ∃ (s : State) (h : Hub),
    s.hub.therm.trip = 2 ∧
    (s.hub.therm.episode && s.hub.therm.warn) = false ∧
    s.hub.therm.selfDone = false ∧
    s.hub.therm.exiting = false ∧
    s.hub.flushAll = (false, h) :=
  ⟨stateOf dirtyTrip, (dirtyTrip.flushAll).2, by decide +kernel⟩

theorem witness_TripSteps_4 :
    ∃ (s : State),
    (s.hub.therm.trip = 1 ∨ s.hub.therm.trip = 2) :=
  ⟨stateOf (up.setTherm { up.therm with trip := 2 }), by decide +kernel⟩

theorem witness_SupplyEpisode_1 :
    ∃ (s : State),
    s.hub.inReset = false ∧
    s.hub.pins.supplyWarn = false ∧
    s.hub.therm.episode = false :=
  ⟨stateOf up, by decide +kernel⟩

theorem witness_SupplyEpisode_2 :
    ∃ (s : State),
    s.hub.inReset = false ∧
    s.hub.pins.supplyWarn = true :=
  ⟨stateOf (up.setPins { up.pins with supplyWarn := true }), by decide +kernel⟩

theorem witness_SupplyEpisode_3 :
    ∃ (s : State),
    s.hub.therm.episode = true ∧
    s.hub.therm.warn = true ∧
    s.hub.therm.selfDone = false :=
  ⟨stateOf (up.setTherm { up.therm with episode := true, warn := true }), by decide +kernel⟩

theorem witness_SupplyEpisode_4 :
    ∃ (s : State),
    s.hub.therm.episode = true ∧
    s.hub.therm.warn = true ∧
    s.hub.therm.selfDone = true ∧
    s.hub.therm.notReady = false :=
  ⟨stateOf (up.setTherm { up.therm with episode := true, warn := true, selfDone := true }), by decide +kernel⟩

theorem witness_SupplyEpisode_5 :
    ∃ (s : State),
    s.hub.therm.episode = true ∧
    s.hub.therm.warn = false ∧
    s.hub.therm.selfDone = true ∧
    s.hub.therm.trip < 3 :=
  ⟨stateOf (up.setTherm { up.therm with episode := true, selfDone := true }), by decide +kernel⟩

theorem witness_SupplyEpisode_6 :
    ∃ (s : State),
    s.hub.therm.exiting = true ∧
    s.hub.therm.trip < 3 :=
  ⟨stateOf (up.setTherm { up.therm with exiting := true }), by decide +kernel⟩

theorem witness_EpochTicks_1 :
    ∃ (s : State),
    s.hub.inReset = false ∧
    s.hub.fld pHub 0x178 0 1 = 0 :=
  ⟨stateOf up, by decide +kernel⟩

theorem witness_EpochTicks_2 :
    ∃ (s : State),
    s.hub.inReset = false ∧
    s.hub.fld pHub 0x178 0 1 = 1 :=
  ⟨stateOf (up.wr pHub 0x178 1), by decide +kernel⟩

theorem witness_EpochTicks_3 :
    ∃ (s : State),
    s.hub.inReset = false ∧
    s.hub.lost = false :=
  ⟨stateOf up, by decide +kernel⟩

theorem witness_EpochTicks_4 :
    ∃ (h : Hub) (k : Nat),
    SMap.wf (fun _ => Policer.off) h.tm.pol = true ∧
    bit (h.policer k).cfg 0 = bit (h.policer k).cfgNow 0 :=
  ⟨up.putPolicer 34 policer8, 34, by decide +kernel, by decide +kernel⟩

theorem witness_EpochTicks_5 :
    ∃ (h : Hub) (k : Nat),
    SMap.wf (fun _ => Shaper.off) h.tm.shp = true ∧
    bit (h.shaper k).cfg 0 = true :=
  ⟨up.putShaper 3 { Shaper.off with cfg := 1, burst := 64, rate := 256 }, 3, by decide +kernel⟩

theorem witness_GateListsAdvance_1 :
    ∃ (s : State) (l : BitVec 4),
    s.hub.dealDue l.toNat = false ∧
    s.hub.entryDue l.toNat = true :=
  ⟨stateOf (up.putGate 4 { GateList.idle with st := 2 }), 4, by decide +kernel⟩

theorem witness_GateListsAdvance_2 :
    ∃ (s : State) (l : BitVec 4),
    s.hub.dealDue l.toNat = true :=
  ⟨stateOf (up.putGate 4 { GateList.idle with st := 1 }), 4, by decide +kernel⟩

theorem witness_PortRequestsQueue_2 :
    ∃ (d : Header) (flits : List Sector),
    flits.length = d.flitsDue :=
  ⟨{ hd with opcode := 1, byteEn := 1 }, [0x77], by decide +kernel⟩

theorem witness_PortRequestsQueue_3 :
    ∃ (s : State) (port : BitVec 5) (hd : Header) (tgt : Target),
    hd.opcode = 0 ∧
    s.hub.inReset = false ∧
    hd.lineCount ≤ (s.hub.port port.toNat).held false ∧
    s.hub.closed = false ∧
    legal hd = true ∧
    s.hub.decode (.port port) hd = .ok tgt :=
  ⟨stateOf mapped, 0, hd, .local 0, by decide +kernel⟩

theorem witness_PortRequestsQueue_4 :
    ∃ (s : State) (port : BitVec 5) (hd : Header) (flits : List Sector) (tgt : Target),
    hd.opcode = 1 ∧
    s.hub.inReset = false ∧
    hd.lineCount ≤ (s.hub.port port.toNat).held true ∧
    flits.length = hd.flitsDue ∧
    s.hub.closed = false ∧
    legal hd = true ∧
    s.hub.decode (.port port) hd = .ok tgt ∧
    noBytes hd = false :=
  ⟨stateOf mapped, 0, { hd with opcode := 1, byteEn := 1 }, [0x77], .local 0, by decide +kernel⟩

theorem witness_PortRequestsQueue_5 :
    ∃ (s : State) (port : BitVec 5) (hd : Header) (flits : List Sector) (tgt : Target),
    hd.opcode = 2 ∧
    s.hub.inReset = false ∧
    hd.lineCount ≤ (s.hub.port port.toNat).held true ∧
    flits.length = hd.flitsDue ∧
    s.hub.closed = false ∧
    legal hd = true ∧
    s.hub.decode (.port port) hd = .ok tgt ∧
    noBytes hd = false :=
  ⟨stateOf (mapped.wr pArith 0x44 1), 0, { hd with opcode := 2, byteEn := 0xFFFFFFFF }, [0x77], .local 0, by decide +kernel⟩

theorem witness_ImmediateRequestsPass :
    ∃ (s : State) (port : BitVec 5) (hd : Header) (flits : List Sector) (id : Nat) (h : Hub),
    s.hub.accept port hd flits = (id, h) ∧
    id ≠ 0 ∧
    h.passesAtOnce id port :=
  ⟨stateOf mapped, 0, { hd with opcode := 3 }, [], (mapped.accept 0 { hd with opcode := 3 } []).1, (mapped.accept 0 { hd with opcode := 3 } []).2, Prod.mk.eta.symm, by decide +kernel, open_passes⟩

theorem witness_TrickRequestsActOnTheirSlot_1 :
    ∃ (h : Hub) (r : Req) (p : BitVec 5) (i : Nat),
    r.src = .port p ∧
    (List.range 64).find? (fun j => (h.trick (64 * (p.toNat / 8) + j)).st == 0) = some i :=
  ⟨up.putTrick 64 trick0, { req0 with src := .port 8 }, 8, 1, by decide +kernel⟩

theorem witness_TrickRequestsActOnTheirSlot_2 :
    ∃ (h : Hub) (r : Req),
    (h.trick r.hdr.trickId.toNat).owns r = true ∧
    (h.trick r.hdr.trickId.toNat).st = 1 ∧
    (h.trick r.hdr.trickId.toNat).tooLarge = 0 ∧
    (h.trick r.hdr.trickId.toNat).conds.length < 4 :=
  ⟨up.putTrick 0 trick0, req0, by decide +kernel⟩

theorem witness_TrickRequestsActOnTheirSlot_3 :
    ∃ (h : Hub) (r : Req),
    (h.trick r.hdr.trickId.toNat).owns r = true ∧
    (h.trick r.hdr.trickId.toNat).st = 1 ∧
    (h.trick r.hdr.trickId.toNat).tooLarge = 0 ∧
    (¬ ((h.trick r.hdr.trickId.toNat).lines = [] ∧ (h.trick r.hdr.trickId.toNat).conds = [])) :=
  ⟨up.putTrick 0 trick0, req0, by decide +kernel⟩

theorem witness_TrickRequestsActOnTheirSlot_4 :
    ∃ (h : Hub) (r : Req),
    (h.trick r.hdr.trickId.toNat).owns r = true ∧
    ((h.trick r.hdr.trickId.toNat).st = 1 ∨ (h.trick r.hdr.trickId.toNat).st = 3) :=
  ⟨up.putTrick 0 { trick0 with st := 3 }, req0, by decide +kernel⟩

theorem witness_PortErrorsAreRecorded_1 :
    ∃ (s : State),
    s.hub.inReset = false :=
  ⟨stateOf up, by decide +kernel⟩

theorem witness_PortErrorsAreRecorded_2 :
    ∃ (s : State),
    s.hub.inReset = false :=
  ⟨stateOf up, by decide +kernel⟩

theorem witness_ResponsesLeaveInOrder :
    ∃ (s : State) (port : BitVec 5) (r : Response) (rest : List Response),
    (s.hub.port port.toNat).out = r :: rest :=
  ⟨stateOf (mapped.putPort 0 { Port.empty with out := [⟨7, 0, 0, 0, 0, [], true⟩] }), 0, _, _, rfl⟩

theorem witness_TimeLimitsPassAndAnswer_1 :
    ∃ (s : State) (a : BitVec 4) (cycle : BitVec 3) (r : Req),
    cycle.toNat < 8 - s.hub.throttle ∧
    s.hub.holdHead a.toNat = some r ∧
    r.accepted + 100 ≤ s.hub.now :=
  ⟨stateOf waiting1, 0, 7, req0, by decide +kernel, holdHead_waiting, by decide +kernel⟩

theorem witness_TimeLimitsPassAndAnswer_2 :
    ∃ (s : State) (a : BitVec 4) (r : Req),
    s.hub.holdHead a.toNat = some r :=
  ⟨stateOf waiting1, 0, req0, holdHead_waiting⟩

theorem witness_TimeLimitsPassAndAnswer_3 :
    ∃ (s : State) (id : Nat) (o : LineOp),
    (s.hub.lines.ready ++ s.hub.lines.ordered.filter (fun o => o.kind == .read)).find? (fun o => o.id == id) = some o ∧
    (∀ c, o.src ≠ .remote c) ∧
    o.src ≠ .kitty :=
  ⟨stateOf (up.setLines { up.lines with ready := [op0] }), 1, op0, by decide +kernel, (fun c h => by cases h), by decide +kernel⟩

theorem witness_LineOperationsTakeTheirOrder_2 :
    ∃ (h : Hub) (o : LineOp),
    (o.kind = .read ∨ o.kind = .write ∨ (o.kind = .reduce ∧ bit (BitVec.ofNat 64 (h.rd64 pArith 0x44)) o.part.toNat = true)) :=
  ⟨mapped.wr pArith 0x44 1, { op0 with kind := .reduce }, by decide +kernel⟩

theorem witness_LineOperationsTakeTheirOrder_3 :
    ∃ (s : State) (id : Nat) (o : LineOp),
    s.hub.behindOwn o = true ∧
    s.hub.lines.ready.find? (fun x => x.id == id && (x.kind == .read && !x.hdr.narrow)) = some o :=
  ⟨stateOf (mapped.setLines { mapped.lines with ready := [{ op0 with id := 7 }, op0] }), 1, op0, by decide +kernel⟩

theorem witness_UpdatesAndFetchesEnd_1 :
    ∃ (s : State) (part : BitVec 6) (line : BitVec 34) (o : LineOp) (o' : LineOp) (k : Nat) (x : Line) (h : Hub) (h' : Hub),
    s.hub.lines.ordered.find? (fun o => o.part.toNat == part.toNat && o.line == line.toNat) = some o ∧
    o.kind = .reduce ∧
    s.hub.findWay part.toNat line.toNat = some k ∧
    (s.hub.way k).st = .reducing ∧
    s.hub.readTarget o = (o', h) ∧
    o'.sectors &&& ~~~(h.way k).v = 0 ∧
    h.computeUpdate o' (h.way k).data = (x, h') :=
  ⟨stateOf reducing, 0, 0, { op0 with kind := .reduce }, target0.1, 0, computed0.1, target0.2, computed0.2, by decide +kernel, rfl, by decide +kernel, by decide +kernel, Prod.mk.eta.symm, by decide +kernel, Prod.mk.eta.symm⟩

theorem witness_UpdatesAndFetchesEnd_2 :
    ∃ (s : State) (id : Nat) (errs : Flips) (f : Fetch) (r : Found) (h : Hub),
    s.hub.findFetch id = some f ∧
    f.got = f.want ∧
    (f.kind = .fill ∨ f.kind = .merge ∨ f.kind = .reduce ∨ f.kind = .wb ∨ f.kind = .clear) ∧
    s.hub.journalFull = false ∧
    s.hub.judge f errs = (r, h) ∧
    r.lost = [] ∧
    r.macFail = false :=
  ⟨stateOf (fetching .fill), 1, [], fetch0, (judged .fill).1, (judged .fill).2, by decide +kernel, rfl, .inl rfl, by decide +kernel, Prod.mk.eta.symm, by decide +kernel, by decide +kernel⟩

theorem witness_UpdatesAndFetchesEnd_3 :
    ∃ (s : State) (id : Nat) (errs : Flips) (f : Fetch) (w : Nat × Code) (i : Nat),
    s.hub.findFetch id = some f ∧
    f.got = f.want ∧
    f.kind = .word ∧
    s.hub.journalFull = false ∧
    (List.range 4).find? (bit f.want) = some i ∧
    f.words = [w] ∧
    (rsDecode (received w.2 errs w.1)).1 = .clean :=
  ⟨stateOf (mapped.setLines { mapped.lines with fetches := [{ fetch0 with kind := .word, want := 1, got := 1, words := [(0, 0)] }] }), 1, [], { fetch0 with kind := .word, want := 1, got := 1, words := [(0, 0)] }, (0, 0), 0, by decide +kernel⟩

theorem witness_UpdatesAndFetchesEnd_4 :
    ∃ (s : State) (id : Nat) (errs : Flips) (f : Fetch) (r : Found) (h : Hub) (o : LineOp),
    s.hub.findFetch id = some f ∧
    f.got = f.want ∧
    f.kind = .narrow ∧
    s.hub.journalFull = false ∧
    s.hub.judge f errs = (r, h) ∧
    r.lost = [] ∧
    r.macFail = false ∧
    (h.dropFetch id).lines.ordered.find? (fun o => o.id == f.op) = some o ∧
    ((h.dropFetch id).lineMeta f.part.toNat f.line).poison = false :=
  ⟨stateOf (fetching .narrow), 1, [], { fetch0 with kind := .narrow, op := 1 }, (judged .narrow).1, (judged .narrow).2, op0, by decide +kernel, rfl, rfl, by decide +kernel, Prod.mk.eta.symm, by decide +kernel, by decide +kernel, by decide +kernel, by decide +kernel⟩

theorem witness_WriteBackHandoff :
    ∃ (s : State) (part : BitVec 6) (line : BitVec 34) (errs : Flips) (e : WbEntry) (k : Nat) (off : Nat),
    s.hub.findWb part.toNat line.toNat = some e ∧
    s.hub.place part.toNat line.toNat = some (k, off) ∧
    let h := s.hub.askWrite e k off errs
    h.writeReady e k off = true ∧
    h.queueRoom e k off = true :=
  ⟨stateOf (withWords ((mapped.setCache { mapped.cache with wb := [wb0] }).setFilled 0 0) [⟨0, 0, Meta.zero, false, 0⟩]), 0, 0, [], wb0, 0, 0, by decide +kernel⟩

theorem witness_TricksDecide_1 :
    ∃ (s : State) (slot : BitVec 8),
    (s.hub.trick slot.toNat).st = 2 ∧
    (s.hub.trick slot.toNat).phase = 1 ∧
    let t := s.hub.trick slot.toNat
    let h := t.all.foldl (fun h l => h.gather t.part.toNat l (s.hub.trickCause t)) s.hub
    t.all.all (fun l => h.present t.part.toNat l) = true :=
  ⟨stateOf ((mapped.putTrick 0 { trick0 with st := 2, phase := 1 }).putWay 0 { Way.invalid with st := .valid, v := 15 }), 0, by decide +kernel⟩

theorem witness_TricksDecide_2 :
    ∃ (s : State) (slot : BitVec 8),
    (s.hub.trick slot.toNat).st = 2 ∧
    (s.hub.trick slot.toNat).phase = 2 ∧
    (∀ l ∈ (s.hub.trick slot.toNat).all, ∃ v ∈ (s.hub.trick slot.toNat).votes, v.1 = l) ∧
    (∀ v ∈ (s.hub.trick slot.toNat).votes, v.2 = .holds) ∧
    s.hub.roomFor (s.hub.trick slot.toNat).req (s.hub.newChunks (s.hub.trick slot.toNat)) = true ∧
    (s.hub.readLocked (s.hub.trick slot.toNat)).allPresent (s.hub.trick slot.toNat) = true :=
  ⟨stateOf ((mapped.putTrick 0 { trick0 with st := 2, phase := 2, votes := [(0, .holds)] }).putWay 0 { Way.invalid with st := .locked, v := 15 }), 0, by decide +kernel⟩

theorem witness_TricksDecide_3 :
    ∃ (s : State) (slot : BitVec 8),
    (s.hub.trick slot.toNat).st = 2 :=
  ⟨stateOf (mapped.putTrick 0 { trick0 with st := 2 }), 0, by decide +kernel⟩

theorem witness_TricksDecide_4 :
    ∃ (s : State) (slot : BitVec 8),
    (s.hub.trick slot.toNat).st = 1 ∧
    (s.hub.trick slot.toNat).limit ≠ 0 :=
  ⟨stateOf (mapped.putTrick 255 { trick0 with limit := 5 }), 255, by decide +kernel⟩

theorem witness_PageManagerWorks_1 :
    ∃ (s : State) (g : BitVec 2) (errs : Flips) (m : PageMove) (t : ITrick) (t' : ITrick),
    s.hub.moveIn g.toNat = some m ∧
    s.hub.bgTurn m.part.toNat = true ∧
    s.hub.journalFull = false ∧
    s.hub.moveTrick g.toNat = some t ∧
    let h := s.hub.putMove g.toNat (some m)
    h.pages.itricks.find? (fun x => x.ctx == t.ctx) = some t ∧
    let items := h.moveItems m
    let h := items.foldl (fun h i => h.askCopy t.ctx i) (h.dropLostReads t items errs)
    h.pages.itricks.find? (fun x => x.ctx == t.ctx) = some t' ∧
    (∀ i ∈ items, h.copyReady t' i = true) :=
  ⟨stateOf moving, 0, [], move0, mtrick0, mtrick0, by decide +kernel⟩

theorem witness_PageManagerWorks_2 :
    ∃ (s : State) (part : BitVec 6) (g : BitVec 2) (b : Nat) (w : Nat) (x : Nat),
    s.hub.bgTurn part.toNat = true ∧
    s.hub.moveIn g.toNat = none ∧
    s.hub.compacting part.toNat = true ∧
    s.hub.highestIn part.toNat g.toNat = some (b, w) ∧
    s.hub.lowestZero part.toNat true 0 (min b (s.hub.pageLimit part.toNat)) = some x :=
  ⟨stateOf (((managed.putRev 0 0 (mkRev 0 1)).putRev 0 4 (mkRev 0 2)).putFwd 0 0 (mkFwd 4 1 0)), 0, 0, 4, 0, 0, by decide +kernel⟩

theorem witness_PageManagerWorks_3 :
    ∃ (s : State) (part : BitVec 6) (b : Nat),
    s.hub.bgTurn part.toNat = true ∧
    ((bit (s.hub.rd pPagemgr 0x804) 0 = true ∧ s.hub.lowestDirty part.toNat true 0 (s.hub.table part.toNat).p = some b) ∨ (bit (s.hub.rd pPagemgr 0x804) 0 = false ∧ (∃ top, s.hub.topPage part.toNat = some top ∧ s.hub.pageLimit part.toNat ≤ top) ∧ s.hub.lowestZero part.toNat true 0 (s.hub.pageLimit part.toNat) = none ∧ s.hub.lowestDirty part.toNat true 0 (s.hub.pageLimit part.toNat) = some b)) :=
  ⟨stateOf (managed.wr pPagemgr 0x804 1), 0, 0, by decide +kernel, .inl (by decide +kernel)⟩

theorem witness_PageManagerWorks_4 :
    ∃ (s : State) (id : Nat) (o : LineOp),
    s.hub.lines.ready.find? (fun o => o.id == id && (o.kind == .write || o.kind == .reduce)) = some o ∧
    (s.hub.part o.part.toNat).managed = true ∧
    s.hub.behindOwn o = false ∧
    (s.hub.pageState o.part.toNat o.line = 0 ∨ s.hub.pageState o.part.toNat o.line = 3) :=
  ⟨stateOf (managed.setLines { managed.lines with ready := [{ op0 with kind := .write }] }), 1, { op0 with kind := .write }, by decide +kernel⟩

theorem witness_PageManagerWorks_5 :
    ∃ (s : State) (part : BitVec 6) (page : BitVec 26) (rel : PageRel),
    s.hub.pages.releases.find? (fun x => x.part.toNat == part.toNat && x.page == page.toNat) = some rel ∧
    (∀ o ∈ s.hub.lines.ordered, o.kind = .hold → o.req = rel.req → s.hub.firstOfLine o = true) :=
  ⟨stateOf ((managed.setLines { managed.lines with ordered := [{ op0 with kind := .hold }] }).setPages { managed.pages with releases := [⟨0, 0, 1⟩] }), 0, 0, ⟨0, 0, 1⟩, by decide +kernel⟩

theorem witness_MigrationBatches_2 :
    ∃ (h : Hub) (g : Nat) (c : Nat) (a : Tries) (ls : List (Nat × Nat)),
    h.freeItrick g = some c ∧
    a.blocked = [] ∧
    a.n < 4 ∧
    h.anyReserved ls = false ∧
    h.lockers ls = [] ∧
    h.linesBusy ls = false :=
  ⟨mapped, 0, 0, ⟨0, []⟩, [(0, 3)], by decide +kernel⟩

theorem witness_ChunksFill_1 :
    ∃ (s : State) (slab : BitVec 11) (region : BitVec 8) (chunk : BitVec 6),
    s.hub.isPending slab.toNat (region.toNat * 8192 + chunk.toNat * 128) = true ∧
    s.hub.chunkHeld slab.toNat (region.toNat * 8192 + chunk.toNat * 128) = false :=
  ⟨stateOf (mapped.setRas { mapped.ras with pendChunks := [⟨0, 0, 0, 0, 0⟩] }), 0, 0, 0, by decide +kernel⟩

theorem witness_ChunksFill_2 :
    ∃ (s : State) (slab : BitVec 11) (region : BitVec 8) (c : Nat),
    s.hub.chunkMap slab.toNat (region.toNat * 8192) ≠ 0 ∧
    (s.hub.slabOwner slab.toNat).isSome = true ∧
    region.toNat * 8192 < s.hub.bigD ∧
    (List.range 64).find? (fun c => s.hub.chunkState slab.toNat (region.toNat * 8192 + 128 * c) == .unfilled) = some c ∧
    s.hub.roomFor 0 [(slab.toNat, (region.toNat * 8192 + 128 * c) / 128, (s.hub.lslab slab.toNat).home)] = true :=
  ⟨stateOf (mapped.setFilled 0 128), 0, 0, 0, by decide +kernel⟩

theorem witness_ScrubberWalks_1 :
    ∃ (s : State) (st : BitVec 3) (ps : Nat) (off : Nat),
    s.hub.fld pRas 0x80 31 1 = 1 ∧
    s.hub.scrubbing st.toNat = false ∧
    s.hub.scrubStacks.contains st.toNat = true ∧
    s.hub.nextScrub st.toNat = some (ps, off) :=
  ⟨stateOf ((mapped.putPslab 512 { PSlab.absent with st := 1 }).wr pRas 0x80 0x80000000), 2, 512, 1015808, by decide +kernel⟩

theorem witness_ScrubberWalks_2 :
    ∃ (s : State) (st : BitVec 3) (errs : Flips) (f : Fetch),
    s.hub.lines.fetches.find? (fun f => f.kind == .scrub && slabStack f.ps == st.toNat && f.got == f.want) = some f ∧
    (∀ w ∈ f.words, (rsDecode (received w.2 errs w.1)).1 = .clean) :=
  ⟨stateOf (up.setLines { up.lines with fetches := [{ fetch0 with kind := .scrub, ps := 512, words := [(0, 0)] }] }), 2, [], { fetch0 with kind := .scrub, ps := 512, words := [(0, 0)] }, by decide +kernel⟩

theorem witness_RowRepairEnds :
    ∃ (s : State) (st : BitVec 3) (units : BitVec 16) (r : Repair),
    s.hub.pins.stackFit.getLsbD st.toNat = true ∧
    s.hub.ras.repairs.find? (fun r => slabStack r.ps == st.toNat && r.phase == 3) = some r ∧
    units.toNat ≤ 100 * s.hub.fld pRas 0x808 0 8 :=
  ⟨stateOf (up.setRas { up.ras with repairs := [⟨512, 0, 0, 0, 3⟩] }), 2, 100, ⟨512, 0, 0, 0, 3⟩, by decide +kernel⟩

theorem witness_SlotsAgesAndRefreshDebt_2 :
    ∃ (s : State) (e : BitVec 8) (pc : BitVec 1) (x : RdEntry),
    let i := 2 * e.toNat + pc.toNat
    (s.hub.pc i).queued.find? (fun e => decide (e.cand.level < 8)) = some x :=
  ⟨stateOf (up.putPc 1 { Pc.untrained with rd := [rd0] }), 0, 1, rd0, by decide +kernel⟩

theorem witness_SlotsAgesAndRefreshDebt_3 :
    ∃ (s : State) (e : BitVec 8) (pc : BitVec 1),
    let i := 2 * e.toNat + pc.toNat
    ((s.hub.pc i).st = 1 ∨ (s.hub.pc i).st = 2 ∨ (s.hub.pc i).st = 3) ∧
    (s.hub.pc i).windowAt ≤ 2 * (s.hub.pc i).slot :=
  ⟨stateOf (up.putPc 1 { Pc.untrained with st := 1, slot := 1024, windowAt := 2048 }), 0, 1, by decide +kernel⟩

theorem witness_ParityErrorsRecover :
    ∃ (s : State) (e : BitVec 8),
    s.hub.pins.stackFit.getLsbD (e.toNat / 32) = true :=
  ⟨stateOf up, 255, by decide +kernel⟩

theorem witness_SlicesAndTraining_1 :
    ∃ (s : State) (st : BitVec 3),
    s.hub.pins.stackFit.getLsbD st.toNat = true ∧
    s.hub.fld (pStk st.toNat) 0x58 31 1 = 1 ∧
    (s.hub.stack st.toNat).slice = 0 ∧
    (s.hub.stack st.toNat).opSlice = false ∧
    (s.hub.stack st.toNat).selfRefresh = false ∧
    s.hub.therm.episode = false ∧
    bit (s.hub.rd (pStk st.toNat) 0x40) 1 = true ∧
    (s.hub.sliceDue st.toNat).1 < (s.hub.sliceDue st.toNat).2 ∧
    (s.hub.stack st.toNat).nextData < 63 ∧
    (s.hub.pc (st.toNat * 64 + (s.hub.stack st.toNat).nextData)).serving = true :=
  ⟨stateOf (((up.putStack 0 { Stack.absent with populated := true, caDue := 5 }).putPc 0 { Pc.untrained with st := 1 }).wr (pStk 0) 0x58 0x80000064 |>.wr (pStk 0) 0x40 2), 0, by decide +kernel⟩

theorem witness_SlicesAndTraining_2 :
    ∃ (s : State) (st : BitVec 3) (lanes : List LaneReport),
    s.hub.pins.stackFit.getLsbD st.toNat = true ∧
    (s.hub.stack st.toNat).slice = 1 ∧
    (s.hub.stack st.toNat).drifts lanes = false ∧
    (s.hub.stack st.toNat).opSlice = false ∧
    s.hub.opOf (pStk st.toNat) = none ∧
    (s.hub.pc (st.toNat * 64 + (s.hub.stack st.toNat).slicePc)).st = 2 :=
  ⟨stateOf ((up.putStack 0 { Stack.absent with populated := true, slice := 1 }).putPc 0 { Pc.untrained with st := 2, prior := 1 }), 0, [], by decide +kernel⟩

theorem witness_SlicesAndTraining_3 :
    ∃ (s : State) (e : BitVec 8) (repaired : BitVec 8),
    s.hub.pins.stackFit.getLsbD (e.toNat / 32) = true ∧
    (s.hub.pc (2 * e.toNat)).st = 4 ∧
    s.hub.ras.pending = [] ∧
    (s.hub.sparing = true ∨ repaired = 0) :=
  ⟨stateOf (up.putPc 0 { Pc.untrained with st := 4 }), 0, 0, by decide +kernel⟩

theorem witness_DumpsAndAcknowledgements_1 :
    ∃ (s : State),
    s.hub.dumping = true ∧
    max 1 (s.hub.rd pPerf 0x74).toNat ≤ s.hub.perf.ticks ∧
    s.hub.therm.episode = false ∧
    s.hub.therm.trip = 0 ∧
    s.hub.perf.stopping = false ∧
    s.hub.perf.dump.step = 0 :=
  ⟨stateOf (dumping 0), by decide +kernel⟩

theorem witness_DumpsAndAcknowledgements_2 :
    ∃ (s : State),
    s.hub.dumping = true ∧
    max 1 (s.hub.rd pPerf 0x74).toNat ≤ s.hub.perf.ticks ∧
    s.hub.therm.episode = false ∧
    s.hub.therm.trip = 0 ∧
    s.hub.perf.stopping = false ∧
    s.hub.perf.dump.step ≠ 0 :=
  ⟨stateOf (dumping 1), by decide +kernel⟩

theorem witness_DumpsAndAcknowledgements_3 :
    ∃ (s : State),
    s.hub.perf.dump.step = 2 ∧
    s.hub.perf.dump.out = [] :=
  ⟨stateOf (dumping 2), by decide +kernel⟩

theorem witness_DumpsAndAcknowledgements_4 :
    ∃ (s : State),
    s.hub.perf.dump.step = 3 ∧
    s.hub.perf.dump.out = [] :=
  ⟨stateOf (dumping 3), by decide +kernel⟩

theorem witness_PowerDomains_1 :
    ∃ (s : State) (d : BitVec 4),
    bit s.hub.pins.pdReq d.toNat = false ∧
    s.hub.inReset = false ∧
    s.hub.afterS7 = true ∧
    d.toNat < 8 :=
  ⟨stateOf up, 7, by decide +kernel⟩

theorem witness_PowerDomains_2 :
    ∃ (s : State) (d : BitVec 4),
    bit s.hub.pins.pdReq d.toNat = false ∧
    s.hub.inReset = false ∧
    s.hub.afterS7 = true ∧
    8 ≤ d.toNat :=
  ⟨stateOf up, 8, by decide +kernel⟩

theorem witness_PowerDomains_3 :
    ∃ (s : State) (d : BitVec 4),
    s.hub.inReset = false ∧
    bit s.hub.pins.pdReq d.toNat = true ∧
    bit s.hub.pins.pdAck d.toNat = false ∧
    bit s.hub.pins.pdNak d.toNat = false ∧
    d.toNat < 8 ∧
    s.hub.stackLive d.toNat = false :=
  ⟨stateOf (up.setPins { up.pins with pdReq := 0x80 }), 7, by decide +kernel⟩

theorem witness_PowerDomains_4 :
    ∃ (s : State) (d : BitVec 4),
    s.hub.inReset = false ∧
    bit s.hub.pins.pdReq d.toNat = true ∧
    bit s.hub.pins.pdAck d.toNat = false ∧
    bit s.hub.pins.pdNak d.toNat = false ∧
    8 ≤ d.toNat ∧
    (∀ c, (s.hub.touching d.toNat).contains c = true → (s.hub.dmaCh c).busy = false) :=
  ⟨stateOf (up.setPins { up.pins with pdReq := 0x100 }), 8, by decide +kernel, by decide +kernel, by decide +kernel, by decide +kernel, by decide +kernel, fun c h => by rw [show (stateOf (up.setPins { up.pins with pdReq := 0x100 })).hub.touching (8 : BitVec 4).toNat = [] from by decide +kernel] at h; cases h⟩

theorem witness_PowerDomains_5 :
    ∃ (s : State) (d : BitVec 4),
    bit s.hub.pins.pdReq d.toNat = true :=
  ⟨stateOf (up.setPins { up.pins with pdReq := 0x80 }), 7, by decide +kernel⟩

theorem witness_PowerDomains_6 :
    ∃ (s : State) (d : BitVec 4),
    bit s.hub.pins.pdReq d.toNat = true ∧
    bit s.hub.pins.pdAck d.toNat = true ∧
    s.hub.inReset = false ∧
    s.hub.afterS7 = true ∧
    d.toNat < 8 ∧
    (s.hub.stack d.toNat).populated = true :=
  ⟨stateOf ((up.setPins { up.pins with pdReq := 0x80, pdAck := 0x80 }).putStack 7 { Stack.absent with populated := true }), 7, by decide +kernel⟩

theorem witness_DmaChannelEvents_1 :
    ∃ (s : State) (c : BitVec 6) (l : Bool),
    s.hub.dmaReady c.toNat = true ∧
    s.hub.dmaWeight c.toNat ≠ 0 ∧
    (0 < (s.hub.dmaCh c.toNat).left ∨ ∀ x ∈ (s.hub.sampleLine c.toNat l).dmaRivals (c.toNat / 16), (s.hub.dmaCh x).left = 0) ∧
    (s.hub.dmaCh c.toNat).bursts = [] ∧
    s.hub.therm.episode = false ∧
    s.hub.therm.exiting = false ∧
    s.hub.pins.supplyWarn = false ∧
    (s.hub.fld (pDma c.toNat) 0x40 20 2 % 2 = 1 → l = true) ∧
    (2 ≤ s.hub.fld (pDma c.toNat) 0x40 20 2 → 0 < s.hub.fld (pDma c.toNat) 0x70 0 16) :=
  ⟨stateOf (up.putDma 0 { Dma.off with st := 2, desc := desc0 }), 0, true, by decide +kernel⟩

theorem witness_DmaChannelEvents_2 :
    ∃ (s : State) (c : BitVec 6) (l : Bool),
    s.hub.dmaReady c.toNat = true ∧
    (s.hub.dmaCh c.toNat).bursts = [] ∧
    ((s.hub.fld (pDma c.toNat) 0x40 20 2 % 2 = 1 ∧ l = false) ∨ (2 ≤ s.hub.fld (pDma c.toNat) 0x40 20 2 ∧ s.hub.fld (pDma c.toNat) 0x70 0 16 = 0)) :=
  ⟨stateOf ((up.putDma 0 { Dma.off with st := 2, desc := desc0 }).wr (pDma 0) 0x40 0x200000), 0, true, by decide +kernel⟩

theorem witness_DmaChannelEvents_4 :
    ∃ (s : State) (c : BitVec 6) (b : Burst),
    (s.hub.dmaCh c.toNat).bursts = [b] ∧
    (s.hub.dmaCh c.toNat).stopFor < 4 ∧
    b.phase = 1 ∧
    b.todo = [] ∧
    b.reqs = [] ∧
    b.code = 0 :=
  ⟨stateOf (up.putDma 63 { Dma.off with st := 2, desc := desc0, bursts := [burst0] }), 63, burst0, by decide +kernel⟩

theorem witness_DmaChannelEvents_5 :
    ∃ (s : State) (c : BitVec 6) (b : Burst),
    (s.hub.dmaCh c.toNat).bursts = [b] ∧
    (s.hub.dmaCh c.toNat).stopFor = 0 ∧
    b.phase = 2 ∧
    b.todo = [] ∧
    b.reqs = [] ∧
    b.code = 0 :=
  ⟨stateOf (up.putDma 63 { Dma.off with st := 2, desc := desc0, bursts := [{ burst0 with phase := 2 }] }), 63, { burst0 with phase := 2 }, by decide +kernel⟩

theorem witness_DmaChannelEvents_6 :
    ∃ (s : State) (c : BitVec 6) (b : Burst) (rest : List Burst),
    (s.hub.dmaCh c.toNat).bursts = b :: rest ∧
    b.phase = 0 ∧
    (s.hub.dmaCh c.toNat).stopFor < 4 ∧
    s.hub.therm.episode = false ∧
    s.hub.therm.exiting = false :=
  ⟨stateOf (up.putDma 63 { Dma.off with st := 2, desc := desc0, bursts := [{ burst0 with phase := 0 }] }), 63, { burst0 with phase := 0 }, [], by decide +kernel⟩

theorem witness_DmaChannelEvents_7 :
    ∃ (s : State) (c : BitVec 6) (x : Sector) (rest : List Sector),
    (s.hub.dmaCh c.toNat).fetch ≠ 0 ∧
    (s.hub.dmaCh c.toNat).fetchReq ≠ 0 ∧
    s.hub.findReq (s.hub.dmaCh c.toNat).fetchReq = none ∧
    (s.hub.dmaCh c.toNat).err = 0 ∧
    (s.hub.dmaCh c.toNat).got = x :: rest ∧
    x.getLsbD 31 = false :=
  ⟨stateOf (up.putDma 0 { Dma.off with st := 2, fetch := 2, fetchReq := 9, got := [0] }), 0, 0, [], by decide +kernel⟩

theorem witness_DmaChannelEvents_8 :
    ∃ (s : State) (c : BitVec 6) (x : Sector) (rest : List Sector),
    (s.hub.dmaCh c.toNat).fetch = 1 ∧
    (s.hub.dmaCh c.toNat).fetchReq ≠ 0 ∧
    s.hub.findReq (s.hub.dmaCh c.toNat).fetchReq = none ∧
    (s.hub.dmaCh c.toNat).err = 0 ∧
    (s.hub.dmaCh c.toNat).got = x :: rest ∧
    x.getLsbD 31 = true :=
  ⟨stateOf (up.putDma 0 { Dma.off with st := 2, fetch := 1, fetchReq := 9, got := [0x80000000] }), 0, 0x80000000, [], by decide +kernel⟩

theorem witness_DmaChannelEvents_9 :
    ∃ (s : State) (c : BitVec 6),
    (s.hub.dmaCh c.toNat).finish = 0 ∧
    ((s.hub.dmaCh c.toNat).st = 2 ∨ (s.hub.dmaCh c.toNat).st = 3) ∧
    (s.hub.dmaCh c.toNat).stopFor = 0 ∧
    (s.hub.dmaCh c.toNat).fetch = 0 ∧
    (s.hub.dmaCh c.toNat).desc ≠ [] ∧
    (s.hub.dmaCh c.toNat).bursts = [] ∧
    (s.hub.dmaCh c.toNat).total ≤ (s.hub.dmaCh c.toNat).pos :=
  ⟨stateOf (up.putDma 0 { Dma.off with st := 2, desc := desc0, pos := 64 }), 0, by decide +kernel⟩

theorem witness_DmaChannelEvents_10 :
    ∃ (s : State) (c : BitVec 6),
    (s.hub.dmaCh c.toNat).finish = 2 ∧
    (s.hub.dmaCh c.toNat).finishReq ≠ 0 ∧
    s.hub.findReq (s.hub.dmaCh c.toNat).finishReq = none ∧
    (s.hub.dmaCh c.toNat).err = 0 ∧
    (s.hub.dmaCh c.toNat).chain = false :=
  ⟨stateOf (up.putDma 0 { Dma.off with st := 2, desc := desc0, finish := 2, finishReq := 9 }), 0, by decide +kernel⟩

theorem witness_HostMemoryAnswers_1 :
    ∃ (s : State) (g : BitVec 2),
    s.hub.inReset = false ∧
    (s.hub.hmmIf g.toNat).waiting = [] :=
  ⟨stateOf up, 0, by decide +kernel⟩

theorem witness_HostMemoryAnswers_2 :
    ∃ (s : State),
    s.hub.inReset = false :=
  ⟨stateOf up, by decide +kernel⟩

theorem witness_HostMemoryAnswers_3 :
    ∃ (s : State) (g : BitVec 2) (tag : BitVec 16) (line : BitVec 4) (e : Nat × Nat × Nat × Header) (r : Req),
    (s.hub.hmmIf g.toNat).sent.find? (fun e => e.1 == tag.toNat) = some e ∧
    s.hub.findReq e.2.1 = some r ∧
    line.toNat < r.lines ∧
    r.answered.contains line.toNat = false :=
  ⟨stateOf ((up.putHmm 2 { Hmm.off with sent := [(4, 1, 0, hd)] }).setLines { up.lines with reqs := [{ req0 with phase := .hmm }] }), 2, 4, 0, (4, 1, 0, hd), { req0 with phase := .hmm }, by decide +kernel⟩

theorem witness_HostMemoryAnswers_4 :
    ∃ (s : State) (g : BitVec 2) (tag : BitVec 16) (e : Nat × Nat × Nat × Header),
    (s.hub.hmmIf g.toNat).sent.find? (fun e => e.1 == tag.toNat) = some e :=
  ⟨stateOf (up.putHmm 2 { Hmm.off with sent := [(4, 1, 0, hd)] }), 2, 4, (4, 1, 0, hd), by decide +kernel⟩

theorem witness_FramesAreSent_1 :
    ∃ (s : State) (id : Nat) (r : Req) (peer : BitVec 10) (e : BitVec 8) (off : Nat),
    s.hub.findReq id = some r ∧
    r.target = .peer peer e off ∧
    r.phase = .endpoint ∧
    (s.hub.pair peer.toNat).st = 2 ∧
    (if r.hdr.wrCredit then (s.hub.pair peer.toNat).wrCrd else (s.hub.pair peer.toNat).rdCrd) ≠ 0 ∧
    s.hub.mayTx peer.toNat = true ∧
    s.hub.sendBlocked peer.toNat r = false ∧
    s.hub.journalFull = false :=
  ⟨stateOf (paired.setLines { paired.lines with reqs := [sent0 .endpoint] }), 1, sent0 .endpoint, 5, 7, 0, by decide +kernel⟩

theorem witness_FramesAreSent_2 :
    ∃ (s : State) (id : Nat) (r : Req) (peer : BitVec 10) (e : BitVec 8) (off : Nat),
    s.hub.findReq id = some r ∧
    r.target = .peer peer e off ∧
    r.phase ≠ .failed :=
  ⟨stateOf (paired.setLines { paired.lines with reqs := [sent0 .sent] }), 1, sent0 .sent, 5, 7, 0, by decide +kernel⟩

theorem witness_FramesAreSent_3 :
    ∃ (s : State) (ctx : Nat) (a : Arrival),
    s.hub.far.arrivals.find? (fun a => a.ctx == ctx) = some a ∧
    a.lines ≤ a.codes.length ∧
    (s.hub.pair a.frame.srcHub.toNat).st = 2 ∧
    s.hub.mayTx a.frame.srcHub.toNat = true ∧
    s.hub.journalFull = false :=
  ⟨stateOf (paired.setFar { paired.far with arrivals := [arrival0] }), 4, arrival0, by decide +kernel⟩

theorem witness_FramesAreSent_4 :
    ∃ (s : State) (id : Nat) (o : LineOp) (ctx : Nat),
    (s.hub.lines.ready ++ s.hub.lines.ordered.filter (fun o => o.kind == .read)).find? (fun o => o.id == id) = some o ∧
    o.src = .remote ctx :=
  ⟨stateOf (up.setLines { up.lines with ready := [{ op0 with src := .remote 4 }] }), 1, { op0 with src := .remote 4 }, 4, by decide +kernel⟩

theorem witness_FramesAreTaken_1 :
    ∃ (s : State) (p : BitVec 2) (f : Frame) (k : BitVec 256) (i : Instr),
    ((i = .rxReadFrame p f ∧ wfFrame 1 f = true) ∨ (i = .rxWriteFrame p f ∧ wfFrame 2 f = true) ∨ (i = .rxReduceFrame p f ∧ wfFrame 3 f = true)) ∧
    s.hub.hearsNext p.toNat f k ∧
    s.hub.journalFull = false :=
  ⟨stateOf paired, 1, sealFrame 2 (frame0 1), 2, .rxReadFrame 1 (sealFrame 2 (frame0 1)), .inl ⟨rfl, rfl⟩, heard_next paired 1 (by decide +kernel), by decide +kernel⟩

theorem witness_FramesAreTaken_2 :
    ∃ (s : State) (p : BitVec 2) (f : Frame) (k : BitVec 256) (r : Req),
    wfFrame 4 f = true ∧
    s.hub.hearsNext p.toNat f k ∧
    s.hub.lines.reqs.find? (fun r => r.peerIs f.srcHub.toNat && decide (r.ctx = f.tag.toNat) && (decide (r.phase = .sent) || decide (r.phase = .failed))) = some r ∧
    r.phase = .sent ∧
    s.hub.journalFull = false :=
  ⟨stateOf awaiting, 1, sealFrame 2 (frame0 4), 2, sent0 .sent, rfl, heard_next awaiting 4 (by decide +kernel), rfl, rfl, by decide +kernel⟩

theorem witness_ControlFramesAct_1 :
    ∃ (s : State) (p : BitVec 2) (f : Frame),
    wfFrame 8 f = true ∧
    s.hub.hearsControl p.toNat f ∧
    (s.hub.pair f.srcHub.toNat).heartbeatOk f = true :=
  ⟨stateOf paired, 1, crcFrame { frame0 8 with payload := List.replicate 8 0 }, by unfold Hub.hearsControl Hub.hears; decide +kernel⟩

theorem witness_ControlFramesAct_2 :
    ∃ (s : State) (p : BitVec 2) (f : Frame),
    wfFrame 9 f = true ∧
    s.hub.hearsControl p.toNat f ∧
    f.counter.toNat < (s.hub.pair f.srcHub.toNat).txNext.toNat :=
  ⟨stateOf (paired.putPair 5 { pair0 with txNext := 3 }), 1, crcFrame { frame0 9 with counter := 2 }, by unfold Hub.hearsControl Hub.hears; decide +kernel⟩

theorem witness_ControlFramesAct_3 :
    ∃ (s : State) (p : BitVec 2) (f : Frame),
    wfFrame 10 f = true ∧
    s.hub.hearsControl p.toNat f :=
  ⟨stateOf paired, 1, crcFrame (frame0 10), by unfold Hub.hearsControl Hub.hears; decide +kernel⟩

theorem witness_ControlFramesAct_4 :
    ∃ (s : State) (p : BitVec 10),
    s.hub.inReset = false ∧
    (s.hub.pair p.toNat).held ≠ [] :=
  ⟨stateOf (paired.putPair 5 { pair0 with held := [frame0 1] }), 5, by decide +kernel⟩

theorem witness_ControlFramesAct_5 :
    ∃ (s : State) (p : BitVec 10),
    s.hub.inReset = false ∧
    (s.hub.pair p.toNat).unacked ≠ 0 :=
  ⟨stateOf (paired.putPair 5 { pair0 with unacked := 1 }), 5, by decide +kernel⟩

theorem witness_ControlFramesAct_6 :
    ∃ (s : State) (p : BitVec 10),
    s.hub.inReset = false ∧
    (s.hub.pair p.toNat).st ≠ 0 :=
  ⟨stateOf paired, 5, by decide +kernel⟩

theorem witness_ControlFramesAct_7 :
    ∃ (s : State) (p : BitVec 10),
    s.hub.inReset = false ∧
    (s.hub.pair p.toNat).st = 2 :=
  ⟨stateOf paired, 5, by decide +kernel⟩

theorem witness_KeysAreExchanged_1 :
    ∃ (s : State) (p : BitVec 2) (f : Frame) (m : BitVec 256) (gen : Word) (start : BitVec 64) (o : BitVec 256),
    wfFrame 11 f = true ∧
    f.payload.head? = some 0 ∧
    s.hub.hearsControl p.toNat f ∧
    (s.hub.pair f.srcHub.toNat).master = some m ∧
    keyxOpen m f = some (gen, start, o) :=
  ⟨stateOf paired, 1, keyxFrame 3 5 0 0 1 7 9 0, 3, 1, 7, unwrapped, rfl, rfl, by unfold Hub.hearsControl Hub.hears; exact ⟨⟨by decide +kernel, by decide +kernel, by decide +kernel, by decide +kernel⟩, crcOk_crc _, by decide +kernel⟩, by decide +kernel, keyx_opens 0⟩

theorem witness_KeysAreExchanged_2 :
    ∃ (s : State) (p : BitVec 2) (f : Frame) (m : BitVec 256) (gen : Word) (start : BitVec 64) (q : BitVec 256) (o : Offer),
    wfFrame 11 f = true ∧
    f.payload.head? = some 1 ∧
    s.hub.hearsControl p.toNat f ∧
    (s.hub.pair f.srcHub.toNat).master = some m ∧
    keyxOpen m f = some (gen, start, q) ∧
    (s.hub.pair f.srcHub.toNat).offer = some o ∧
    o.gen = gen ∧
    o.start = start ∧
    s.hub.journalFull = false :=
  ⟨stateOf (paired.putPair 5 { pair0 with offer := some { offer0 with start := 7 } }), 1, keyxFrame 3 5 0 1 1 7 9 0, 3, 1, 7, unwrapped, { offer0 with start := 7 }, rfl, rfl, by unfold Hub.hearsControl Hub.hears; exact ⟨⟨by decide +kernel, by decide +kernel, by decide +kernel, by decide +kernel⟩, crcOk_crc _, by decide +kernel⟩, by decide +kernel, keyx_opens 1, by decide +kernel, rfl, rfl, by decide +kernel⟩

theorem witness_KeysAreExchanged_3 :
    ∃ (s : State) (p : BitVec 10) (o : Offer),
    s.hub.inReset = false ∧
    s.hub.drbgError = false ∧
    (s.hub.pair p.toNat).offer = some o :=
  ⟨stateOf (paired.putPair 5 { pair0 with offer := some offer0 }), 5, offer0, by decide +kernel⟩

theorem witness_KeysAreExchanged_4 :
    ∃ (s : State) (p : BitVec 10) (o : Offer),
    s.hub.inReset = false ∧
    (s.hub.pair p.toNat).offer = some o ∧
    o.rekey = true :=
  ⟨stateOf (paired.putPair 5 { pair0 with offer := some offer0 }), 5, offer0, by decide +kernel⟩

theorem witness_FarPortLinks_1 :
    ∃ (s : State) (p : BitVec 2),
    s.hub.inReset = false ∧
    (s.hub.farPort p.toNat).linkUp = true :=
  ⟨stateOf paired, 1, by decide +kernel⟩

theorem witness_FarPortLinks_2 :
    ∃ (s : State) (p : BitVec 2),
    (s.hub.farPort p.toNat).st = 1 :=
  ⟨stateOf (up.putFarPort 3 { FarPort.down with st := 1 }), 3, by decide +kernel⟩

theorem witness_FarPortLinks_3 :
    ∃ (s : State) (p : BitVec 2),
    s.hub.inReset = false ∧
    (s.hub.farPort p.toNat).st = 2 :=
  ⟨stateOf paired, 1, by decide +kernel⟩

theorem witness_FarPortLinks_4 :
    ∃ (s : State) (p : BitVec 2) (f : Frame),
    frameTypes.contains f.typ = false ∧
    s.hub.inReset = false ∧
    (s.hub.farPort p.toNat).st = 2 ∧
    (s.hub.farPort p.toNat).inFrame = false :=
  ⟨stateOf paired, 1, frame0 5, by decide +kernel⟩

theorem witness_ManagementNetwork_1 :
    ∃ (s : State),
    s.hub.mgmtDeaf = false :=
  ⟨stateOf up, by decide +kernel⟩

theorem witness_ManagementNetwork_2 :
    ∃ (s : State),
    s.hub.mgmtDeaf = false ∧
    2 ≤ s.hub.boot.ended ∧
    s.hub.sec.coreReset = true :=
  ⟨stateOf (up.setSec { up.sec with coreReset := true }), by decide +kernel⟩

theorem witness_ManagementNetwork_3 :
    ∃ (s : State),
    s.hub.mgmtDeaf = false ∧
    2 ≤ s.hub.boot.ended ∧
    s.hub.sec.coreReset = false ∧
    s.hub.sec.sessions ≠ 0 :=
  ⟨stateOf (up.setSec { up.sec with sessions := 1, update := 0 }), by decide +kernel⟩

theorem witness_ManagementNetwork_4 :
    ∃ (s : State),
    s.hub.mgmtDeaf = false ∧
    2 ≤ s.hub.boot.ended ∧
    s.hub.sec.coreReset = false ∧
    s.hub.sec.sessions ≠ 0 ∧
    (s.hub.sec.update = 1 ∨ s.hub.sec.update = 2) :=
  ⟨stateOf (up.setSec { up.sec with sessions := 1, update := 1 }), by decide +kernel⟩

theorem witness_ManagementNetwork_5 :
    ∃ (s : State),
    s.hub.mgmtDeaf = false ∧
    2 ≤ s.hub.boot.ended ∧
    s.hub.sec.coreReset = false ∧
    s.hub.sec.sessions ≠ 0 ∧
    s.hub.sec.update = 3 :=
  ⟨stateOf (up.setSec { up.sec with sessions := 1, update := 3 }), by decide +kernel⟩

theorem witness_ManagementNetwork_6 :
    ∃ (s : State),
    s.hub.mgmtDeaf = false ∧
    2 ≤ s.hub.boot.ended ∧
    s.hub.sec.coreReset = false ∧
    s.hub.sec.sessions ≠ 0 :=
  ⟨stateOf (up.setSec { up.sec with sessions := 1, update := 2 }), by decide +kernel⟩

theorem witness_ManagementNetwork_7 :
    ∃ (s : State),
    s.hub.mgmtDeaf = false ∧
    2 ≤ s.hub.boot.ended ∧
    s.hub.sec.coreReset = false :=
  ⟨stateOf up, by decide +kernel⟩

theorem witness_ManagementNetwork_8 :
    ∃ (s : State),
    s.hub.mgmtDeaf = false :=
  ⟨stateOf up, by decide +kernel⟩

theorem witness_ManagementNetwork_9 :
    ∃ (s : State),
    s.hub.mgmtDeaf = false :=
  ⟨stateOf up, by decide +kernel⟩

theorem witness_CoreGeneratorAndWipes_1 :
    ∃ (s : State),
    s.hub.sec.coreReset = true ∧
    s.hub.inReset = false ∧
    s.hub.journalFull = false :=
  ⟨stateOf (up.setSec { up.sec with coreReset := true }), by decide +kernel⟩

theorem witness_CoreGeneratorAndWipes_2 :
    ∃ (s : State),
    s.hub.inReset = false ∧
    s.hub.pins.fatal = false :=
  ⟨stateOf up, by decide +kernel⟩

theorem witness_CoreGeneratorAndWipes_3 :
    ∃ (s : State),
    s.hub.inReset = false ∧
    s.hub.drbgError = false ∧
    s.hub.journalFull = false :=
  ⟨stateOf up, by decide +kernel⟩

theorem witness_CoreGeneratorAndWipes_4 :
    ∃ (s : State),
    s.hub.inReset = false ∧
    s.hub.drbgError = true :=
  ⟨stateOf (up.wr pSec 0x54 1), by decide +kernel⟩

theorem witness_CoreGeneratorAndWipes_5 :
    ∃ (s : State) (w : Wipe) (rest : List Wipe) (k : BitVec 11),
    s.hub.sec.wipes = w :: rest ∧
    w.slabs[w.at_]? = some k ∧
    s.hub.inReset = false ∧
    (s.hub.stack (slabStack (s.hub.lslab k.toNat).phys.toNat)).selfRefresh = false ∧
    s.hub.therm.trip = 0 :=
  ⟨stateOf (up.setSec { up.sec with wipes := [wipe0] }), wipe0, [], 6, by decide +kernel⟩

theorem witness_CoreGeneratorAndWipes_6 :
    ∃ (s : State) (w : Wipe) (rest : List Wipe),
    s.hub.sec.wipes = w :: rest ∧
    s.hub.inReset = false ∧
    s.hub.journalFull = false ∧
    w.slabs.length ≤ w.at_ :=
  ⟨stateOf (up.setSec { up.sec with wipes := [{ wipe0 with at_ := 1 }] }), { wipe0 with at_ := 1 }, [], by decide +kernel⟩

theorem witness_JournalIsWritten_1 :
    ∃ (s : State) (e : JEntry) (rest : List JEntry),
    s.hub.inReset = false ∧
    s.hub.pastS0 = true ∧
    s.hub.slotFree = true ∧
    s.hub.journal.queue = e :: rest :=
  ⟨stateOf (up.setJournal { up.journal with queue := [entry0] }), entry0, [], by decide +kernel⟩

theorem witness_JournalIsWritten_2 :
    ∃ (s : State) (e : JEntry) (rest : List JEntry),
    s.hub.inReset = false ∧
    s.hub.pastS0 = true ∧
    s.hub.slotFree = true ∧
    s.hub.journal.queue = [] ∧
    s.hub.journal.ordinary = e :: rest :=
  ⟨stateOf (up.setJournal { up.journal with ordinary := [entry0] }), entry0, [], by decide +kernel⟩

theorem witness_JournalIsWritten_3 :
    ∃ (s : State) (found : ReadBack) (e : JEntry),
    found ≠ .right ∧
    s.hub.inReset = false ∧
    s.hub.pastS0 = true ∧
    s.hub.slotFree = true ∧
    (s.hub.journal.queue ++ s.hub.journal.ordinary).head? = some e :=
  ⟨stateOf (up.setJournal { up.journal with queue := [entry0] }), .secondBad, entry0, by decide +kernel⟩

theorem witness_JournalIsWritten_4 :
    ∃ (s : State),
    s.hub.inReset = false ∧
    s.hub.pastS0 = true ∧
    (s.hub.sectorErased ((journalSector s.hub.journal.seq + 1) % 128) = false ∨ s.hub.sectorErased ((journalSector s.hub.journal.seq + 2) % 128) = false) :=
  ⟨stateOf (up.putFlash 0x2010000 [0]), by decide +kernel⟩

theorem witness_RegistersAreWrittenAndRead_1 :
    ∃ (s : State) (init : Initiator) (reg : BitVec 22) (data : Word) (c : PageClass) (r : RegRow),
    s.hub.takes init c (regPage reg) (regOff reg) true ∧
    0x20 ≤ regOff reg ∧
    findRow c.rows (regOff reg) = some r ∧
    s.hub.writeRefusal c r (regPage reg) (regOff reg) (s.hub.show s.fuses c (regPage reg) (regOff reg)) data = none :=
  ⟨stateOf up, .mgmt, 0x5F, 1, .hub, rowAt .hub 0x17C, by unfold Hub.takes; decide +kernel⟩

theorem witness_RegistersAreWrittenAndRead_2 :
    ∃ (s : State) (init : Initiator) (reg : BitVec 22) (data : Word) (c : PageClass) (r : RegRow) (n : Nat),
    s.hub.takes init c (regPage reg) (regOff reg) true ∧
    0x20 ≤ regOff reg ∧
    findRow c.rows (regOff reg) = some r ∧
    s.hub.writeRefusal c r (regPage reg) (regOff reg) (s.hub.show s.fuses c (regPage reg) (regOff reg)) data = some n :=
  ⟨stateOf up, .mgmt, 0x5F, 0, .hub, rowAt .hub 0x17C, 8, by unfold Hub.takes; decide +kernel⟩

theorem witness_RegistersAreWrittenAndRead_3 :
    ∃ (s : State) (init : Initiator) (reg : BitVec 22) (c : PageClass),
    s.hub.takes init c (regPage reg) (regOff reg) true ∧
    0x40 ≤ regOff reg ∧
    findRow c.rows (regOff reg) = none :=
  ⟨stateOf up, .mgmt, 0x3FF, .hub, by unfold Hub.takes; decide +kernel⟩

theorem witness_RegistersAreWrittenAndRead_4 :
    ∃ (s : State) (init : Initiator) (reg : BitVec 22) (c : PageClass) (n : Nat),
    s.hub.inReset = false ∧
    pageClass (regPage reg) = some c ∧
    s.hub.refusal init c (regPage reg) (regOff reg) false = some n :=
  ⟨stateOf up, .part 3, 0x800, .sec, 2, by decide +kernel⟩

theorem witness_RegistersAreWrittenAndRead_5 :
    ∃ (s : State) (reg : BitVec 22),
    s.hub.inReset = false ∧
    pageClass (regPage reg) = none :=
  ⟨stateOf up, 0x3FFFFF, by decide +kernel⟩

theorem witness_RegistersAreWrittenAndRead_6 :
    ∃ (s : State) (init : Initiator) (reg : BitVec 22) (c : PageClass),
    s.hub.takes init c (regPage reg) (regOff reg) false ∧
    latches c (regOff reg) = true ∧
    latches c (regOff reg - 4) = false :=
  ⟨stateOf up, .mgmt, 0x5C, .hub, by unfold Hub.takes; decide +kernel⟩

theorem witness_RegistersAreWrittenAndRead_7 :
    ∃ (s : State) (init : Initiator) (reg : BitVec 22) (c : PageClass),
    s.hub.takes init c (regPage reg) (regOff reg) false ∧
    4 ≤ regOff reg ∧
    latches c (regOff reg - 4) = true ∧
    latches c (regOff reg) = false :=
  ⟨stateOf up, .mgmt, 0x5D, .hub, by unfold Hub.takes; decide +kernel⟩

theorem witness_RegistersAreWrittenAndRead_8 :
    ∃ (s : State) (init : Initiator),
    s.hub.takes init .perf pPerf 0x64 false :=
  ⟨stateOf up, .mgmt, by unfold Hub.takes; decide +kernel⟩

theorem witness_CountersAreCleared_1 :
    ∃ (s : State) (init : Initiator),
    s.hub.takes init .hub pHub 0x100 true :=
  ⟨stateOf up, .mgmt, by unfold Hub.takes; decide +kernel⟩

theorem witness_CountersAreCleared_2 :
    ∃ (s : State) (init : Initiator),
    s.hub.takes init .hub pHub 0x140 true :=
  ⟨stateOf up, .mgmt, by unfold Hub.takes; decide +kernel⟩

theorem witness_CountersAreCleared_3 :
    ∃ (s : State) (init : Initiator),
    s.hub.takes init .arith pArith 0x4C true :=
  ⟨stateOf up, .mgmt, by unfold Hub.takes; decide +kernel⟩

theorem witness_CountersAreCleared_4 :
    ∃ (s : State) (init : Initiator),
    s.hub.takes init .trick pTrick 0x4C true :=
  ⟨stateOf up, .mgmt, by unfold Hub.takes; decide +kernel⟩

theorem witness_CountersAreCleared_5 :
    ∃ (s : State) (init : Initiator),
    s.hub.takes init .tm pTm 0x90 true :=
  ⟨stateOf up, .mgmt, by unfold Hub.takes; decide +kernel⟩

theorem witness_CountersAreCleared_6 :
    ∃ (s : State) (init : Initiator) (c : BitVec 6),
    s.hub.takes init .dma (pDma c.toNat) 0x88 true :=
  ⟨stateOf up, .mgmt, 63, by unfold Hub.takes; decide +kernel⟩

theorem witness_CountersAreCleared_7 :
    ∃ (s : State) (init : Initiator),
    s.hub.takes init .farport pFarport 0x98 true :=
  ⟨stateOf up, .mgmt, by unfold Hub.takes; decide +kernel⟩

theorem witness_CountersAreCleared_8 :
    ∃ (s : State) (init : Initiator),
    s.hub.takes init .ras pRas 0x44 true :=
  ⟨stateOf up, .mgmt, by unfold Hub.takes; decide +kernel⟩

theorem witness_CountersAreCleared_9 :
    ∃ (s : State) (init : Initiator),
    s.hub.takes init .therm pTherm 0x7C true :=
  ⟨stateOf up, .mgmt, by unfold Hub.takes; decide +kernel⟩

theorem witness_CountersAreCleared_10 :
    ∃ (s : State) (init : Initiator),
    s.hub.takes init .perf pPerf 0x48 true :=
  ⟨stateOf up, .mgmt, by unfold Hub.takes; decide +kernel⟩

theorem witness_SelectorsLoadAndTablesAreReached_1 :
    ∃ (s : State) (init : Initiator) (data : Word),
    s.hub.writable s.fuses init .cache pCache 0x50 data :=
  ⟨stateOf up, .mgmt, 3, by unfold Hub.takes; decide +kernel, _, rfl, by decide +kernel⟩

theorem witness_SelectorsLoadAndTablesAreReached_2 :
    ∃ (s : State) (init : Initiator) (data : Word),
    s.hub.writable s.fuses init .part pPart 0x80 data :=
  ⟨stateOf up, .mgmt, 255, by unfold Hub.takes; decide +kernel, _, rfl, by decide +kernel⟩

theorem witness_SelectorsLoadAndTablesAreReached_3 :
    ∃ (s : State) (init : Initiator) (data : Word),
    s.hub.writable s.fuses init .part pPart 0xA0 data :=
  ⟨stateOf up, .mgmt, 15, by unfold Hub.takes; decide +kernel, _, rfl, by decide +kernel⟩

theorem witness_SelectorsLoadAndTablesAreReached_4 :
    ∃ (s : State) (init : Initiator) (data : Word),
    s.hub.writable s.fuses init .farport pFarport 0x58 data :=
  ⟨stateOf up, .mgmt, 7, by unfold Hub.takes; decide +kernel, _, rfl, by decide +kernel⟩

theorem witness_SelectorsLoadAndTablesAreReached_5 :
    ∃ (s : State) (init : Initiator) (data : Word),
    s.hub.writable s.fuses init .map pMap 0x74 data :=
  ⟨stateOf up, .mgmt, 2047, by unfold Hub.takes; decide +kernel, _, rfl, by decide +kernel⟩

theorem witness_SelectorsLoadAndTablesAreReached_6 :
    ∃ (s : State) (init : Initiator),
    s.hub.takes init .map pMap 0x74 false :=
  ⟨stateOf up, .mgmt, by unfold Hub.takes; decide +kernel⟩

theorem witness_SelectorsLoadAndTablesAreReached_7 :
    ∃ (s : State) (init : Initiator) (data : Word),
    s.hub.writable s.fuses init .map pMap 0x804 data :=
  ⟨stateOf (up.wr pMap 0x08 2), .mgmt, 0xFFFF, by unfold Hub.takes; decide +kernel, _, rfl, by decide +kernel⟩

theorem witness_SelectorsLoadAndTablesAreReached_8 :
    ∃ (s : State) (init : Initiator) (data : Word),
    s.hub.writable s.fuses init .gate pGate 0x48 data :=
  ⟨stateOf up, .mgmt, 5, by unfold Hub.takes; decide +kernel, _, rfl, by decide +kernel⟩

theorem witness_RegistersThatAct_1 :
    ∃ (s : State) (init : Initiator) (p : BitVec 12) (data : Word),
    s.hub.takes init .dma p.toNat 0x08 true ∧
    s.hub.afterS7 = true ∧
    bit data 0 = true ∧
    bit (s.hub.rd p.toNat 0x08) 0 = false :=
  ⟨stateOf up, .mgmt, 0x4F, 1, by unfold Hub.takes; decide +kernel⟩

theorem witness_RegistersThatAct_2 :
    ∃ (s : State) (init : Initiator) (p : BitVec 12) (c : PageClass) (data : Word),
    s.hub.takes init c p.toNat 0x08 true ∧
    (c = .dma → s.hub.afterS7 = true ∧ bit data 0 = bit (s.hub.rd p.toNat 0x08) 0) ∧
    bit c.info.2.1 1 = true :=
  ⟨stateOf up, .mgmt, 0x00B, .ras, 2, by unfold Hub.takes; decide +kernel⟩

theorem witness_RegistersThatAct_3 :
    ∃ (s : State) (init : Initiator) (p : BitVec 12) (c : PageClass),
    s.hub.takes init c p.toNat 0x08 true ∧
    bit c.info.2.1 2 = true :=
  ⟨stateOf up, .mgmt, 0x000, .hub, by unfold Hub.takes; decide +kernel⟩

theorem witness_RegistersThatAct_4 :
    ∃ (s : State) (init : Initiator) (p : BitVec 12) (c : PageClass),
    s.hub.takes init c p.toNat 0x14 true :=
  ⟨stateOf up, .mgmt, 0x00B, .ras, by unfold Hub.takes; decide +kernel⟩

theorem witness_RegistersThatAct_5 :
    ∃ (s : State) (init : Initiator) (data : Word),
    s.hub.writable s.fuses init .hub pHub 0x64 data :=
  ⟨stateOf up, .mgmt, 0x8000003F, by unfold Hub.takes; decide +kernel, _, rfl, by decide +kernel⟩

theorem witness_RegistersThatAct_6 :
    ∃ (s : State) (init : Initiator) (data : Word),
    s.hub.writable s.fuses init .hub pHub 0x44 data :=
  ⟨stateOf up, .mgmt, 1, by unfold Hub.takes; decide +kernel, _, rfl, by decide +kernel⟩

theorem witness_RegistersThatAct_7 :
    ∃ (s : State) (init : Initiator),
    s.hub.takes init .hub pHub 0x168 true :=
  ⟨stateOf up, .mgmt, by unfold Hub.takes; decide +kernel⟩

theorem witness_RegistersThatAct_8 :
    ∃ (s : State) (init : Initiator) (c : BitVec 6) (chCfg : Bool) (data : Word),
    s.hub.writable s.fuses init .dma (pDma c.toNat) (if chCfg then 0x40 else 0x44) data :=
  ⟨stateOf up, .mgmt, 63, true, 0, by unfold Hub.takes; decide +kernel, _, rfl, by decide +kernel⟩

theorem witness_RegistersThatAct_9 :
    ∃ (s : State) (init : Initiator) (data : Word),
    s.hub.writable s.fuses init .tm pTm 0x74 data :=
  ⟨stateOf up, .mgmt, 1, by unfold Hub.takes; decide +kernel, _, rfl, by decide +kernel⟩

theorem witness_RegistersThatAct_10 :
    ∃ (s : State) (init : Initiator) (data : Word) (crit : Nat),
    s.hub.writable s.fuses init .journal pJournal 0x5C data ∧
    s.hub.journal.crit = some crit :=
  ⟨stateOf (up.setJournal { up.journal with crit := some 4 }), .mgmt, 0, 4, ⟨by unfold Hub.takes; decide +kernel, _, rfl, by decide +kernel⟩, by decide +kernel⟩

theorem witness_LongOperationsEnd_1 :
    ∃ (s : State) (page : BitVec 12) (o : LongOp),
    s.hub.inReset = false ∧
    s.hub.opOf page.toNat = some o ∧
    o.waits = false ∧
    (pageClass page.toNat = some .stk ∨ pageClass page.toNat = some .dma ∨ pageClass page.toNat = some .journal) :=
  ⟨stateOf (withOp 0x80 1 0), 0x80, ⟨1, 0, 0, false⟩, by decide +kernel⟩

theorem witness_LongOperationsEnd_2 :
    ∃ (h : Hub) (page : Nat) (o : LongOp) (c : PageClass),
    h.opOf page = some o ∧
    pageClass page = some c ∧
    (opResultOf c).1 ≠ 0 :=
  ⟨withOp 0x80 1 0, 0x80, ⟨1, 0, 0, false⟩, .stk, by decide +kernel⟩

theorem witness_LongOperationsEnd_3 :
    ∃ (s : State) (p : Nat) (c : Nat),
    s.hub.inReset = false ∧
    s.hub.opOf pPart = some ⟨1, c, p, false⟩ ∧
    s.hub.partCheck p = 0 ∧
    s.hub.journalFull = false :=
  ⟨stateOf enabling, 0, 0, by decide +kernel⟩

theorem witness_LongOperationsEnd_4 :
    ∃ (s : State) (p : Nat) (c : Nat),
    s.hub.inReset = false ∧
    s.hub.opOf pPart = some ⟨1, c, p, false⟩ ∧
    s.hub.partCheck p ≠ 0 :=
  ⟨stateOf (withOp pPart 1 0), 0, 0, by decide +kernel⟩

theorem witness_LongOperationsEnd_5 :
    ∃ (s : State) (i : Nat) (c : Nat),
    s.hub.inReset = false ∧
    s.hub.opOf pPart = some ⟨2, c, i, false⟩ :=
  ⟨stateOf (withOp pPart 2 9), 9, 0, by decide +kernel⟩

theorem witness_LongOperationsEnd_6 :
    ∃ (s : State) (i : Nat) (c : Nat),
    s.hub.inReset = false ∧
    s.hub.opOf pPart = some ⟨3, c, i, false⟩ :=
  ⟨stateOf (withOp pPart 3 9), 9, 0, by decide +kernel⟩

theorem witness_LongOperationsEnd_7 :
    ∃ (s : State),
    s.hub.inReset = false ∧
    s.hub.journalFull = false :=
  ⟨stateOf (withOp pCache 1 0), by decide +kernel⟩

theorem witness_LongOperationsEnd_8 :
    ∃ (s : State) (i : Nat) (c : Nat),
    s.hub.inReset = false ∧
    s.hub.opOf pTrick = some ⟨1, c, i, false⟩ ∧
    ((s.hub.trick i).st = 1 ∨ (s.hub.trick i).st = 3) :=
  ⟨stateOf ((withOp pTrick 1 9).putTrick 9 { trick0 with st := 3 }), 9, 0, by decide +kernel⟩

theorem witness_LongOperationsEnd_9 :
    ∃ (s : State) (p : Nat) (c : Nat),
    s.hub.inReset = false ∧
    s.hub.opOf pPagemgr = some ⟨3, c, p, false⟩ ∧
    (s.hub.table p).built = true ∧
    bit (s.hub.rd pPagemgr 0x70) 31 = false ∧
    s.hub.fld pPagemgr 0x70 0 26 < (s.hub.table p).w :=
  ⟨stateOf ((withOp pPagemgr 3 0).putTable 0 { PageTable.unbuilt with built := true, w := 4 }), 0, 0, by decide +kernel⟩

theorem witness_LongOperationsEnd_10 :
    ∃ (s : State) (p : Nat) (c : Nat),
    s.hub.inReset = false ∧
    s.hub.opOf pPagemgr = some ⟨2, c, p, false⟩ ∧
    (s.hub.part p).enabled = false ∧
    (s.hub.table p).built = true :=
  ⟨stateOf ((withOp pPagemgr 2 0).putTable 0 { PageTable.unbuilt with built := true, w := 4 }), 0, 0, by decide +kernel⟩

theorem witness_LongOperationsEnd_11 :
    ∃ (s : State) (p : Nat) (c : Nat) (a : Nat) (b : Nat),
    s.hub.inReset = false ∧
    s.hub.opOf pPagemgr = some ⟨1, c, p, false⟩ ∧
    (s.hub.part p).enabled = false ∧
    (s.hub.table p).built = false ∧
    (s.hub.part p).managed = true ∧
    (s.hub.part p).quad = false ∧
    let w := (s.hub.part p).units * 32
    let n := (s.hub.part p).count * s.hub.bigD / 256
    s.hub.placeSlots [0, 1, 2, 3] (ceilDiv w 4) [] = some a ∧
    s.hub.placeSlots [0, 1, 2, 3] (ceilDiv n 4) [(a, ceilDiv w 4)] = some b :=
  ⟨stateOf building, 0, 0, 0, 8, by decide +kernel⟩

theorem witness_LongOperationsEnd_12 :
    ∃ (s : State),
    s.hub.inReset = false :=
  ⟨stateOf (withOp pGate 1 0), by decide +kernel⟩

theorem witness_LongOperationsEnd_13 :
    ∃ (s : State) (i : Nat) (c : Nat),
    s.hub.inReset = false ∧
    s.hub.opOf pPerf = some ⟨1, c, i, false⟩ ∧
    s.hub.dumping = false ∧
    s.hub.dumpBase % 64 = 0 ∧
    s.hub.dumpRangeOk = true :=
  ⟨stateOf dumpable, 0, 0, by decide +kernel⟩

theorem witness_LongOperationsEnd_14 :
    ∃ (s : State) (r : OpEnd) (ps : Nat),
    s.hub.inReset = false ∧
    s.hub.journalFull = false ∧
    s.hub.opOf pRas = some ⟨1, 0, ps, false⟩ ∧
    s.hub.readmitCheck ps = 0 ∧
    s.hub.testFound r.errs = [] :=
  ⟨stateOf readmitting, opEnd0, 0, by decide +kernel⟩

theorem witness_LongOperationsEnd_15 :
    ∃ (s : State) (r : OpEnd) (i : Nat),
    s.hub.inReset = false ∧
    s.hub.sec.coreReset = false ∧
    r.failed = false ∧
    s.hub.opOf pSec = some ⟨6, 0, i, false⟩ ∧
    s.fuses.provLock = false ∧
    s.fuses.identity = none ∧
    s.hub.drbgError = false :=
  ⟨stateOf (withOp pSec 6 0), opEnd0, 0, by decide +kernel⟩

theorem witness_LongOperationsEnd_16 :
    ∃ (s : State) (l : Nat) (c : Nat),
    s.hub.inReset = false ∧
    s.hub.opOf pGate = some ⟨3, c, l, false⟩ ∧
    ((s.hub.gate s.hub.gateSel.1).st = 1 ∨ (s.hub.gate s.hub.gateSel.1).st = 3) :=
  ⟨stateOf ((withOp pGate 3 0).putGate 0 { GateList.idle with st := 1 }), 0, 0, by decide +kernel⟩

theorem witness_LongOperationsEnd_17 :
    ∃ (s : State) (r : OpEnd) (i : Nat),
    s.hub.inReset = false ∧
    s.hub.sec.coreReset = false ∧
    r.failed = false ∧
    s.hub.opOf pSec = some ⟨4, 0, i, false⟩ :=
  ⟨stateOf (withOp pSec 4 0), opEnd0, 0, by decide +kernel⟩

theorem witness_LongOperationsEnd_18 :
    ∃ (s : State) (r : OpEnd) (i : Nat),
    s.hub.inReset = false ∧
    s.hub.sec.coreReset = false ∧
    r.failed = false ∧
    s.hub.opOf pSec = some ⟨5, 0, i, false⟩ ∧
    i < 4 :=
  ⟨stateOf (withOp pSec 5 3), opEnd0, 3, by decide +kernel⟩

theorem witness_LongOperationsEnd_19 :
    ∃ (s : State) (r : OpEnd) (i : Nat),
    s.hub.inReset = false ∧
    s.hub.sec.coreReset = false ∧
    r.failed = false ∧
    s.hub.opOf pSec = some ⟨7, 0, i, false⟩ ∧
    s.fuses.identity.isSome = true :=
  ⟨{ stateOf (withOp pSec 7 0) with fuses := { State.reset.fuses with identity := some 1 } }, opEnd0, 0, by decide +kernel⟩

theorem witness_OtherCommandsKeepTheStacks :
    ∃ (i : Instr) (s : State) (t : State),
    i.writesStacks = false ∧
    exec i s = .next t :=
  ⟨.rorCheck, stateOf up, _, rfl, rfl⟩

theorem witness_UnassignedPagesAreRefused_2 :
    ∃ (s : State) (reg : BitVec 22),
    s.hub.inReset = false ∧
    pageClass (regPage reg) = none :=
  ⟨stateOf up, 0x3FFFFF, by decide +kernel⟩

theorem witness_UnassignedPagesAreRefused_3 :
    ∃ (h : Hub) (st : Nat),
    st < 8 ∧
    (h.stack st).populated = false :=
  ⟨up, 7, by decide +kernel⟩

theorem witness_BusyPagesRefuse_1 :
    ∃ (h : Hub) (init : Initiator) (c : PageClass) (page : Nat) (off : Nat) (wr : Bool),
    h.busy page = true ∧
    h.permitted init c page off wr = true ∧
    h.pageOpen init c = true :=
  ⟨withOp pSec 1 0, .mgmt, .sec, pSec, 0x40, true, by decide +kernel⟩

theorem witness_BusyPagesRefuse_2 :
    ∃ (s : State) (init : Initiator) (reg : BitVec 22) (c : PageClass),
    s.hub.inReset = false ∧
    pageClass (regPage reg) = some c ∧
    s.hub.busy (regPage reg) = true ∧
    s.hub.permitted init c (regPage reg) (regOff reg) false = true ∧
    s.hub.pageOpen init c = true ∧
    0x40 ≤ regOff reg :=
  ⟨stateOf (withOp pSec 1 0), .mgmt, 0x810, .sec, by decide +kernel⟩

theorem witness_BusyPagesRefuse_3 :
    ∃ (s : State) (init : Initiator) (reg : BitVec 22) (c : PageClass),
    s.hub.inReset = false ∧
    pageClass (regPage reg) = some c ∧
    s.hub.busy (regPage reg) = true ∧
    s.hub.permitted init c (regPage reg) (regOff reg) true = true ∧
    s.hub.pageOpen init c = true ∧
    regOff reg ≠ 0x10 ∧
    regOff reg ≠ 0x14 ∧
    regOff reg ≠ 0x1C :=
  ⟨stateOf (withOp pSec 1 0), .mgmt, 0x810, .sec, by decide +kernel⟩

theorem witness_BusyPagesRefuse_4 :
    ∃ (p : Nat) (q : Nat),
    p ≠ q :=
  ⟨2, 3, by decide +kernel⟩

theorem witness_BusyPagesRefuse_5 :
    ∃ (h : Hub) (page : Nat),
    h.opOf page = none :=
  ⟨up, 3, by decide +kernel⟩

/-! Witnesses of the clauses inside a statement's conclusion -/

def ordering (k : OpKind) (narrow : Bool) : Hub :=
  mapped.setLines { mapped.lines with ready := [{ op0 with kind := k, hdr := { hd with narrow := narrow } }] }

theorem witness_LineOperationsTakeTheirOrder_read :
    (ordering .read false).mayOrder op0 = true ∧
    (ordering .read false).lines.ready.find? (fun x => x.id == 1 && (x.kind == .read && !x.hdr.narrow)) = some op0 := by decide +kernel

theorem witness_LineOperationsTakeTheirOrder_narrow :
    (ordering .read true).mayOrder { op0 with hdr := { hd with narrow := true } } = true ∧
    (ordering .read true).lines.ready.find? (fun x => x.id == 1 && (x.kind == .read && x.hdr.narrow)) =
      some { op0 with hdr := { hd with narrow := true } } := by decide +kernel

theorem witness_LineOperationsTakeTheirOrder_write :
    (ordering .write false).mayOrder { op0 with kind := .write } = true ∧
    (ordering .write false).lines.ready.find? (fun x => x.id == 1 && x.kind == .write) = some { op0 with kind := .write } := by decide +kernel

theorem witness_LineOperationsTakeTheirOrder_reduce :
    (ordering .reduce false).mayOrder { op0 with kind := .reduce } = true ∧
    (ordering .reduce false).lines.ready.find? (fun x => x.id == 1 && x.kind == .reduce) = some { op0 with kind := .reduce } := by decide +kernel

theorem witness_MigrationBatches_unfilled : migrating.chunkState mig0.k mig0.wm = .unfilled := by decide +kernel

/-- A batch of a FILLED chunk whose locks are placed and whose lines are void. -/
def copying : Hub :=
  let h := withWords (migrating.setFilled 0 0) ((List.range 16).map voidWord)
  h.setPages { h.pages with itricks := [⟨0, none, 1, h.migLines mig0, []⟩] }

theorem witness_MigrationBatches_filled :
    (copying.ras.migs.filter (fun m => m.phase != 0))[(0 : BitVec 2).toNat]? = some mig0 ∧ copying.journalFull = false ∧
    copying.chunkState mig0.k mig0.wm = .filled ∧
    let t : ITrick := ⟨0, none, 1, copying.migLines mig0, []⟩
    copying.migTrick mig0 = some t ∧
    let h := copying.putMig mig0
    h.pages.itricks.find? (fun x => x.ctx == t.ctx) = some t ∧
    let items := h.migItems mig0
    let h := items.foldl (fun h i => h.askCopy t.ctx i) (h.dropLostReads t items [])
    h.pages.itricks.find? (fun x => x.ctx == t.ctx) = some t ∧ items.all (fun i => h.copyReady t i) = true := by decide +kernel

theorem witness_FramesAreTaken_write : wfFrame 2 (sealFrame 2 (frame0 2)) = true ∧
    (stateOf paired).hub.hearsNext 1 (sealFrame 2 (frame0 2)) 2 := ⟨rfl, heard_next paired 2 (by decide +kernel)⟩

theorem witness_FramesAreTaken_reduce : wfFrame 3 (sealFrame 2 (frame0 3)) = true ∧
    (stateOf paired).hub.hearsNext 1 (sealFrame 2 (frame0 3)) 2 := ⟨rfl, heard_next paired 3 (by decide +kernel)⟩

/-- No request of the arbiters waits once the arbiter of port 0 has chosen. -/
def takesAtOnce (h : Hub) (hd : Header) (flits : List Sector) : Bool :=
  decide ((h.accept 0 hd flits).1 ≠ 0) && (((h.accept 0 hd flits).2).choose 0).lines.reqs.all (fun r => r.phase != .arbiter)

theorem takesAtOnce_passes (h : Hub) (hd : Header) (flits : List Sector) (e : takesAtOnce h hd flits = true) :
    (h.accept 0 hd flits).1 ≠ 0 ∧ (h.accept 0 hd flits).2.passesAtOnce (h.accept 0 hd flits).1 0 := by
  simp only [takesAtOnce, Bool.and_eq_true, decide_eq_true_eq, List.all_eq_true, bne_iff_ne] at e
  exact ⟨e.1, fun r hr => e.2 r (List.mem_of_find?_eq_some hr)⟩

def withTrick : Hub := mapped.putTrick 0 trick0

theorem witness_ImmediateRequestsPass_write : takesAtOnce withTrick { hd with opcode := 4, byteEn := 1 } [0x77] = true := by decide +kernel
theorem witness_ImmediateRequestsPass_compare : takesAtOnce withTrick { hd with opcode := 5 } [] = true := by decide +kernel
theorem witness_ImmediateRequestsPass_commit : takesAtOnce withTrick { hd with opcode := 6 } [] = true := by decide +kernel
theorem witness_ImmediateRequestsPass_abort : takesAtOnce withTrick { hd with opcode := 7 } [] = true := by decide +kernel
theorem witness_ImmediateRequestsPass_release : takesAtOnce managed { hd with opcode := 8 } [] = true := by decide +kernel
theorem witness_ImmediateRequestsPass_clear : takesAtOnce mapped { hd with opcode := 9, size := 2 } [] = true := by decide +kernel

/-- No operation runs on a page and the management core may write its PAGE_OP. -/
def startable (h : Hub) (c : PageClass) (page : Nat) : Bool :=
  !h.inReset && decide (pageClass page = some c) && (h.refusal .mgmt c page 0x1C true).isNone

theorem startable_starts (h : Hub) (c : PageClass) (page : Nat) (e : startable h c page = true) : (stateOf h).hub.starts .mgmt c page := by
  simp only [startable, Bool.and_eq_true, Bool.not_eq_true', decide_eq_true_eq, Option.isNone_iff_eq_none] at e
  exact ⟨e.1.1, e.1.2, e.2⟩

theorem witness_OperationsBegin : startable up .part pPart = true ∧ startable up .sec pSec = true ∧
    (startable up .cache pCache = true ∧ up.fld pCache 0x64 8 2 = 0) ∧ startable up .trick pTrick = true ∧
    startable up .pagemgr pPagemgr = true ∧ startable up .gate pGate = true ∧ startable up .ras pRas = true ∧
    startable up .perf pPerf = true := by decide +kernel

theorem witness_OperationsTakeEffect_flush :
    let h := (up.setCache { up.cache with kitty := [(0, ⟨0, 1, 0x80000000⟩)] }).wr pCache 0x64 0x200
    startable h .cache pCache = true ∧ h.fld pCache 0x64 8 2 = 2 ∧ (h.kitty (kwSel h)).on = true := by decide +kernel

theorem witness_OperationsTakeEffect_release : startable mapped .part pPart = true ∧ (mapped.part (partSel mapped)).enabled = true := by
  decide +kernel

theorem witness_OperationsTakeEffect_fill :
    let h := up.setCache { up.cache with kitty := [(0, ⟨0, 1, 0x80000000⟩)] }
    startable h .cache pCache = true ∧ (h.kitty (kwSel h)).on = true := by decide +kernel

theorem witness_OperationsTakeEffect_slice :
    startable (up.putPc 0 { Pc.untrained with st := 1 }) .stk (pStk (0 : BitVec 3).toNat) = true ∧
    ((up.putPc 0 { Pc.untrained with st := 1 }).pc ((0 : BitVec 3).toNat * 64 +
      (up.putPc 0 { Pc.untrained with st := 1 }).fld (pStk (0 : BitVec 3).toNat) 0x70 0 6)).st = 1 := by decide +kernel

/-- Channel 0 in a state, with partition 0 enabled for it. -/
def channel (d : Dma) : Hub := (mapped.putPart 0 { part0 with dma := 1 }).putDma 0 d

theorem witness_OperationsTakeEffect_start :
    let h := channel { Dma.off with st := 1 }
    startable h .dma (pDma (0 : BitVec 6).toNat) = true ∧ h.afterS7 = true ∧ (h.dmaCh 0).st = 1 ∧
    (h.part (h.fld (pDma 0) 0x40 0 6)).enabled = true ∧ bit (h.part (h.fld (pDma 0) 0x40 0 6)).dma 0 = true := by decide +kernel

theorem witness_OperationsTakeEffect_pause : startable (channel { Dma.off with st := 5 }) .dma (pDma (0 : BitVec 6).toNat) = true ∧
    ((channel { Dma.off with st := 5 }).dmaCh 0).st = 5 := by decide +kernel

theorem witness_OperationsTakeEffect_running : startable (channel { Dma.off with st := 2 }) .dma (pDma (0 : BitVec 6).toNat) = true ∧
    ((channel { Dma.off with st := 2 }).dmaCh 0).st = 2 := by decide +kernel

theorem witness_OperationsTakeEffect_resume : startable (channel { Dma.off with st := 6 }) .dma (pDma (0 : BitVec 6).toNat) = true ∧
    ((channel { Dma.off with st := 6 }).dmaCh 0).st = 6 := by decide +kernel

theorem witness_OperationsTakeEffect_resume_paused :
    let h := ((channel { Dma.off with st := 4, desc := desc0 }).wr (pDma 0) 0x68 1).wr (pDma 0) 0x50 0x1000 |>.wr (pDma 0) 0x58 0x2000
    startable h .dma (pDma (0 : BitVec 6).toNat) = true ∧ (h.dmaCh 0).st = 4 ∧ (h.dmaCh 0).fetch = 0 ∧ h.fld (pDma 0) 0x68 0 17 ≠ 0 ∧
    ∃ n, h.posOfRegs 0 (h.dmaCh 0) = some n ∧ (h.withShift 0 (h.dmaCh 0) n).resumes (n % max 1 (h.dmaCh 0).length) = true :=
  ⟨by decide +kernel, by decide +kernel, by decide +kernel, by decide +kernel, 64, by decide +kernel⟩

theorem witness_OperationsTakeEffect_retire :
    let h := (((up.setAmap { up.amap with dens := 1, sids := 1 }).putPslab 0 { PSlab.absent with st := 1 }).putLslab 0
      ⟨1, 0, 0⟩).putPslab (talonSlab 1 1 0) { PSlab.absent with st := 2 }
    let ps := h.fld pRas 0x78 0 11
    startable h .ras pRas = true ∧ (h.pslab ps).st = 1 ∧ h.retiring ps = false ∧ (h.lslab (h.pslab ps).logical.toNat).st ≠ 2 ∧
    h.retireFull ps = false := by decide +kernel

theorem witness_ServiceOperationsTakeEffect_farport :
    let h := (up.putFarPort 0 { FarPort.down with linkUp := true }).putPair 0 pair0
    startable h .farport pFarport = true ∧ (h.farPort (h.fld pFarport 0x44 0 2)).enable = true ∧
    (h.farPort (h.fld pFarport 0x44 0 2)).linkUp = true ∧ (h.pair (h.fld pFarport 0x50 0 10)).st ≠ 0 := by decide +kernel

theorem witness_ServiceOperationsTakeEffect_install :
    let h := (up.wr pSec 0x58 5).wr pSec 0xC0 1
    startable h .sec pSec = true ∧ h.sec.coreReset = false ∧ secPeer h ≠ h.hubId ∧ h.keyBuf ≠ 0 ∧ h.journalFull = false := by decide +kernel

theorem witness_ServiceOperationsTakeEffect_remove :
    let h := paired.wr pSec 0x58 5
    startable h .sec pSec = true ∧ h.sec.coreReset = false ∧ (h.pair (secPeer h)).st ≠ 0 ∧ h.journalFull = false := by decide +kernel

theorem witness_ServiceOperationsTakeEffect_rekey :
    let h := paired.wr pSec 0x58 5
    startable h .sec pSec = true ∧ h.sec.coreReset = false ∧ (h.pair (secPeer h)).st = 2 ∧ (h.pair (secPeer h)).offer = none ∧
    (h.pair (secPeer h)).txPend = none ∧ h.drbgError = false := by decide +kernel

theorem witness_ServiceOperationsTakeEffect_svn :
    startable (up.wr pSec 0x48 0x4000) .sec pSec = true ∧ up.sec.coreReset = false ∧
    State.reset.fuses.svn < min 64 ((up.wr pSec 0x48 0x4000).fld pSec 0x48 8 7) := by
  decide +kernel

theorem witness_ServiceOperationsTakeEffect_revoke :
    ∃ h : Hub, startable h .sec pSec = true ∧ h.sec.coreReset = false ∧ h.signKey ≠ h.runKey ∧ bit State.reset.fuses.revoked h.signKey = false :=
  ⟨up.wr pSec 0x7C 3, by decide +kernel⟩

theorem witness_ServiceOperationsTakeEffect_stop : startable (dumping 1) .perf pPerf = true ∧ (dumping 1).dumping = true ∧
    (dumping 1).perf.dump.step ≠ 0 ∧ startable (dumping 0) .perf pPerf = true ∧ (dumping 0).dumping = true ∧
    (dumping 0).perf.dump.step = 0 := by decide +kernel

theorem witness_ServiceOperationsTakeEffect_now :
    let h := (mapped.wr pPerf 0x74 1).wr pPerf 0x80 1
    startable h .perf pPerf = true ∧ h.perf.dump.step = 0 ∧ h.dumpRangeOk = true := by decide +kernel

theorem witness_ServiceOperationsTakeEffect_read :
    let h := up.writeEntry entry0
    startable h .journal pJournal = true ∧ h.pastS0 = true ∧
    h.copyAt (h.rd64 pJournal 0x60 % 2) (h.rd64 pJournal 0x60 % 131072) = some (up.entryBytes entry0 0) ∧
    entrySeq (up.entryBytes entry0 0) = h.rd64 pJournal 0x60 := by decide +kernel

theorem witness_ServiceOperationsTakeEffect_append :
    startable (up.wr pJournal 0x78 0x10000) .journal pJournal = true ∧ (up.wr pJournal 0x78 0x10000).fld pJournal 0x78 16 1 = 1 ∧
    startable up .journal pJournal = true ∧ up.fld pJournal 0x78 16 1 = 0 ∧ up.dropsOrdinary = false := by decide +kernel

theorem witness_ManagementNetwork_boots :
    (ended 1).mgmtDeaf = false ∧ (ended 1).boot.ended < 2 ∧ (2 ≤ up.boot.ended ∧ up.sec.coreReset = false) ∧
    let h := up.setSec { up.sec with sessions := 1 }
    h.mgmtDeaf = false ∧ h.sec.sessions ≠ 0 := by decide +kernel

/-- A running image whose one trust anchor has digest 5. -/
def anchored : Hub :=
  up.setSec { up.sec with runHeader := List.replicate 28 0 ++ [1] ++ List.replicate 51 0 ++ [5] ++ List.replicate 127 0 }

theorem witness_ManagementNetwork_opens :
    (some (5 : BitVec 384)).any anchored.anchors.contains = true ∧ anchored.sec.sessions < 2 := by decide +kernel

theorem witness_JournalIsWritten_first : ReadBack.firstBad ≠ .right := by decide

theorem witness_LongOperationsEnd_windows :
    let h := (withOp pPart 2 9).putPart 0 part0
    (h.pwCheck 9 h.stagedPw = 0 ∧ h.peerPending 9 = false) ∧ (withOp pPart 2 9).pwCheck 9 (withOp pPart 2 9).stagedPw ≠ 0 ∧
    h.hwCheck 9 h.stagedHw = 0 ∧ (withOp pPart 3 9).hwCheck 9 (withOp pPart 3 9).stagedHw ≠ 0 := by decide +kernel

theorem witness_LongOperationsEnd_kitty :
    let h := (withOp pCache 1 0).wr pCache 0x60 0x80000000
    h.opOf pCache = some ⟨1, 0, 0, false⟩ ∧ h.stagedKw.on = true ∧
    h.waysOf (fun n => decide (n < 16 - h.cache.k)) (fun x => h.stagedKw.has h x.part.toNat x.line) = [] := by decide +kernel

theorem witness_LongOperationsEnd_fill :
    let h := withOp pCache 2 0
    h.opOf pCache = some ⟨2, 0, 0, false⟩ ∧ h.cache.kfill.2.2 = 0 ∧
    (h.settleOn.lines.ordered.all fun x => !(x.src == .kitty && x.kind == .read)) = true ∧ h.settleOn.cache.kfill.2.2 = 0 := by
  decide +kernel

theorem witness_LongOperationsEnd_flush :
    (withOp pCache 3 0).opOf pCache = some ⟨3, 0, 0, false⟩ ∧ (withOp pCache 3 0).cache.flush = [] := by decide +kernel

theorem witness_LongOperationsEnd_ways :
    let h := (withOp pCache 4 0).wr pCache 0x48 2
    h.opOf pCache = some ⟨4, 0, 0, false⟩ ∧
    h.waysOf (fun n => decide (16 - h.fld pCache 0x48 0 4 ≤ n)) (fun x => x.st != .invalid) = [] := by decide +kernel

theorem witness_LongOperationsEnd_deal :
    let h := ((withOp pGate 1 0).setTm { up.tm with bankCfg := [(0, 1)], entries := [(0, 0x1000)] })
    h.opOf pGate = some ⟨1, 0, 0, false⟩ ∧ (h.gate h.gateSel.1).st = 0 ∧ (h.gate h.gateSel.1).running = false ∧
    h.bankLen h.gateSel.1 h.gateSel.2 = 1 ∧ entryDur (h.gateEntry h.gateSel.1 h.gateSel.2 0) ≠ 0 := by decide +kernel

theorem witness_LongOperationsEnd_stop :
    let h := (withOp pGate 2 0).putGate 0 { GateList.idle with st := 2 }
    h.opOf pGate = some ⟨2, 0, 0, false⟩ ∧ (h.gate h.gateSel.1).st ≠ 0 := by decide +kernel

theorem witness_PageManagerWorks_4_allocates : (managed.allocPage 0 0).isSome = true := by decide +kernel
theorem witness_PageManagerWorks_4_no_space : (managed.setPages { managed.pages with limit := [(0, 0)] }).allocPage 0 0 = none := by
  decide +kernel

/-- The header and the body of an image signed with a P-384 key, computed by hand from R379's layout and FIPS 180-4 and 186:
SVN 3, key 0, a body of four bytes. -/
def imagePub : List Byte := beBytes 48
    0xec3a4e415b4e19a4568618029f427fa5da9a8bc4ae92e02e06aae5286b300c64def8f0ea9055866064a254515480bc13 ++ beBytes 48
    0x8015d9b72d7d57244ea8ef9ac0c621896708a59367f9dfb9f54ca84b3f1c9db1288b231c3ae0d4fe7344fd2533264720
def imageBytes : List Byte :=
  [0x4B, 0x48, 0x38, 0x46, 1, 0, 0, 0, 3, 0, 0, 0, 0, 0, 0, 0, 4, 0, 0, 0] ++ List.replicate 8 0 ++ [1, 0, 0, 0] ++ beBytes 48
    0xad3d82636dcfc976fb33c00104245d203af0ed339e4083c35ab9c6628e3ab6e45a346d1aaa1d7dba6c8281f9e326cba2 ++
  List.replicate 192 0 ++ imagePub ++ beBytes 48
    0x94edbb92a5ecb8aad4736e56c691916b3f88140666ce9fa73d64c4ea95ad133c81a648152e44acf96e36dd1e80fabe46 ++ beBytes 48
    0x01cb30165b755ca88c1a7a85906c5b4488326e3665b559687d13002d2530494fbbe1c059296944c625950c2f6a6b0887
/-- The flash with the image in slot 0, S1 next, and the fuses with the key's digest. -/
def imaged : State :=
  { stateOf { ended 1 with flash := (imageBytes.zipIdx.map fun e => (e.2, e.1)) ++ [(0x1000, 0x13), (0x1001, 0), (0x1002, 0), (0x1003, 0)] } with
    fuses := { State.reset.fuses with keys := [some (sha384 imagePub)] } }

/-- S1 accepts the image in slot 0. -/
theorem witness_StagesEnd_2_image : imaged.hub.inStage 1 = true ∧ imaged.hub.romPick imaged.fuses = some (0, false) := by
  decide +kernel

/-- No image: S1 waits for one. -/
theorem witness_StagesEnd_2_no_image : (ended 1).romPick State.reset.fuses = none := by decide +kernel

theorem witness_ParityErrorsRecover_third :
    2 ≤ (((up.putPc 511 { Pc.untrained with parity := [0, 0] }).pc 511).parity.filter
      (fun t => decide ((up.putPc 511 { Pc.untrained with parity := [0, 0] }).now < t + 100000000))).length := by decide +kernel

end Sys2Proof.Tests
end

section
/-!
SUPPORT. Proofs of the statements of the architecture chapter: a step with no command waiting (R35), order instants (R42 to R48), and
the registers whose CLR bits clear counters (R38, R75, R181, R214, R269, R302, R323, R359, R442, R456).
-/
namespace Sys2Proof.Machine

/-! A step with no command waiting -/

/-- Time that passes moves both counters of R35: the interval counter and the management core's mtime (log 1). -/
theorem idle_hub (s : State) : (idle s).hub = { s.hub with now := s.hub.now + 1, mtime := s.hub.mtime + 1 } := by
  simp [idle, Hub.reach]

/-- Refutes O2: its second half lets the interval counter alone move on an empty queue, but `mtime` counts the same unit (R35, log 1).
From reset, with no command waiting, one step takes `mtime` from 0 to 1. -/
theorem not_queueLosesOnlyItsFront : ¬ Obligations.QueueLosesOnlyItsFront := by
  unfold Obligations.QueueLosesOnlyItsFront
  rintro ⟨-, hidle⟩
  have hstep : Host.Outcome.next (idle State.reset) = .next { State.reset with hub := { State.reset.hub with now := 1 } } :=
    hidle State.reset rfl
  have hmtime : (idle State.reset).hub.mtime = 0 := by
    injection hstep with hstate
    rw [hstate]
    rfl
  rw [idle_hub] at hmtime
  exact absurd hmtime (by decide)

/-! Answers and the queues of a slice -/

theorem Hub.giveBackDma_lines (h : Hub) (wr : Bool) (c : Nat) : (h.giveBackDma wr c).lines = h.lines := by
  simp only [Hub.giveBackDma, apply_ite Hub.lines, putDport_fields, topUp_fields, putPool_fields, ite_self]

/-- An answer changes the requests alone: the operations before and after their order instant stay. -/
theorem Hub.answer_ready_ordered (h : Hub) (id idx code result : Nat) (data : List Sector) :
    (h.answer id idx code result data).lines.ready = h.lines.ready ∧
    (h.answer id idx code result data).lines.ordered = h.lines.ordered := by
  unfold Hub.answer
  split
  · exact ⟨rfl, rfl⟩
  · next r _ =>
    extract_lets r' last h1 lat isRead ev h2 h3 h4
    have e1 : h1.lines.ready = h.lines.ready ∧ h1.lines.ordered = h.lines.ordered := by
      simp only [h1]
      split <;> exact ⟨rfl, rfl⟩
    have e2 : h2.lines = h1.lines := by
      simp only [h2, ev]
      split_ifs <;> simp
    have e3 : h3.lines = h2.lines := by
      simp only [h3, ev]
      split <;> simp
    have e4 : h4.lines = h3.lines := by
      simp only [h4, ev]
      split <;> simp
    have keeps (g : Hub) (e : g.lines = h4.lines) :
        g.lines.ready = h.lines.ready ∧ g.lines.ordered = h.lines.ordered := by
      rw [e, e4, e3, e2]
      exact e1
    clear_value h4
    apply keeps
    cases r.src with
    | port p =>
      dsimp only
      split <;> simp
    | dma c =>
      dsimp only
      split <;> simp [giveBackDma_lines]
    | remote ctx => rfl
    | dump =>
      dsimp only
      split
      · rfl
      · simp
    | kitty => rfl

/-! Order instants -/

/-- A line operation as it stands among the ordered ones: a read has its answer to come, any other operation has had it; SR_EN and
OVF_CFG are those of its order instant (R42, R47, R48, R182). -/
def Hub.atOrder (h : Hub) (o : LineOp) : LineOp :=
  { o with
    acked := !(o.kind == .read)
    sr := bit (BitVec.ofNat 64 (h.rd64 pArith 0x800)) o.part.toNat
    infOvf := bit (h.rd pArith 0x808) 0 }

/-- A reduction whose partition's RED_EN is clear at its order instant: it is answered DENIED and not ordered (R182). -/
def Hub.reduceDenied (h : Hub) (o : LineOp) : Prop :=
  o.kind = .reduce ∧ (!bit (BitVec.ofNat 64 (h.rd64 pArith 0x44)) o.part.toNat) = true

theorem Hub.takeOrder_ready_ordered {h : Hub} {o : LineOp} (hd : ¬ h.reduceDenied o) :
    (h.takeOrder o).lines.ready = h.lines.ready.filter (fun x => x.id != o.id) ∧
    (h.takeOrder o).lines.ordered = h.lines.ordered ++ [h.atOrder o] := by
  unfold Hub.takeOrder
  extract_lets l h1 p isRead o' l1 h2 h3
  have e2 : h2.lines.ready = h.lines.ready.filter (fun x => x.id != o.id) ∧ h2.lines.ordered = h.lines.ordered ++ [h.atOrder o] :=
    ⟨rfl, rfl⟩
  have e3 : h3.lines = h2.lines := by
    simp only [h3]
    split_ifs <;> simp
  have hd1 : ¬ (o.kind = .reduce ∧ (!bit (BitVec.ofNat 64 (h1.rd64 pArith 0x44)) p) = true) := hd
  rw [if_neg hd1]
  split
  · rw [e3]
    exact e2
  · obtain ⟨hready, hordered⟩ := h3.answer_ready_ordered o.req o.idx 0 0 []
    rw [hready, hordered, e3]
    exact e2

/-- The operation a command names takes its order instant if it may; else it stays, and may come to wait for room (R42, R342). -/
theorem Hub.order_of_find {h : Hub} {id : Nat} {ok : LineOp → Bool} {o : LineOp} (found : Flips)
    (hf : h.lines.ready.find? (fun x => x.id == id && ok x) = some o) :
    h.order id ok found =
      if h.mayOrder o then ((h.takeOrder o).inject o.part.toNat o.line found).settleOn else h.noteRoom o := by
  simp only [Hub.order, hf]

theorem Hub.mayOrder_of_behindOwn {h : Hub} {o : LineOp} (hb : h.behindOwn o = true) : h.mayOrder o = false := by
  simp [Hub.mayOrder, hb]

/-- Only a write or a reduction waits for room in its chunk (R342). -/
theorem Hub.noteRoom_of_read {h : Hub} {o : LineOp} (hk : o.kind = .read) : h.noteRoom o = h := by
  simp [Hub.noteRoom, hk]

theorem becomes_onHub {s : State} {f : Hub → Hub} {h : Hub} (e : f s.hub = h) : Becomes (onHub s f) s h := by
  rw [Becomes, onHub, e]

/-- Settles O25: each command orders the operation it names by one rule, and an answer leaves the slice's queues. -/
theorem lineOperationsTakeTheirOrder : Obligations.LineOperationsTakeTheirOrder := by
  unfold Obligations.LineOperationsTakeTheirOrder
  refine ⟨fun s id o found hm => ?_, fun h o hk => ?_, fun s id o found hb hf => ?_⟩
  · have taken {ok : LineOp → Bool} (hf : s.hub.lines.ready.find? (fun x => x.id == id && ok x) = some o) :
        Becomes (onHub s (fun h => h.order id ok found)) s
          ((s.hub.takeOrder o).inject o.part.toNat o.line found).settleOn :=
      becomes_onHub ((Hub.order_of_find found hf).trans (if_pos hm))
    exact ⟨taken, taken, taken, taken⟩
  · have hd : ¬ h.reduceDenied o := by
      rcases hk with hk | hk | ⟨-, hb⟩
      · simp [Hub.reduceDenied, hk]
      · simp [Hub.reduceDenied, hk]
      · simp [Hub.reduceDenied, hb]
    have hacked : (h.atOrder o).acked = decide (o.kind ≠ .read) := by
      by_cases hr : o.kind = .read <;> simp [Hub.atOrder, hr]
    obtain ⟨hready, hordered⟩ := Hub.takeOrder_ready_ordered hd
    exact ⟨hready, h.atOrder o, hordered, rfl, rfl, rfl, rfl, rfl, rfl, hacked⟩
  · have hread : o.kind = .read := by
      have hok := List.find?_some hf
      simp only [Bool.and_eq_true, beq_iff_eq] at hok
      obtain ⟨-, hk, -⟩ := hok
      exact hk
    have hstays : ¬ s.hub.mayOrder o = true := by simp [Hub.mayOrder_of_behindOwn hb]
    exact becomes_onHub (f := fun h => h.order id (fun x => x.kind == .read && !x.hdr.narrow) found)
      ((Hub.order_of_find found hf).trans ((if_neg hstays).trans (Hub.noteRoom_of_read hread)))

/-! Rows of registers that hold one word -/

/-- The n words from offset o of a page set to v. -/
def Hub.fillRegs (h : Hub) (page o n : Nat) (v : Word) : Hub := (List.range n).foldl (fun h i => h.wr page (o + 4 * i) v) h

theorem Hub.clearRegs_eq_fillRegs (h : Hub) (page o n : Nat) : h.clearRegs page o n = h.fillRegs page o n 0 := rfl

theorem Hub.fillRegs_succ (h : Hub) (page o n : Nat) (v : Word) :
    h.fillRegs page o (n + 1) v = (h.fillRegs page o n v).wr page (o + 4 * n) v := by
  simp only [Hub.fillRegs, List.range_succ, List.foldl_append, List.foldl_cons, List.foldl_nil]

@[simp] theorem Hub.fillRegs_mem (h : Hub) (page o n : Nat) (v : Word) : (h.fillRegs page o n v).mem = h.mem :=
  foldl_keeps Hub.mem _ (fun h i => by simp) _ h

theorem Hub.holds_wr_outside {h : Hub} {page o n o' : Nat} {v : Word} (w : Word) (hh : h.holds page o n v)
    (hout : ∀ i < n, o + 4 * i ≠ o') : (h.wr page o' w).holds page o n v :=
  fun i hi => (h.rd_wr_ne w (by have := hout i hi; omega)).trans (hh i hi)

theorem Hub.holds_fillRegs (h : Hub) (page o n : Nat) (v : Word) : (h.fillRegs page o n v).holds page o n v := by
  induction n with
  | zero => intro i hi; omega
  | succ n ih =>
    rw [fillRegs_succ]
    intro i hi
    rcases Nat.lt_succ_iff_lt_or_eq.mp hi with hlt | rfl
    · rw [rd_wr_ne _ _ (by omega), ih i hlt]
    · exact rd_wr_same ..

theorem Hub.rd_respondMmio (h : Hub) (v : Word) (code : BitVec 3) (p o : Nat) : (h.respondMmio v code).rd p o = h.rd p o := rfl

/-- A window access answered OK leaves the n registers from offset o of a page at v, and the stacks' bytes as h has them. -/
def Hub.rowAnswered (h t : Hub) (page o n : Nat) (v : Word) : Prop := t.holds page o n v ∧ t.mmio = (0, 0) ∧ t.mem = h.mem

theorem Hub.rowAnswered_respondMmio {h g : Hub} {page o n : Nat} {v : Word} (hh : g.holds page o n v) (hm : g.mem = h.mem) :
    h.rowAnswered (g.respondMmio 0 0) page o n v := ⟨hh, rfl, hm⟩

theorem Hub.rowAnswered_fillRegs (h : Hub) (page o n : Nat) (v : Word) :
    h.rowAnswered ((h.fillRegs page o n v).respondMmio 0 0) page o n v :=
  rowAnswered_respondMmio (h.holds_fillRegs page o n v) (h.fillRegs_mem page o n v)

theorem Hub.rowAnswered_fillRegs_wr (h : Hub) {page o n o' : Nat} (v w : Word) (hout : ∀ i < n, o + 4 * i ≠ o') :
    h.rowAnswered (((h.fillRegs page o n v).wr page o' w).respondMmio 0 0) page o n v :=
  rowAnswered_respondMmio (holds_wr_outside w (h.holds_fillRegs page o n v) hout) (h.fillRegs_mem page o n v)

theorem bit_putBits_zero (x : Word) {lo n i : Nat} (hl : lo ≤ i) (hi : i < lo + n) (hw : i < 32) : bit (putBits x lo n 0) i = false := by
  have hmask : (BitVec.ofNat 32 ((2 ^ n - 1) <<< lo))[i] = true := by
    simp only [BitVec.getElem_eq_testBit_toNat, BitVec.toNat_ofNat, Nat.testBit_mod_two_pow, Nat.testBit_shiftLeft,
      Nat.testBit_two_pow_sub_one, Bool.and_eq_true, decide_eq_true_eq]
    omega
  simp [bit, putBits, hw, hmask]

/-! Accepted writes -/

/-- A write beyond the header that is taken, and that its row, the unit's state and the value allow, is done and answered OK (R480). -/
theorem writeReg_accepted {s : State} {init : Initiator} {c : PageClass} {page off : Nat} {r : RegRow} {data : Word}
    (ht : s.hub.takes init c page off true) (ho : 0x20 ≤ off) (hr : findRow c.rows off = some r)
    (hw : s.hub.writeRefusal c r page off (s.hub.show s.fuses c page off) data = none) :
    writeReg init page off data s = .next { s with
      hub := (s.hub.applyWrite c r page off (s.hub.show s.fuses c page off) data).respondMmio 0 0 } := by
  obtain ⟨hreset, hc, hf⟩ := ht
  have hgo : ¬ (off = 0x1C ∧ bit data 31 = true) := by omega
  have hhead : ¬ off < 0x20 := by omega
  rw [writeReg, if_neg hgo]
  simp only [onHub, Hub.regWrite, hreset, hc, hf, hhead, hr, hw, Bool.false_eq_true, if_false]

/-- Only data registers of MAP and GATE have AUTOINC selectors (R126, R271). -/
theorem Hub.autoinc_of_ne {c : PageClass} (hc : c ≠ .map ∧ c ≠ .gate) (h : Hub) (off : Nat) : h.autoinc c off = h := by
  obtain ⟨hm, hg⟩ := hc
  unfold Hub.autoinc
  split
  · exact absurd rfl hm
  · exact absurd rfl hm
  · exact absurd rfl hg
  · rfl

/-! The CLR registers -/

/-- A register beyond the header whose only bits are the WO bits wo, on a page without AUTOINC, and whose write neither the unit's
state nor the value refuses (R480). -/
structure IsClr (c : PageClass) (off : Nat) (wo : Word) : Prop where
  row : findRow c.rows off = some ⟨off, 1, 4, 0, 0, 0, 0, wo, 0, 0⟩
  beyondHeader : 0x20 ≤ off
  acts : wo ≠ 0
  noAutoinc : c ≠ .map ∧ c ≠ .gate
  stateTakes : ∀ (h : Hub) (page : Nat) (old new : Word), h.stateRefuses c page off old new = false
  valueTakes : ∀ v, valueRefused c off v = false

theorem clrRegisters :
    IsClr .hub 0x100 1 ∧ IsClr .arith 0x4C 1 ∧ IsClr .trick 0x4C 1 ∧ IsClr .tm 0x90 1 ∧ IsClr .dma 0x88 1 ∧
    IsClr .farport 0x98 1 ∧ IsClr .ras 0x44 1 ∧ IsClr .therm 0x7C 1 ∧ IsClr .perf 0x48 7 := by
  refine ⟨?_, ?_, ?_, ?_, ?_, ?_, ?_, ?_, ?_⟩ <;>
    exact ⟨rfl, by decide, by decide, by decide, fun _ _ _ _ => rfl, fun _ => rfl⟩

/-- A write of a CLR register that is taken does what its WO bits say and is answered OK. -/
theorem ends_clr {s : State} {init : Initiator} {c : PageClass} {page off : Nat} {wo data : Word} {P : State → Prop} {g : Hub}
    (hr : IsClr c off wo) (ht : s.hub.takes init c page off true) (hg : s.hub.writeOnly c page off (data &&& wo) = g)
    (hP : P { s with hub := g.respondMmio 0 0 }) : Ends (writeReg init page off data s) P := by
  refine ⟨_, writeReg_accepted ht hr.beyondHeader hr.row ?_, ?_⟩
  · simp [Hub.writeRefusal, hr.stateTakes, hr.valueTakes]
  · simpa only [Hub.applyWrite, Hub.autoinc_of_ne hr.noAutoinc, if_true, if_neg hr.acts, hg] using hP

/-- PORT_PROTO_STATUS.CLR, a W1C bit, clears DEADLINE_CNT (R75). -/
theorem writeReg_deadlineCntClr {s : State} {init : Initiator} (ht : s.hub.takes init .hub pHub 0x140 true) :
    writeReg init pHub 0x140 0x10000 s = .next { s with hub := (s.hub.wr pHub 0x140 0).respondMmio 0 0 } :=
  writeReg_accepted (r := ⟨0x140, 1, 4, 0, 0, 0xffff, 0x10000, 0, 0, 0⟩) ht (by decide) rfl
    (by simp [Hub.writeRefusal, Hub.stateRefuses, valueRefused])

/-- The hub after ARITH.CNT_CTRL.CLR: its counters from UPDATES_LO on and DROP_LINE_HI.VALID (R181). -/
def Hub.clearArith (h : Hub) : Hub := (h.fillRegs pArith 0x50 7 0).wrFld pArith 0x70 31 1 0

/-- The hub after RAS.CNT_CTRL.CLR (R359). -/
def Hub.clearRas (h : Hub) : Hub := (h.fillRegs pRas 0x48 10 0).wr pRas 0xA0 0

/-- The hub after THERM.CNT_CTRL.CLR (R442). -/
def Hub.clearTherm (h : Hub) : Hub := (h.fillRegs pTherm 0x70 2 0).wrFld pTherm 0x64 3 29 0

theorem Hub.writeOnly_arith (h : Hub) : h.writeOnly .arith pArith 0x4C 1 = h.clearArith := rfl
theorem Hub.writeOnly_ras (h : Hub) : h.writeOnly .ras pRas 0x44 1 = h.clearRas := rfl
theorem Hub.writeOnly_therm (h : Hub) : h.writeOnly .therm pTherm 0x7C 1 = h.clearTherm := rfl

theorem Hub.rowAnswered_clearArith (h : Hub) : h.rowAnswered (h.clearArith.respondMmio 0 0) pArith 0x50 7 0 :=
  h.rowAnswered_fillRegs_wr 0 _ fun i hi => by omega

theorem Hub.bit_clearArith (h : Hub) : bit ((h.clearArith.respondMmio 0 0).rd pArith 0x70) 31 = false := by
  rw [rd_respondMmio, clearArith, rd_wrFld, if_pos rfl]
  exact bit_putBits_zero _ (by omega) (by omega) (by omega)

theorem Hub.rowAnswered_clearRas (h : Hub) : h.rowAnswered (h.clearRas.respondMmio 0 0) pRas 0x48 10 0 :=
  h.rowAnswered_fillRegs_wr 0 _ fun i hi => by omega

theorem Hub.rd_clearRas (h : Hub) : (h.clearRas.respondMmio 0 0).rd pRas 0xA0 = 0 := by
  rw [rd_respondMmio, clearRas, rd_wr_same]

theorem Hub.rowAnswered_clearTherm (h : Hub) : h.rowAnswered (h.clearTherm.respondMmio 0 0) pTherm 0x70 2 0 :=
  h.rowAnswered_fillRegs_wr 0 _ fun i hi => by omega

theorem Hub.policer_clearTm (h : Hub) (k : Nat) :
    (h.clearTm.policer k).green = 0 ∧ (h.clearTm.policer k).yellow = 0 ∧ (h.clearTm.policer k).red = 0 := by
  unfold Hub.policer Hub.clearTm
  simp only [Hub.setTm_fields]
  induction h.tm.pol with
  | nil => exact ⟨rfl, rfl, rfl⟩
  | cons e m ih =>
    rw [List.map_cons, List.filter_cons]
    split
    · rw [SMap.get]
      split
      · exact ⟨rfl, rfl, rfl⟩
      · exact ih
    · exact ih

/-- Settles O50: each write is taken by its CLR register, which sets its row of counters and answers OK. -/
theorem countersAreCleared : Obligations.CountersAreCleared := by
  obtain ⟨hub, arith, trick, tm, dma, farport, ras, therm, perf⟩ := clrRegisters
  unfold Obligations.CountersAreCleared
  refine ⟨fun s init ht => ?_, fun s init ht => ?_, fun s init ht => ?_, fun s init ht => ?_, fun s init ht => ?_,
    fun s init c ht => ?_, fun s init ht => ?_, fun s init ht => ?_, fun s init ht => ?_, fun s init ht => ⟨?_, ?_, ?_⟩⟩
  · exact ends_clr hub ht rfl (s.hub.rowAnswered_fillRegs pHub 0x120 4 0xFFFFF)
  · exact ⟨_, writeReg_deadlineCntClr ht, s.hub.rd_wr_same pHub 0x140 0, rfl, rfl⟩
  · obtain ⟨hholds, hanswer⟩ := s.hub.rowAnswered_clearArith
    exact ends_clr arith ht s.hub.writeOnly_arith ⟨hholds, s.hub.bit_clearArith, hanswer⟩
  · exact ends_clr trick ht rfl (s.hub.rowAnswered_fillRegs pTrick 0x50 7 0)
  · exact ends_clr (g := s.hub.clearTm) tm ht rfl ⟨s.hub.policer_clearTm, s.hub.rowAnswered_fillRegs pTm 0x88 2 0⟩
  · exact ends_clr dma ht rfl (s.hub.rowAnswered_fillRegs (pDma c.toNat) 0x74 5 0)
  · exact ends_clr farport ht rfl (s.hub.rowAnswered_fillRegs pFarport 0x80 6 0)
  · obtain ⟨hholds, hanswer⟩ := s.hub.rowAnswered_clearRas
    exact ends_clr ras ht s.hub.writeOnly_ras ⟨hholds, s.hub.rd_clearRas, hanswer⟩
  · exact ends_clr therm ht s.hub.writeOnly_therm s.hub.rowAnswered_clearTherm
  · exact ends_clr (g := s.hub.setPerf { s.hub.perf with cnt := [] }) perf ht rfl ⟨rfl, rfl, rfl⟩
  · exact ends_clr (g := s.hub.setPerf { s.hub.perf with eng := [] }) perf ht rfl ⟨rfl, rfl, rfl⟩
  · exact ends_clr (g := (s.hub.setPerf { s.hub.perf with fifo := [] }).wr pPerf 0x68 0) perf ht rfl
      ⟨rfl, Hub.rd_wr_same _ pPerf 0x68 0, rfl⟩

end Sys2Proof.Machine
end

section

/-! SUPPORT. What leaves the stacks' bytes and the flash as they were: one lemma per operation of the hub, in the order of the
model; where a later proof needs it, the pins and the bring-up too (`SameBounds`). The operations that write to one of the two stores
stand in the next section. -/

namespace Sys2Proof.Machine

/-- The stacks' bytes and the flash of g are those of h. -/
@[simp] abbrev Hub.SameStores (g h : Hub) : Prop := g.mem = h.mem ∧ g.flash = h.flash

@[simp] theorem Hub.ite_stores (c : Prop) [Decidable c] (a b : Hub) :
    (if c then a else b : Hub).mem = (if c then a.mem else b.mem) ∧
    (if c then a else b : Hub).flash = (if c then a.flash else b.flash) :=
  ⟨apply_ite .., apply_ite ..⟩

/-- The pins and the state of the bring-up, as well as the stacks' bytes and the flash, of g are those of h. -/
@[simp] abbrev Hub.SameBounds (g h : Hub) : Prop := g.pins = h.pins ∧ g.boot = h.boot ∧ g.SameStores h

@[simp] theorem Hub.ite_pins (c : Prop) [Decidable c] (a b : Hub) :
    (if c then a else b : Hub).pins = if c then a.pins else b.pins := apply_ite ..

@[simp] theorem Hub.ite_boot (c : Prop) [Decidable c] (a b : Hub) :
    (if c then a else b : Hub).boot = if c then a.boot else b.boot := apply_ite ..

@[simp] theorem foldl_pins {α : Type} (f : Hub → α → Hub) (H : ∀ h a, (f h a).pins = h.pins) (l : List α) (h : Hub) :
    (l.foldl f h).pins = h.pins := foldl_keeps Hub.pins f H l h

@[simp] theorem foldl_boot {α : Type} (f : Hub → α → Hub) (H : ∀ h a, (f h a).boot = h.boot) (l : List α) (h : Hub) :
    (l.foldl f h).boot = h.boot := foldl_keeps Hub.boot f H l h

/-- A fold keeps the stores when each of its steps does. -/
@[simp] theorem foldl_stores {α : Type} (f : Hub → α → Hub) (H : ∀ h a, (f h a).SameStores h)
    (l : List α) (h : Hub) : (l.foldl f h).SameStores h :=
  ⟨foldl_keeps Hub.mem f (fun h a => (H h a).1) l h, foldl_keeps Hub.flash f (fun h a => (H h a).2) l h⟩

/-- A fold that carries a hub among other things keeps its stores when each step does. -/
theorem foldl_carried_stores {α σ : Type} (hub : σ → Hub) (f : σ → α → σ)
    (H : ∀ x a, (hub (f x a)).SameStores (hub x)) (l : List α) (x : σ) :
    (hub (l.foldl f x)).SameStores (hub x) := by
  induction l generalizing x with
  | nil => exact ⟨rfl, rfl⟩
  | cons a l ih =>
    obtain ⟨hm, hf⟩ := ih (f x a)
    obtain ⟨gm, gf⟩ := H x a
    exact ⟨hm.trans gm, hf.trans gf⟩

/-! Shared operations: credits, answers, draws -/

@[simp] theorem Hub.withRoom_stores {h : Hub} {f : Hub → Hub} (e : (f h).SameStores h) :
    (h.withRoom f).SameStores h := by
  rcases h.withRoom_cases f with hw | hw <;> rw [hw]
  · exact ⟨rfl, rfl⟩
  · exact e

@[simp] theorem Hub.releaseOwed_stores (h : Hub) : h.releaseOwed.SameStores h := by simp [Hub.releaseOwed]

@[simp] theorem Hub.giveBackDma_stores (h : Hub) (wr : Bool) (c : Nat) : (h.giveBackDma wr c).SameStores h := by
  simp [Hub.giveBackDma]

@[simp] theorem Hub.fresh_bounds (h : Hub) : h.fresh.2.SameBounds h := ⟨rfl, rfl, rfl, rfl⟩

@[simp] theorem Hub.answer_stores (h : Hub) (id idx code result : Nat) (data : List Sector) :
    (h.answer id idx code result data).SameStores h := by
  unfold Hub.answer
  split
  · exact ⟨rfl, rfl⟩
  · next r _ =>
    extract_lets r' last h1 lat isRead ev h2 h3 h4
    have e4 : h4.SameStores h := by simp [h4, h3, h2, h1, ev]
    clear_value h4
    split
    · simp [e4]
    · dsimp only
      split <;> simp [e4]
    · exact e4
    · split
      · exact e4
      · simp [e4]
    · exact e4

@[simp] theorem Hub.answerAll_stores (h : Hub) (id code : Nat) : (h.answerAll id code).SameStores h := by
  unfold Hub.answerAll
  split <;> simp

@[simp] theorem Hub.draw_stores (h : Hub) (reseed : Bool) : (h.draw reseed).2.SameStores h := by simp [Hub.draw]

/-! The register window -/

/-- A write of PAGE_OP leaves the hub in reset as it was, is refused, or begins the operation, which then does f at once (R482). -/
theorem Hub.go_ends {h : Hub} {init : Initiator} {page opcode : Nat} {index : Hub → Nat} {f : Hub → Hub} {P : Hub → Prop}
    (reset : P h) (unmapped : P (h.refuseUnmapped init page true)) (refused : ∀ r, P (h.refuse init page 0x1C true r))
    (begun : P (f ((h.respondMmio 0 0).beginOp page opcode (index h)))) : P (h.go init page opcode index f) := by
  unfold Hub.go
  refine iteInduction (fun _ => reset) (fun _ => ?_)
  split
  · exact unmapped
  · refine iteInduction (fun _ => iteInduction (fun _ => refused 2) (fun _ => ?_)) (fun _ => ?_)
    · split
      · exact refused _
      · exact begun
    · split
      · exact refused _
      · exact iteInduction (fun _ => refused 1) (fun _ => begun)

@[simp] theorem Hub.go_stores {h : Hub} {init : Initiator} {page opcode : Nat} {index : Hub → Nat} {f : Hub → Hub}
    (e : ∀ h, (f h).SameStores h) :
    (h.go init page opcode index f).SameStores h :=
  Hub.go_ends (P := fun g => g.SameStores h) ⟨rfl, rfl⟩ (by simp) (fun r => by simp) (by simp [e])

/-! The journal -/

@[simp] theorem Hub.findHead_stores (h : Hub) : h.findHead.SameStores h := by
  unfold Hub.findHead
  split <;> simp

/-! Sectors and metadata of the stacks -/

@[simp] theorem Hub.putFwd_stores (h : Hub) (p w : Nat) (v : BitVec 64) : (h.putFwd p w v).SameStores h := ⟨rfl, rfl⟩
@[simp] theorem Hub.putRev_stores (h : Hub) (p b : Nat) (v : BitVec 64) : (h.putRev p b v).SameStores h := ⟨rfl, rfl⟩

@[simp] theorem Hub.engCount_stores (h : Hub) (pcIdx ev amt : Nat) (part : Option (BitVec 6)) :
    (h.engCount pcIdx ev amt part).SameStores h := by simp [Hub.engCount]

@[simp] theorem Hub.putFetch_stores (h : Hub) (f : Fetch) : (h.putFetch f).SameStores h := ⟨rfl, rfl⟩
@[simp] theorem Hub.dropFetch_stores (h : Hub) (id : Nat) : (h.dropFetch id).SameStores h := ⟨rfl, rfl⟩

@[simp] theorem Hub.capture_stores (h : Hub) (id sector : Nat) (w : Code) : (h.capture id sector w).SameStores h := by
  unfold Hub.capture
  split <;> simp

@[simp] theorem Hub.pushRead_stores (h : Hub) (e : RdEntry) : (h.pushRead e).SameStores h := by
  unfold Hub.pushRead
  dsimp only
  split <;> simp

@[simp] theorem Hub.pushWrite_stores (h : Hub) (ps off sector : Nat) (w : Code) (part : Option (BitVec 6)) :
    (h.pushWrite ps off sector w part).SameStores h := by simp [Hub.pushWrite]

@[simp] theorem Hub.openFetch_stores (h : Hub) (f : Fetch) : (h.openFetch f).2.SameStores h := by simp [Hub.openFetch]

@[simp] theorem Hub.bgFetch_stores (h : Hub) (kind : FetchKind) (p : BitVec 6) (l ps : Nat) (s k : Nat) (want : BitVec 4) :
    (h.bgFetch kind p l ps s k want).2.SameStores h := by simp [Hub.bgFetch]

@[simp] theorem Hub.setWords_stores (h : Hub) (ws : List MetaWord) : (h.setWords ws).SameStores h := ⟨rfl, rfl⟩
@[simp] theorem Hub.enterWord_stores (h : Hub) (w : MetaWord) : (h.enterWord w).SameStores h := by simp [Hub.enterWord]
@[simp] theorem Hub.dropWords_stores (h : Hub) (f : MetaWord → Bool) : (h.dropWords f).SameStores h := ⟨rfl, rfl⟩
@[simp] theorem Hub.startRmw_stores (h : Hub) (k s : Nat) : (h.startRmw k s).SameStores h := by simp [Hub.startRmw]

@[simp] theorem Hub.cacheWord_stores (h : Hub) (k s : Nat) (m : Meta) : (h.cacheWord k s m).SameStores h := by
  unfold Hub.cacheWord
  split <;> simp

@[simp] theorem Hub.putMeta_stores (h : Hub) (k s : Nat) (m : Meta) : (h.putMeta k s m).SameStores h := by simp [Hub.putMeta]

@[simp] theorem Hub.putLineMeta_stores (h : Hub) (p l : Nat) (m : Meta) : (h.putLineMeta p l m).SameStores h := by
  unfold Hub.putLineMeta
  split <;> simp

@[simp] theorem Hub.poisonLine_stores (h : Hub) (p l : Nat) : (h.poisonLine p l).SameStores h := by simp [Hub.poisonLine]
@[simp] theorem Hub.setFilled_stores (h : Hub) (slab off : Nat) : (h.setFilled slab off).SameStores h := by simp [Hub.setFilled]

@[simp] theorem Hub.storeLine_stores (h : Hub) (p k s : Nat) (x : Line) (poison void : Bool) :
    (h.storeLine p k s x poison void).SameStores h := by simp [Hub.storeLine]

@[simp] theorem Hub.setPslab_stores (h : Hub) (ps : Nat) (v : PSlab) : (h.setPslab ps v).SameStores h := by simp [Hub.setPslab]

@[simp] theorem Hub.startRetire_bounds (h : Hub) (ps cause : Nat) : (h.startRetire ps cause).SameBounds h := by
  unfold Hub.startRetire
  dsimp only
  repeat' split
  all_goals simp

@[simp] theorem Hub.retireMore_bounds (h : Hub) (engine : Nat) : (h.retireMore engine).SameBounds h := by simp [Hub.retireMore]
@[simp] theorem Hub.endItrick_bounds (h : Hub) (t : ITrick) : (h.endItrick t).SameBounds h := ⟨rfl, rfl, rfl, rfl⟩
@[simp] theorem Hub.unreserve_bounds (h : Hub) (ls : List (Nat × Nat)) : (h.unreserve ls).SameBounds h := ⟨rfl, rfl, rfl, rfl⟩

@[simp] theorem Hub.abandon_bounds (h : Hub) (b : Nat) : (h.abandon b).SameBounds h := by
  unfold Hub.abandon
  dsimp only
  repeat' split
  all_goals simp

@[simp] theorem Hub.kickRepair_stores (h : Hub) (st : Nat) : (h.kickRepair st).SameStores h := by
  unfold Hub.kickRepair
  split <;> simp

@[simp] theorem Hub.requestRepair_stores (h : Hub) (ps off : Nat) : (h.requestRepair ps off).SameStores h := by
  simp [Hub.requestRepair]

@[simp] theorem Hub.reportCe_stores (h : Hub) (ps n : Nat) : (h.reportCe ps n).SameStores h := ⟨rfl, rfl⟩

@[simp] theorem Hub.noteUe_stores (h : Hub) (ps off : Nat) (sector source : Nat) :
    (h.noteUe ps off sector source).SameStores h := by simp [Hub.noteUe]

@[simp] theorem Hub.reportUe_stores (h : Hub) (ps off : Nat) (sector source : Nat) :
    (h.reportUe ps off sector source).SameStores h := by simp [Hub.reportUe]

@[simp] theorem Hub.reportMac_stores (h : Hub) (ps off : Nat) : (h.reportMac ps off).SameStores h := by simp [Hub.reportMac]

@[simp] theorem Hub.abandonWhere_bounds (h : Hub) (on : Nat → Bool) : (h.abandonWhere on).SameBounds h := by
  simp [Hub.abandonWhere]

@[simp] theorem Hub.writeWords_stores (h : Hub) (k off i : Nat) (x : Sector) : (h.writeWords k off i x).SameStores h := by
  simp [Hub.writeWords]

@[simp] theorem Hub.reportMetaUe_stores (h : Hub) (k off : Nat) (i ps source : Nat) :
    (h.reportMetaUe k off i ps source).SameStores h := by simp [Hub.reportMetaUe]

/-! Lines of the cache die -/

@[simp] theorem Hub.putWb_stores (h : Hub) (e : WbEntry) : (h.putWb e).SameStores h := ⟨rfl, rfl⟩
@[simp] theorem Hub.dropWb_stores (h : Hub) (p l : Nat) : (h.dropWb p l).SameStores h := ⟨rfl, rfl⟩
@[simp] theorem Hub.rerank_stores (h : Hub) (ks : List Nat) : (h.rerank ks).SameStores h := by simp [Hub.rerank]
@[simp] theorem Hub.protect_stores (h : Hub) (set k : Nat) : (h.protect set k).SameStores h := by simp [Hub.protect]

@[simp] theorem Hub.touch_stores (h : Hub) (k hint : Nat) (insert : Bool) : (h.touch k hint insert).SameStores h := by
  simp [Hub.touch]

@[simp] theorem Hub.noteCacheUe_stores (h : Hub) : h.noteCacheUe.SameStores h := by simp [Hub.noteCacheUe]
@[simp] theorem Hub.noteCacheCe_stores (h : Hub) : h.noteCacheCe.SameStores h := ⟨rfl, rfl⟩

@[simp] theorem Hub.readUnit_stores (h : Hub) (k i : Nat) : (h.readUnit k i).SameStores h := by
  unfold Hub.readUnit
  dsimp only
  split <;> simp

@[simp] theorem Hub.readWay_stores (h : Hub) (k : Nat) (mask : BitVec 4) : (h.readWay k mask).SameStores h := by
  simp [Hub.readWay]

@[simp] theorem Hub.readWb_stores (h : Hub) (p l : Nat) (mask : BitVec 4) :
    (h.readWb p l mask).SameStores h := by
  refine foldl_stores _ (fun h i => ?_) _ h
  split
  · exact ⟨rfl, rfl⟩
  · dsimp only
    split
    · exact ⟨rfl, rfl⟩
    · split <;> simp

@[simp] theorem Hub.readWord_stores (h : Hub) (k s : Nat) : (h.readWord k s).SameStores h := by
  unfold Hub.readWord
  dsimp only
  repeat' split
  all_goals simp

@[simp] theorem Hub.readLineWord_stores (h : Hub) (p l : Nat) : (h.readLineWord p l).SameStores h := by
  unfold Hub.readLineWord
  split <;> simp

@[simp] theorem Hub.askTags_stores (h : Hub) (p l : Nat) (want : BitVec 4) :
    (h.askTags p l want).SameStores h := by
  unfold Hub.askTags
  split
  · exact ⟨rfl, rfl⟩
  · split
    · exact ⟨rfl, rfl⟩
    · split <;> simp

@[simp] theorem Hub.dropTags_stores (h : Hub) (p l : Nat) : (h.dropTags p l).SameStores h := by
  unfold Hub.dropTags
  split <;> simp

@[simp] theorem Hub.noteEvicted_stores (h : Hub) (p l : Nat) : (h.noteEvicted p l).SameStores h := ⟨rfl, rfl⟩

@[simp] theorem Hub.evict_stores (h : Hub) (k : Nat) : ((h.evict k).getD h).SameStores h := by
  unfold Hub.evict
  dsimp only
  repeat' split
  all_goals simp

@[simp] theorem Hub.setChosen_stores (h : Hub) (v : List (Nat × Nat × Nat)) : (h.setChosen v).SameStores h := ⟨rfl, rfl⟩
@[simp] theorem Hub.unchoose_stores (h : Hub) (p l : Nat) : (h.unchoose p l).SameStores h := ⟨rfl, rfl⟩

@[simp] theorem Hub.allocate_stores (h : Hub) (p l hint : Nat) :
    (h.allocate p l hint).2.SameStores h := by
  unfold Hub.allocate
  extract_lets set base fillIn plain
  have hfill (h : Hub) (k : Nat) (w : Way) : (fillIn h k w).SameStores h := by
    simp only [fillIn]
    split <;> simp
  have hplain (h : Hub) (hint : Nat) : (plain h hint).2.SameStores h := by
    simp only [plain]
    split
    · exact ⟨rfl, rfl⟩
    · next k _ =>
      have hk := h.evict_stores k
      split
      · simp
      · next he => simpa [he, hfill] using hk
  split
  · exact hplain h hint
  · dsimp only
    split
    · exact hfill ..
    · have hp := hplain h 0
      split
      · next he => simpa [he] using hp
      · exact hp

@[simp] theorem Hub.putOp_stores (h : Hub) (o : LineOp) : (h.putOp o).SameStores h := ⟨rfl, rfl⟩
@[simp] theorem Hub.dropOp_stores (h : Hub) (id : Nat) : (h.dropOp id).SameStores h := ⟨rfl, rfl⟩

@[simp] theorem Hub.fetchOf_stores (h : Hub) (kind : FetchKind) (p l : Nat) (ps k off : Nat) (want : BitVec 4) (c : Cause) (op : Nat) :
    (h.fetchOf kind p l ps k off want c op).2.SameStores h := by simp [Hub.fetchOf]

@[simp] theorem Hub.startFetch_stores (h : Hub) (kind : FetchKind) (p l : Nat) (want : BitVec 4) (c : Cause) (op : Nat) :
    (h.startFetch kind p l want c op).2.SameStores h := by
  unfold Hub.startFetch
  split <;> simp

@[simp] theorem Hub.fetchFor_stores (h : Hub) (kind : FetchKind) (o : LineOp) (want : BitVec 4) :
    (h.fetchFor kind o want).SameStores h := by simp [Hub.fetchFor]

@[simp] theorem Hub.fetchWordAt_stores (h : Hub) (p l : Nat) (k s : Nat) (c : Cause) :
    (h.fetchWordAt p l k s c).2.SameStores h := by
  unfold Hub.fetchWordAt
  dsimp only
  split <;> simp

@[simp] theorem Hub.fetchWord_stores (h : Hub) (p l : Nat) (c : Cause) : (h.fetchWord p l c).2.SameStores h := by
  unfold Hub.fetchWord
  split <;> simp

@[simp] theorem Hub.noteLow_stores (h : Hub) (p : Nat) : (h.noteLow p).SameStores h := by simp [Hub.noteLow]
@[simp] theorem Hub.freeDirty_stores (h : Hub) (p b : Nat) : (h.freeDirty p b).SameStores h := ⟨rfl, rfl⟩

@[simp] theorem Hub.abandonMove_stores (h : Hub) (p w : Nat) : (h.abandonMove p w).SameStores h := by
  unfold Hub.abandonMove
  split <;> simp

@[simp] theorem Hub.voidCount_stores (h : Hub) (p l : Nat) (up : Bool) : (h.voidCount p l up).SameStores h := by
  simp [Hub.voidCount]

@[simp] theorem Hub.dropLine_stores (h : Hub) (p l : Nat) : (h.dropLine p l).SameStores h := by
  unfold Hub.dropLine
  split <;> simp

@[simp] theorem Hub.makeVoid_stores (h : Hub) (p l : Nat) : (h.makeVoid p l).SameStores h := by simp [Hub.makeVoid]
@[simp] theorem Hub.clearVoid_stores (h : Hub) (p l : Nat) : (h.clearVoid p l).SameStores h := by simp [Hub.clearVoid]

@[simp] theorem Hub.feedChunk_stores (h : Hub) (k base : Nat) :
    (h.feedChunk k base).SameStores h := by
  unfold Hub.feedChunk
  split
  · exact ⟨rfl, rfl⟩
  · extract_lets absent offs void word sector h1
    have e1 : h1.SameStores h := foldl_stores _ (fun h s => by simp) _ h
    simp [e1]

@[simp] theorem Hub.makePending_stores (h : Hub) (slab off : Nat) : (h.makePending slab off).SameStores h := by
  simp [Hub.makePending]

@[simp] theorem Hub.finishRead_stores (h : Hub) (o : LineOp) (code : Nat) (data : List Sector) (fold : Bool) :
    (h.finishRead o code data fold).SameStores h := by simp [Hub.finishRead]

@[simp] theorem Hub.evRead_stores (h : Hub) (o : LineOp) (code : Nat) : (h.evRead o code).SameStores h := by simp [Hub.evRead]

/-- The hub that an allocation which waits leaves is the one it was given. -/
theorem Hub.waitWay_stores {h h' : Hub} (o : LineOp) (e : h'.SameStores h) :
    ((h.waitWay h' o).getD h).SameStores h := by
  unfold Hub.waitWay
  dsimp only
  repeat' split
  all_goals simp [e]

@[simp] theorem Hub.fillWay_stores (h : Hub) (k : Nat) (x : Line) (dirty : Bool) :
    (h.fillWay k x dirty).SameStores h := ⟨rfl, rfl⟩

@[simp] theorem Hub.fillFor_stores (h : Hub) (kind : FetchKind) (o : LineOp) (k : Nat) (want : BitVec 4) :
    (h.fillFor kind o k want).SameStores h := by simp [Hub.fillFor]

@[simp] theorem Hub.serveRead_stores (h : Hub) (o : LineOp) :
    ((h.serveRead o).getD h).SameStores h := by
  unfold Hub.serveRead
  extract_lets p l fold req m own hit narrow want miss
  have hhit (h : Hub) : (hit h).SameStores h := by simp [hit]
  have hmiss : ((miss ()).getD h).SameStores h := by
    simp only [miss]
    split
    · simp
    · have ha := h.allocate_stores p l o.hdr.hint.toNat
      split
      · next he => exact waitWay_stores o (by simpa [he] using ha)
      · next he => simpa [he] using ha
  dsimp only
  repeat' split
  all_goals simp [hhit, hmiss]

@[simp] theorem Hub.writeFresh_stores (h : Hub) (p l hint : Nat) (x : Line) :
    (h.writeFresh p l hint x).2.SameStores h := by
  unfold Hub.writeFresh
  split
  · simp
  · have ha := h.allocate_stores p l hint
    split <;> next he => simpa [he] using ha

/-- The hub that a write of a line leaves, h where it waits. -/
def WriteStep.leaves (h : Hub) : WriteStep → Hub
  | .wait => h
  | .noWay g => g
  | .fetch _ _ g => g
  | .done g => g

@[simp] theorem Hub.writeLine_stores (h : Hub) (p l hint : Nat) (en : BitVec 256) (x : Line) (own : Bool) :
    ((h.writeLine p l hint en x own).leaves h).SameStores h := by
  unfold Hub.writeLine
  extract_lets full ch m unpoison touched need put
  have hunpoison (h : Hub) : (unpoison h).SameStores h := by simp [unpoison]
  have hput (h : Hub) (k : Nat) (ins : Bool) : (put h k ins).SameStores h := by
    simp [put, hunpoison]
  have hfresh := h.writeFresh_stores p l hint (Line.merge 0 en x)
  have halloc := h.allocate_stores p l hint
  dsimp only
  split
  · split
    · exact ⟨rfl, rfl⟩
    · split <;> next he => rw [he] at hfresh; simpa [WriteStep.leaves] using hfresh
  · split
    · exact ⟨rfl, rfl⟩
    · split
      · split <;> next he => rw [he] at hfresh; simpa [WriteStep.leaves] using hfresh
      · split
        · repeat' split
          all_goals simp [WriteStep.leaves, hput]
        · repeat' split
          all_goals simp [WriteStep.leaves, hunpoison]
        · split
          · next he => simpa [he, WriteStep.leaves] using halloc
          · next he => split <;> simpa [he, WriteStep.leaves, hput] using halloc

@[simp] theorem Hub.serveWrite_stores (h : Hub) (o : LineOp) :
    ((h.serveWrite o).getD h).SameStores h := by
  unfold Hub.serveWrite
  have hw := h.writeLine_stores o.part.toNat o.line o.hdr.hint.toNat o.en o.data (decide (o.fetch ≠ 0))
  split
  · exact ⟨rfl, rfl⟩
  · next he => rw [he] at hw; exact waitWay_stores o hw
  · next he => rw [he] at hw; simpa [WriteStep.leaves] using hw
  · next he => rw [he] at hw; simpa [WriteStep.leaves] using hw

@[simp] theorem Hub.reportDrop_stores (h : Hub) (p l : Nat) : (h.reportDrop p l).SameStores h := by simp [Hub.reportDrop]

@[simp] theorem Hub.enterReducing_stores (h : Hub) (p l : Nat) : (h.enterReducing p l).SameStores h := by
  unfold Hub.enterReducing
  split <;> simp

@[simp] theorem Hub.serveReduce_stores (h : Hub) (o : LineOp) :
    ((h.serveReduce o).getD h).SameStores h := by
  unfold Hub.serveReduce
  extract_lets p l hint ch m req already
  have hfresh := h.writeFresh_stores p l hint
  have halloc := h.allocate_stores p l hint
  split
  · exact ⟨rfl, rfl⟩
  · split
    · split
      · exact ⟨rfl, rfl⟩
      · have hx := hfresh 0
        split
        · next he => rw [he] at hx; exact waitWay_stores o hx
        · next he => rw [he] at hx; simpa using hx
    · split
      · exact ⟨rfl, rfl⟩
      · split
        · have hx := hfresh (identityLine o.redFmt o.hdr.rop.toNat o.redBase o.redLen o.en)
          split
          · next he => rw [he] at hx; exact waitWay_stores o hx
          · next he => rw [he] at hx; simpa using hx
        · split
          · simp
          · split
            · dsimp only
              repeat' split
              all_goals simp
            · repeat' split
              all_goals simp
            · split
              · next he => exact waitWay_stores o (by simpa [he] using halloc)
              · next he => simpa [he] using halloc

@[simp] theorem Hub.serveClear_stores (h : Hub) (o : LineOp) :
    ((h.serveClear o).getD h).SameStores h := by
  unfold Hub.serveClear
  extract_lets p l m ch finish
  have halloc := h.allocate_stores p l 0
  have hfinish (h : Hub) : (finish h).SameStores h := by simp [finish]
  split
  · simp
  · split
    · exact ⟨rfl, rfl⟩
    · split
      · simp
      · split
        · dsimp only
          repeat' split
          all_goals simp [hfinish]
        · repeat' split
          all_goals simp [hfinish]
        · split
          · next he => exact waitWay_stores o (by simpa [he] using halloc)
          · next he => simpa [he] using halloc

@[simp] theorem Hub.serveLock_stores (h : Hub) (o : LineOp) (slot : Nat) :
    ((h.serveLock o slot).getD h).SameStores h := by
  unfold Hub.serveLock
  dsimp only
  repeat' split
  all_goals simp

@[simp] theorem Hub.readUnits_stores (h : Hub) (p l : Nat) (mask : BitVec 4) : (h.readUnits p l mask).SameStores h := by
  unfold Hub.readUnits
  split <;> simp

@[simp] theorem Hub.serve_stores (h : Hub) (o : LineOp) :
    ((h.serve o).getD h).SameStores h := by
  unfold Hub.serve
  extract_lets p l h1
  have e1 : h1.SameStores h := by simp [h1]
  have back {x : Option Hub} {g : Hub} (hg : g.SameStores h)
      (hx : (x.getD g).SameStores g) :
      (x.getD h).SameStores h := by
    cases x with
    | none => exact ⟨rfl, rfl⟩
    | some y => exact ⟨hx.1.trans hg.1, hx.2.trans hg.2⟩
  generalize (_ || h.chosenLine o) = passed
  split
  · exact ⟨rfl, rfl⟩
  · split
    · simp [e1]
    · have e2 : (h1.readUnits p l o.reads).SameStores h := by simp [e1]
      split
      · exact back e2 (serveRead_stores ..)
      · exact back e2 (serveWrite_stores ..)
      · exact back e2 (serveReduce_stores ..)
      · exact back e2 (serveClear_stores ..)
      · exact back e2 (serveLock_stores ..)
      · exact ⟨rfl, rfl⟩
      · exact ⟨rfl, rfl⟩

@[simp] theorem Hub.settleLineN_stores (h : Hub) (part : BitVec 6) (l n : Nat) :
    (h.settleLineN part l n).SameStores h := by
  induction n generalizing h with
  | zero => exact ⟨rfl, rfl⟩
  | succ n ih =>
    unfold Hub.settleLineN
    split
    · exact ⟨rfl, rfl⟩
    · next o _ =>
      split
      · exact ⟨rfl, rfl⟩
      · have ho := h.serve_stores o
        split
        · next he => simpa [he, ih] using ho
        · exact ⟨rfl, rfl⟩

@[simp] theorem Hub.servePass_stores (h : Hub) : h.servePass.1.SameStores h := by
  refine foldl_carried_stores Prod.fst _ (fun x id => ?_) _ (h, false)
  split
  · exact ⟨rfl, rfl⟩
  · next o _ =>
    split
    · have ho := x.1.serve_stores o
      split
      · next he => simpa [he] using ho
      · exact ⟨rfl, rfl⟩
    · exact ⟨rfl, rfl⟩

@[simp] theorem Hub.settleN_stores (h : Hub) (n : Nat) : (h.settleN n).SameStores h := by
  induction n generalizing h with
  | zero => exact ⟨rfl, rfl⟩
  | succ n ih =>
    unfold Hub.settleN
    have hp := h.servePass_stores
    split
    · next he => simpa [he, ih] using hp
    · exact ⟨rfl, rfl⟩

@[simp] theorem Hub.settle_stores (h : Hub) : h.settle.SameStores h := by simp [Hub.settle]

@[simp] theorem Hub.settleLine_stores (h : Hub) (part : BitVec 6) (l : Nat) : (h.settleLine part l).SameStores h := by
  simp [Hub.settleLine]

/-! Tricks and pages -/

@[simp] theorem Hub.gather_stores (h : Hub) (p l : Nat) (c : Cause) :
    (h.gather p l c).SameStores h := by
  unfold Hub.gather
  extract_lets fill h1 h2
  have hfill (h : Hub) (k : Nat) (want : BitVec 4) : (fill h k want).SameStores h := by simp [fill]
  have e2 : h2.SameStores h := by simp [h2, h1]
  clear_value h2
  split
  · simp [h1]
  · split
    · dsimp only
      split <;> simp [hfill, e2]
    · have ha := h2.allocate_stores p l 0
      repeat' split
      all_goals simp_all

@[simp] theorem Hub.leaveRoom_stores (h : Hub) (id : Nat) : (h.leaveRoom id).SameStores h := ⟨rfl, rfl⟩

@[simp] theorem Hub.endTrick_stores (h : Hub) (slot req : Nat) (code result detail : Nat) :
    (h.endTrick slot req code result detail).SameStores h := by
  unfold Hub.endTrick
  dsimp only
  split <;> simp

@[simp] theorem Hub.releaseLocks_stores (h : Hub) (slot : Nat) :
    (h.releaseLocks slot).SameStores h := by
  refine foldl_stores _ (fun h v => ?_) _ (h.setLines _)
  split
  · dsimp only
    split <;> simp
  · exact ⟨rfl, rfl⟩

@[simp] theorem Hub.recordOpen_stores (h : Hub) (r : Req) : (h.recordOpen r).SameStores h := by
  unfold Hub.recordOpen
  dsimp only
  split <;> simp

@[simp] theorem Hub.recordWrite_stores (h : Hub) (r : Req) : (h.recordWrite r).SameStores h := by simp [Hub.recordWrite]
@[simp] theorem Hub.recordCompare_stores (h : Hub) (r : Req) : (h.recordCompare r).SameStores h := by simp [Hub.recordCompare]
@[simp] theorem Hub.recordCommit_stores (h : Hub) (r : Req) : (h.recordCommit r).SameStores h := by simp [Hub.recordCommit]
@[simp] theorem Hub.recordAbort_stores (h : Hub) (r : Req) : (h.recordAbort r).SameStores h := by simp [Hub.recordAbort]
@[simp] theorem Hub.phaseOneDone_stores (h : Hub) (slot : Nat) : (h.phaseOneDone slot).SameStores h := by simp [Hub.phaseOneDone]
@[simp] theorem Hub.enterRoom_stores (h : Hub) (id : Nat) : (h.enterRoom id).SameStores h := by simp [Hub.enterRoom]

@[simp] theorem Hub.applyTrick_stores (h : Hub) (slot : Nat) : (h.applyTrick slot).SameStores h := by
  refine foldl_stores _ (fun g s => ?_) _ h
  extract_lets h1
  have e1 : h1.SameStores g := by
    simp only [h1]
    split <;> simp
  have hw := h1.writeLine_stores (h.trick slot).part.toNat s.line 0 s.en s.data false
  split
  · next he => rw [he] at hw; exact ⟨hw.1.trans e1.1, hw.2.trans e1.2⟩
  all_goals exact e1

@[simp] theorem Hub.readLocked_stores (h : Hub) (t : Trick) : (h.readLocked t).SameStores h := by simp [Hub.readLocked]
@[simp] theorem Hub.runAgain_stores (h : Hub) (slot : Nat) : (h.runAgain slot).SameStores h := by simp [Hub.runAgain]

@[simp] theorem Hub.conclude_stores (h : Hub) (slot result detail : Nat) : (h.conclude slot result detail).SameStores h := by
  simp [Hub.conclude]

@[simp] theorem Hub.phaseTwoDone_stores (h : Hub) (slot : Nat) : (h.phaseTwoDone slot).SameStores h := by
  unfold Hub.phaseTwoDone
  dsimp only
  repeat' split
  all_goals simp

@[simp] theorem Hub.commitTimeout_stores (h : Hub) (slot : Nat) : (h.commitTimeout slot).SameStores h := by
  simp [Hub.commitTimeout]

@[simp] theorem Hub.openLimit_stores (h : Hub) (slot : Nat) : (h.openLimit slot).SameStores h := by simp [Hub.openLimit]

@[simp] theorem Hub.zeroPage_stores (h : Hub) (p b : Nat) (void : Bool) : (h.zeroPage p b void).SameStores h := by
  simp [Hub.zeroPage]

@[simp] theorem Hub.voidPage_stores (h : Hub) (p b : Nat) : (h.voidPage p b).SameStores h := by simp [Hub.voidPage]

@[simp] theorem Hub.allocPage_stores (h : Hub) (p w : Nat) :
    ((h.allocPage p w).getD h).SameStores h := by
  unfold Hub.allocPage
  split <;> simp

@[simp] theorem Hub.startRelease_stores (h : Hub) (r : Req) : (h.startRelease r).SameStores h := by simp [Hub.startRelease]

@[simp] theorem Hub.unmapPage_stores (h : Hub) (rel : PageRel) (p w : Nat) : (h.unmapPage rel p w).SameStores h := by
  simp [Hub.unmapPage]

@[simp] theorem Hub.commitRelease_stores (h : Hub) (p w : Nat) : (h.commitRelease p w).SameStores h := by
  unfold Hub.commitRelease
  split <;> simp

/-! Repair and retirement -/

@[simp] theorem Hub.mapChanged_stores (h : Hub) : h.mapChanged.SameStores h := by simp [Hub.mapChanged]

@[simp] theorem Hub.endRetireOp_stores (h : Hub) (ps code : Nat) : (h.endRetireOp ps code).SameStores h := by
  unfold Hub.endRetireOp
  split <;> simp

@[simp] theorem Hub.retireAgain_bounds (h : Hub) : h.retireAgain.SameBounds h := by
  unfold Hub.retireAgain
  split <;> simp

@[simp] theorem Hub.startPending_bounds (h : Hub) : h.startPending.SameBounds h := by
  unfold Hub.startPending
  split <;> simp

@[simp] theorem Hub.checkOffline_bounds (h : Hub) : h.checkOffline.SameBounds h := by simp [Hub.checkOffline]
@[simp] theorem Hub.abandonSettled_stores (h : Hub) (a : Nat) : (h.abandonSettled a).SameStores h := ⟨rfl, rfl⟩

@[simp] theorem Hub.commitRetireStart_stores (h : Hub) (k a b : Nat) : (h.commitRetireStart k a b).SameStores h := by
  unfold Hub.commitRetireStart
  split <;> simp

@[simp] theorem Hub.commitRetireEnd_stores (h : Hub) (k a b : Nat) : (h.commitRetireEnd k a b).SameStores h := by
  unfold Hub.commitRetireEnd
  dsimp only
  split <;> simp

@[simp] theorem Hub.commitAbandon_stores (h : Hub) (k a b : Nat) : (h.commitAbandon k a b).SameStores h := by
  unfold Hub.commitAbandon
  dsimp only
  split <;> simp

@[simp] theorem Hub.commitPending_stores (h : Hub) (a : Nat) : (h.commitPending a).SameStores h := by
  unfold Hub.commitPending
  split <;> simp

@[simp] theorem Hub.commitReadmit_stores (h : Hub) (ps : Nat) : (h.commitReadmit ps).SameStores h := by
  unfold Hub.commitReadmit
  dsimp only
  split <;> simp

@[simp] theorem Hub.holdLine_stores (h : Hub) (p l : Nat) : (h.holdLine p l).SameStores h := by
  unfold Hub.holdLine
  dsimp only
  split <;> simp

@[simp] theorem Hub.releaseLine_stores (h : Hub) (p l : Nat) : (h.releaseLine p l).SameStores h := by
  unfold Hub.releaseLine
  split <;> simp

@[simp] theorem Hub.fetchBare_stores (h : Hub) (r : Repair) (s : Nat) : (h.fetchBare r s).SameStores h := by simp [Hub.fetchBare]
@[simp] theorem Hub.putRepair_stores (h : Hub) (r r' : Repair) : (h.putRepair r r').SameStores h := ⟨rfl, rfl⟩
@[simp] theorem Hub.setPprBank_stores (h : Hub) (r : Repair) (on : Bool) : (h.setPprBank r on).SameStores h := ⟨rfl, rfl⟩
@[simp] theorem Hub.advanceRepairs_stores (h : Hub) : h.advanceRepairs.SameStores h := by simp [Hub.advanceRepairs]

@[simp] theorem Hub.commitRepair_stores (h : Hub) (ps bg : Nat) (bank row : Nat) :
    (h.commitRepair ps bg bank row).SameStores h := by
  unfold Hub.commitRepair
  split <;> simp

/-! Channel engines -/

@[simp] theorem Hub.countStack_stores (h : Hub) (code i : Nat) (part : Option (BitVec 6)) :
    (h.countStack code i part).SameStores h := by simp [Hub.countStack]

@[simp] theorem Hub.doActivate_stores (h : Hub) (i : Nat) (e : Cand) : (h.doActivate i e).SameStores h := by
  unfold Hub.doActivate
  dsimp only
  split <;> simp

@[simp] theorem Hub.doRead_stores (h : Hub) (i : Nat) (s : Stack) (e : RdEntry) : (h.doRead i s e).SameStores h := by
  simp [Hub.doRead]

@[simp] theorem Hub.doRefresh_stores (h : Hub) (i : Nat) (s : Stack) (k : Nat) (forced : Bool) :
    (h.doRefresh i s k forced).SameStores h := by simp [Hub.doRefresh]

@[simp] theorem Hub.drainMode_stores (h : Hub) (i : Nat) : (h.drainMode i).SameStores h := by
  unfold Hub.drainMode
  dsimp only
  split <;> simp

@[simp] theorem Hub.account_stores (h : Hub) (i : Nat) (cat : SlotCat) : (h.account i cat).SameStores h := by
  unfold Hub.account
  split <;> simp

@[simp] theorem Hub.rowCommand_stores (h : Hub) (i : Nat) (s : Stack) (cs : List Cand) (inner : Option Cand) :
    (h.rowCommand i s cs inner).1.SameStores h := by
  unfold Hub.rowCommand
  dsimp only
  repeat' split
  all_goals simp

@[simp] theorem Hub.raiseAges_stores (h : Hub) (i : Nat) : (h.raiseAges i).SameStores h := by
  unfold Hub.raiseAges
  dsimp only
  split <;> simp

@[simp] theorem Hub.refreshWindow_stores (h : Hub) (i : Nat) : (h.refreshWindow i).SameStores h := by simp [Hub.refreshWindow]

@[simp] theorem Hub.uncapture_stores (h : Hub) (e : RdEntry) : (h.uncapture e).SameStores h := by
  unfold Hub.uncapture
  split <;> simp

@[simp] theorem Hub.recoverPc_stores (h : Hub) (i : Nat) : (h.recoverPc i).SameStores h := by simp [Hub.recoverPc]

@[simp] theorem Hub.retireList_bounds (h : Hub) (slabs : List Nat) (cause engine : Nat) :
    (h.retireList slabs cause engine).SameBounds h := by simp [Hub.retireList]

@[simp] theorem Hub.parityError_stores (h : Hub) (i : Nat) : (h.parityError i).SameStores h := by simp [Hub.parityError]
@[simp] theorem Hub.stopPc_stores (h : Hub) (i : Nat) (s : Stack) : (h.stopPc i s).SameStores h := by simp [Hub.stopPc]

@[simp] theorem Hub.startSlice_stores (h : Hub) (st kind pcNo : Nat) (op : Bool) :
    (h.startSlice st kind pcNo op).SameStores h := by simp [Hub.startSlice]

@[simp] theorem Hub.periodicSlice_stores (h : Hub) (st : Nat) : (h.periodicSlice st).SameStores h := by simp [Hub.periodicSlice]
@[simp] theorem Hub.resumePc_bounds (h : Hub) (i : Nat) : (h.resumePc i).SameBounds h := by simp [Hub.resumePc]
@[simp] theorem Hub.drift_bounds (h : Hub) (engine : Nat) : (h.drift engine).SameBounds h := by simp [Hub.drift]

@[simp] theorem Hub.sliceEnd_bounds (h : Hub) (st : Nat) (lanes : List LaneReport) (ran : Bool) :
    (h.sliceEnd st lanes ran).SameBounds h := by simp [Hub.sliceEnd]

@[simp] theorem Hub.opSliceNext_stores (h : Hub) (st : Nat) : (h.opSliceNext st).SameStores h := by
  unfold Hub.opSliceNext
  split <;> simp

@[simp] theorem Hub.retrainGo_stores (h : Hub) (st : Nat) : (h.retrainGo st).SameStores h := by simp [Hub.retrainGo]
@[simp] theorem Hub.lanesSet_bounds (h : Hub) (st : Nat) (f : Nat → Bool) : (h.lanesSet st f).SameBounds h := ⟨rfl, rfl, rfl, rfl⟩

@[simp] theorem Hub.channelTrained_stores (h : Hub) (engine : Nat) (passed : Bool) (repaired : Nat) :
    (h.channelTrained engine passed repaired).SameStores h := by simp [Hub.channelTrained]

/-! Order of operations -/

@[simp] theorem Hub.noteRoom_stores (h : Hub) (o : LineOp) : (h.noteRoom o).SameStores h := by simp [Hub.noteRoom]
@[simp] theorem Hub.takeOrder_stores (h : Hub) (o : LineOp) : (h.takeOrder o).SameStores h := by simp [Hub.takeOrder]
@[simp] theorem Hub.orderClears_stores (h : Hub) : h.orderClears.SameStores h := by simp [Hub.orderClears]
@[simp] theorem Hub.settleOn_stores (h : Hub) : h.settleOn.SameStores h := by simp [Hub.settleOn]
@[simp] theorem Hub.withdrawOp_stores (h : Hub) (o : LineOp) : (h.withdrawOp o).SameStores h := ⟨rfl, rfl⟩
@[simp] theorem Hub.dropCommit_stores (h : Hub) (r : Req) : (h.dropCommit r).SameStores h := by simp [Hub.dropCommit]
@[simp] theorem Hub.dropRelease_stores (h : Hub) (req : Nat) : (h.dropRelease req).SameStores h := ⟨rfl, rfl⟩

/-! Traffic management -/

@[simp] theorem Hub.protoError_stores (h : Hub) (p kind tag : Nat) : (h.protoError p kind tag).SameStores h := by
  simp [Hub.protoError]

@[simp] theorem Hub.putOpenFrame_stores (h : Hub) (p c n : Nat) : (h.putOpenFrame p c n).SameStores h := ⟨rfl, rfl⟩
@[simp] theorem Hub.tidyFrame_bounds (h : Hub) (n : Nat) : (h.tidyFrame n).SameBounds h := by simp [Hub.tidyFrame]
@[simp] theorem Hub.newFrame_bounds (h : Hub) (bytes left : Nat) : (h.newFrame bytes left).2.SameBounds h := ⟨rfl, rfl, rfl, rfl⟩

@[simp] theorem Hub.frameFor_stores (h : Hub) (p : Nat) (hd : Header) : (h.frameFor p hd).2.SameStores h := by
  unfold Hub.frameFor
  dsimp only
  repeat' split
  all_goals simp

@[simp] theorem Hub.police_bounds (h : Hub) (hd : Header) : (h.police hd).2.SameBounds h := ⟨rfl, rfl, rfl, rfl⟩

@[simp] theorem Hub.answerNow_stores (h : Hub) (p : BitVec 5) (hd : Header) (code : Nat) :
    (h.answerNow p hd code).SameStores h := by simp [Hub.answerNow]

@[simp] theorem Hub.enqueue_bounds (h : Hub) (src : Src) (hd : Header) (flits : List Sector) (t : Target) (frame : Nat) :
    (h.enqueue src hd flits t frame).2.SameBounds h := ⟨rfl, rfl, rfl, rfl⟩

@[simp] theorem Hub.accept_stores (h : Hub) (p : BitVec 5) (hd : Header) (flits : List Sector) :
    (h.accept p hd flits).2.SameStores h := by
  unfold Hub.accept
  dsimp only
  repeat' split
  all_goals simp

@[simp] theorem Hub.letFrame_stores (h : Hub) (l c n : Nat) : (h.letFrame l c n).2.SameStores h := by
  unfold Hub.letFrame
  dsimp only
  repeat' split
  all_goals simp

@[simp] theorem Hub.classChoice_stores (h : Hub) (a c : Nat) :
    (h.classChoice a c).2.SameStores h := by
  refine foldl_carried_stores Prod.snd _ (fun x r => ?_) _ ([], h)
  dsimp only
  split
  · exact ⟨rfl, rfl⟩
  · split <;> simp

@[simp] theorem Hub.payShaper_stores (h : Hub) (a : Nat) (r : Req) : (h.payShaper a r).SameStores h := by simp [Hub.payShaper]
@[simp] theorem Hub.makeLines_stores (h : Hub) (r : Req) (level : Nat) : (h.makeLines r level).SameStores h := ⟨rfl, rfl⟩

@[simp] theorem Hub.hmmSend_stores (h : Hub) (g n : Nat) : (h.hmmSend g n).SameStores h := by
  induction n generalizing h with
  | zero => exact ⟨rfl, rfl⟩
  | succ n ih =>
    unfold Hub.hmmSend
    dsimp only
    split
    · exact ⟨rfl, rfl⟩
    · split <;> simp [ih]

@[simp] theorem Hub.pass_stores (h : Hub) (r : Req) : (h.pass r).SameStores h := by
  unfold Hub.pass
  dsimp only
  repeat' split
  all_goals simp

@[simp] theorem Hub.served_stores (h : Hub) (a : Nat) (r : Req) : (h.served a r).SameStores h := by simp [Hub.served]
@[simp] theorem Hub.passHeld_stores (h : Hub) (a : Nat) (r : Req) : (h.passHeld a r).SameStores h := by simp [Hub.passHeld]

@[simp] theorem Hub.choose_stores (h : Hub) (a : Nat) : (h.choose a).SameStores h := by
  unfold Hub.choose
  split
  · simp
  · generalize hx : List.foldl _ _ _ = x
    have e : x.2.SameStores h :=
      hx ▸ foldl_carried_stores Prod.snd _ (fun x i => by split <;> simp) _ (none, h)
    dsimp only
    repeat' split
    all_goals simp [e]

@[simp] theorem Hub.arbiterTurn_stores (h : Hub) (a cycle : Nat) : (h.arbiterTurn a cycle).SameStores h := by
  simp [Hub.arbiterTurn]

@[simp] theorem Hub.holdExpiry_stores (h : Hub) (a : Nat) : (h.holdExpiry a).SameStores h := by
  unfold Hub.holdExpiry
  split <;> simp

@[simp] theorem Hub.passSoon_stores (h : Hub) (src : Src) (id : Nat) : (h.passSoon src id).SameStores h := by
  unfold Hub.passSoon
  dsimp only
  repeat' split
  all_goals simp

@[simp] theorem Hub.acceptResponse_stores (h : Hub) (p : Nat) : (h.acceptResponse p).SameStores h := by
  unfold Hub.acceptResponse
  dsimp only
  split <;> simp

/-! Home slices -/

@[simp] theorem Hub.withdrawAll_stores (h : Hub) : h.withdrawAll.SameStores h := by simp [Hub.withdrawAll]
@[simp] theorem Hub.assertFatal_stores (h : Hub) : h.assertFatal.SameStores h := by simp [Hub.assertFatal]

@[simp] theorem Hub.inject_stores (h : Hub) (p l : Nat) (found : Flips) : (h.inject p l found).SameStores h := by
  unfold Hub.inject
  dsimp only
  repeat' split
  all_goals simp

@[simp] theorem Hub.order_stores (h : Hub) (id : Nat) (ok : LineOp → Bool) (found : Flips) :
    (h.order id ok found).SameStores h := by
  unfold Hub.order
  split <;> simp

@[simp] theorem Hub.countDraws_stores (h : Hub) (seg n : Nat) : (h.countDraws seg n).SameStores h := by simp [Hub.countDraws]

@[simp] theorem Hub.computeUpdate_stores (h : Hub) (o : LineOp) (target : Line) : (h.computeUpdate o target).2.SameStores h := by
  simp [Hub.computeUpdate]

@[simp] theorem Hub.readTarget_stores (h : Hub) (o : LineOp) : (h.readTarget o).2.SameStores h := by simp [Hub.readTarget]

@[simp] theorem Hub.updateEnd_stores (h : Hub) (p l : Nat) : (h.updateEnd p l).SameStores h := by
  unfold Hub.updateEnd
  dsimp only
  repeat' split
  all_goals simp

@[simp] theorem Hub.judge_stores (h : Hub) (f : Fetch) (errs : Flips) : (h.judge f errs).2.SameStores h := by simp [Hub.judge]
@[simp] theorem Hub.refetch_stores (h : Hub) (f : Fetch) : (h.refetch f).SameStores h := by simp [Hub.refetch]

@[simp] theorem Hub.reportFound_stores (h : Hub) (f : Fetch) (r : Found) (source : Nat) :
    (h.reportFound f r source).SameStores h := by simp [Hub.reportFound]

@[simp] theorem Hub.placeFetch_stores (h : Hub) (f : Fetch) (r : Found) : (h.placeFetch f r).SameStores h := by
  unfold Hub.placeFetch
  dsimp only
  repeat' split
  all_goals simp

@[simp] theorem Hub.reduceLost_stores (h : Hub) (f : Fetch) (r : Found) : (h.reduceLost f r).SameStores h := by
  unfold Hub.reduceLost
  split <;> simp

@[simp] theorem Hub.dataArrival_stores (h : Hub) (f : Fetch) (errs : Flips) : (h.dataArrival f errs).SameStores h := by
  simp [Hub.dataArrival]

@[simp] theorem Hub.landSector_stores (h : Hub) (k off i : Nat) :
    (h.landSector k off i).SameStores h := by
  refine foldl_stores _ (fun h j => ?_) _ h
  split <;> simp

@[simp] theorem Hub.gatherOn_stores (h : Hub) : h.gatherOn.SameStores h := by simp [Hub.gatherOn]

@[simp] theorem Hub.metaArrival_stores (h : Hub) (f : Fetch) (errs : Flips) : (h.metaArrival f errs).SameStores h := by
  unfold Hub.metaArrival
  dsimp only
  repeat' split
  all_goals simp

@[simp] theorem Hub.fillArrival_stores (h : Hub) (id : Nat) (errs : Flips) :
    (h.fillArrival id errs).SameStores h := by
  unfold Hub.fillArrival
  split
  · exact ⟨rfl, rfl⟩
  · split
    · exact ⟨rfl, rfl⟩
    · split <;> simp

@[simp] theorem Hub.narrowReturn_stores (h : Hub) (id : Nat) (errs : Flips) : (h.narrowReturn id errs).SameStores h := by
  unfold Hub.narrowReturn
  dsimp only
  repeat' split
  all_goals simp

@[simp] theorem Hub.writeOut_stores (h : Hub) (e : WbEntry) (k s : Nat) (errs : Flips) :
    (h.writeOut e k s errs).SameStores h := by simp [Hub.writeOut]

@[simp] theorem Hub.askWrite_stores (h : Hub) (e : WbEntry) (k s : Nat) (errs : Flips) :
    (h.askWrite e k s errs).SameStores h := by
  unfold Hub.askWrite
  dsimp only
  split <;> simp

@[simp] theorem Hub.handoff_stores (h : Hub) (p l : Nat) (errs : Flips) : (h.handoff p l errs).SameStores h := by
  unfold Hub.handoff
  split <;> simp

@[simp] theorem Hub.deadline_stores (h : Hub) (id : Nat) : (h.deadline id).SameStores h := by
  unfold Hub.deadline
  dsimp only
  repeat' split
  all_goals simp

/-! Pages and copies -/

@[simp] theorem Hub.placeLocks_stores (h : Hub) (t : ITrick) : (h.placeLocks t).SameStores h := ⟨rfl, rfl⟩

@[simp] theorem Hub.attempt_stores (h : Hub) (g : Nat) (move : Option Nat) (target : Nat) (a : Tries) (ls : List (Nat × Nat)) :
    (h.attempt g move target a ls).2.SameStores h := by
  unfold Hub.attempt
  dsimp only
  repeat' split
  all_goals simp

@[simp] theorem Hub.askCopy_stores (h : Hub) (ctx : Nat) (i : CopyItem) : (h.askCopy ctx i).SameStores h := by
  unfold Hub.askCopy
  dsimp only
  repeat' split
  all_goals simp

@[simp] theorem Hub.copyValue_stores (h : Hub) (t : ITrick) (n : Nat) (i : CopyItem) (errs : Flips) :
    (h.copyValue t n i errs).2.2.SameStores h := by
  unfold Hub.copyValue
  dsimp only
  split <;> simp

@[simp] theorem Hub.dropLostReads_stores (h : Hub) (t : ITrick) (items : List CopyItem) (errs : Flips) :
    (h.dropLostReads t items errs).SameStores h := by
  refine foldl_stores _ (fun h e => ?_) _ h
  split <;> simp

@[simp] theorem Hub.itrickStep_stores {h : Hub} {ctx : Nat} {items : List CopyItem} {errs : Flips} {commit : ITrick → Hub → Hub}
    (e : ∀ t h, (commit t h).SameStores h) :
    (h.itrickStep ctx items errs commit).SameStores h := by
  unfold Hub.itrickStep
  split
  · exact ⟨rfl, rfl⟩
  · dsimp only
    split <;> simp [e]

@[simp] theorem Hub.putMove_stores (h : Hub) (g : Nat) (m : Option PageMove) : (h.putMove g m).SameStores h := ⟨rfl, rfl⟩
@[simp] theorem Hub.bgCharge_stores (h : Hub) (p bytes : Nat) : (h.bgCharge p bytes).SameStores h := ⟨rfl, rfl⟩

@[simp] theorem Hub.retag_stores (h : Hub) (p l : Nat) : (h.retag p l).SameStores h := by
  unfold Hub.retag
  split <;> simp

@[simp] theorem Hub.commitMove_stores (h : Hub) (g : Nat) (m : PageMove) (t : ITrick) (errs : Flips) :
    (h.commitMove g m t errs).SameStores h := by simp [Hub.commitMove]

@[simp] theorem Hub.moveBatch_stores (h : Hub) (g : Nat) (errs : Flips) :
    (h.moveBatch g errs).SameStores h := by
  unfold Hub.moveBatch
  split
  · exact ⟨rfl, rfl⟩
  · next m _ =>
    split
    · exact ⟨rfl, rfl⟩
    · generalize hx : (if (h.moveTrick g).isSome then ((⟨m.tries, m.blocked⟩ : Tries), h)
        else h.attempt g (some g) 0 ⟨m.tries, m.blocked⟩ m.lines) = x
      have e : x.2.SameStores h := by
        rw [← hx]
        split <;> simp
      dsimp only
      split
      · simp [e]
      · simp [e, itrickStep_stores]

@[simp] theorem Hub.startMove_stores (h : Hub) (p g : Nat) : (h.startMove p g).SameStores h := by
  unfold Hub.startMove
  split <;> simp

@[simp] theorem Hub.zeroNext_stores (h : Hub) (p : Nat) : (h.zeroNext p).SameStores h := by
  unfold Hub.zeroNext
  split <;> simp

@[simp] theorem Hub.allocateFor_stores (h : Hub) (id : Nat) :
    (h.allocateFor id).SameStores h := by
  unfold Hub.allocateFor
  split
  · exact ⟨rfl, rfl⟩
  · next o _ =>
    have ha := h.allocPage_stores o.part.toNat (o.line / 256)
    dsimp only
    split
    · exact ⟨rfl, rfl⟩
    · split
      · next he => simpa [he] using ha
      · simp

@[simp] theorem Hub.putMig_stores (h : Hub) (m : Migration) : (h.putMig m).SameStores h := ⟨rfl, rfl⟩
@[simp] theorem Hub.raiseMark_stores (h : Hub) (m : Migration) : (h.raiseMark m).SameStores h := by simp [Hub.raiseMark]

@[simp] theorem Hub.copyOffset_stores (h : Hub) (m : Migration) (t : ITrick) (n : Nat) (i : CopyItem) (errs : Flips) :
    (h.copyOffset m t n i errs).SameStores h := by simp [Hub.copyOffset]

@[simp] theorem Hub.copyWords_stores (h : Hub) (k base : Nat) : (h.copyWords k base).SameStores h := by simp [Hub.copyWords]

@[simp] theorem Hub.commitBatch_stores (h : Hub) (m : Migration) (t : ITrick) (errs : Flips) :
    (h.commitBatch m t errs).SameStores h := by simp [Hub.commitBatch]

@[simp] theorem Hub.migBatch_stores (h : Hub) (index : Nat) (errs : Flips) :
    (h.migBatch index errs).SameStores h := by
  unfold Hub.migBatch
  split
  · exact ⟨rfl, rfl⟩
  · next m _ =>
    split
    · exact ⟨rfl, rfl⟩
    · split
      · simp
      · exact ⟨rfl, rfl⟩
      · generalize hx : (if (h.migTrick m).isSome then ((⟨m.tries, m.blocked⟩ : Tries), h)
          else h.attempt (h.lslab m.k).home.toNat none m.b ⟨m.tries, m.blocked⟩ (h.migLines m)) = x
        have e : x.2.SameStores h := by
          rw [← hx]
          split <;> simp
        dsimp only
        split
        · simp [e]
        · simp [e, itrickStep_stores]

/-! Scrubber, row repair, READMIT -/

@[simp] theorem Hub.fillChunk_stores (h : Hub) (k region chunk : Nat) : (h.fillChunk k region chunk).SameStores h := by
  simp [Hub.fillChunk]

@[simp] theorem Hub.backgroundChunk_stores (h : Hub) (k region : Nat) : (h.backgroundChunk k region).SameStores h := by
  unfold Hub.backgroundChunk
  dsimp only
  repeat' split
  all_goals simp

@[simp] theorem Hub.putScrub_stores (h : Hub) (st : Nat) (v : Scrub) : (h.putScrub st v).SameStores h := ⟨rfl, rfl⟩
@[simp] theorem Hub.scrubPassEnd_stores (h : Hub) : h.scrubPassEnd.SameStores h := by simp [Hub.scrubPassEnd]

@[simp] theorem Hub.scrubIssue_stores (h : Hub) (st : Nat) : (h.scrubIssue st).SameStores h := by
  unfold Hub.scrubIssue
  dsimp only
  repeat' split
  all_goals simp

@[simp] theorem Hub.scrubAgain_stores (h : Hub) (f : Fetch) (i : Nat) : (h.scrubAgain f i).SameStores h := by
  simp [Hub.scrubAgain]

@[simp] theorem Hub.scrubApply_stores (h : Hub) (f : Fetch) (i : Nat) (j : Judged × Sector) (line : Option (Nat × Nat)) :
    (h.scrubApply f i j line).SameStores h := by
  unfold Hub.scrubApply
  dsimp only
  repeat' split
  all_goals simp

@[simp] theorem Hub.scrubFix_stores (h : Hub) (f : Fetch) (i : Nat) (j : Judged × Sector) : (h.scrubFix f i j).SameStores h := by
  unfold Hub.scrubFix
  dsimp only
  repeat' split
  all_goals simp

@[simp] theorem Hub.scrubMeta_stores (h : Hub) (f : Fetch) (i : Nat) (j : Judged × Sector) :
    (h.scrubMeta f i j).SameStores h := by
  unfold Hub.scrubMeta
  split
  · exact ⟨rfl, rfl⟩
  · split <;> simp

@[simp] theorem Hub.scrubRead_stores (h : Hub) (st : Nat) (errs : Flips) : (h.scrubRead st errs).SameStores h := by
  unfold Hub.scrubRead
  split <;> simp

@[simp] theorem Hub.rewriteBare_stores (h : Hub) (r : Repair) (s : Nat) (errs : Flips) (base : Nat) :
    (h.rewriteBare r s errs base).SameStores h := by simp [Hub.rewriteBare]

@[simp] theorem Hub.rewrite_stores (h : Hub) (r : Repair) (s : Nat) (errs : Flips) (base : Nat) :
    (h.rewrite r s errs base).SameStores h := by
  unfold Hub.rewrite
  dsimp only
  repeat' split
  all_goals simp

@[simp] theorem Hub.dropRepair_stores (h : Hub) (r : Repair) : (h.dropRepair r).SameStores h := by simp [Hub.dropRepair]

@[simp] theorem Hub.pprEnd_stores (h : Hub) (st units : Nat) (noSpare : Bool) (errs : Flips) :
    (h.pprEnd st units noSpare errs).SameStores h := by
  unfold Hub.pprEnd
  split <;> simp

@[simp] theorem Hub.retireGo_stores (h : Hub) : h.retireGo.SameStores h := by simp [Hub.retireGo]

/-! Write-back of everything -/

@[simp] theorem Hub.cleanWay_stores (h : Hub) (k : Nat) (errs : Flips) : (h.cleanWay k errs).SameStores h := by
  unfold Hub.cleanWay
  dsimp only
  repeat' split
  all_goals simp

@[simp] theorem Hub.cleanWb_stores (h : Hub) (e : WbEntry) (errs : Flips) : (h.cleanWb e errs).SameStores h := by
  unfold Hub.cleanWb
  split <;> simp

@[simp] theorem Hub.cleanLine_stores (h : Hub) (p l : Nat) (errs : Flips) : (h.cleanLine p l errs).SameStores h := by
  unfold Hub.cleanLine
  split <;> simp

@[simp] theorem Hub.cleanLines_stores (h : Hub) (ls : List (Nat × Nat)) (errs : Flips) : (h.cleanLines ls errs).SameStores h := by
  simp [Hub.cleanLines]

@[simp] theorem Hub.flushAll_stores (h : Hub) : h.flushAll.2.SameStores h := by simp [Hub.flushAll]

@[simp] theorem Hub.emptyWays_stores (h : Hub) (ks : List Nat) (busy : Hub → Nat → Bool) (errs : Flips) :
    (h.emptyWays ks busy errs).SameStores h := by simp [Hub.emptyWays]

@[simp] theorem Hub.unread_bounds (h : Hub) (st : Nat) : (h.unread st).SameBounds h := ⟨rfl, rfl, rfl, rfl⟩

@[simp] theorem Hub.enterSelfRefresh_stores (h : Hub) (st : Nat) : (h.enterSelfRefresh st).SameStores h := by
  simp [Hub.enterSelfRefresh]

@[simp] theorem Hub.leaveSelfRefresh_stores (h : Hub) (st : Nat) : (h.leaveSelfRefresh st).SameStores h := by
  simp [Hub.leaveSelfRefresh]

@[simp] theorem Hub.allSelfRefresh_stores (h : Hub) : h.allSelfRefresh.SameStores h := by simp [Hub.allSelfRefresh]

/-! Bring-up sequence and self-refresh -/

@[simp] theorem Hub.putBoot_stores (h : Hub) (lo n v : Nat) : (h.putBoot lo n v).SameStores h := ⟨rfl, rfl⟩
@[simp] theorem Hub.grantAll_stores (h : Hub) : h.grantAll.SameStores h := by simp [Hub.grantAll]

@[simp] theorem Hub.startEnds_stores (h : Hub) : h.startEnds.SameStores h := by
  unfold Hub.startEnds
  split <;> simp

/-! Temperature, power, supply -/

@[simp] theorem Hub.startTrip_stores (h : Hub) (i : Nat) (e : ℤ) (broken : Bool) : (h.startTrip i e broken).SameStores h := by
  simp [Hub.startTrip]

@[simp] theorem Hub.readSource_stores (h : Hub) (i : Nat) (broken : Bool) (e : ℤ) : (h.readSource i broken e).SameStores h := by
  simp [Hub.readSource]

@[simp] theorem Hub.stackTemp_stores (h : Hub) (st : Nat) (ok : Bool) (deg : BitVec 8) :
    (h.stackTemp st ok deg).SameStores h := by simp [Hub.stackTemp]

@[simp] theorem Hub.setStep_stores (h : Hub) (step : Nat) : (h.setStep step).SameStores h := ⟨rfl, rfl⟩
@[simp] theorem Hub.rorCheck_stores (h : Hub) : h.rorCheck.SameStores h := by simp [Hub.rorCheck]
@[simp] theorem Hub.dropDirty_stores (h : Hub) : h.dropDirty.SameStores h := by simp [Hub.dropDirty]
@[simp] theorem Hub.holdStacks_stores (h : Hub) : h.holdStacks.SameStores h := by simp [Hub.holdStacks]
@[simp] theorem Hub.warnOn_stores (h : Hub) : h.warnOn.SameStores h := by simp [Hub.warnOn]

/-! DMA channels -/

@[simp] theorem Hub.dmaSpend_bounds (h : Hub) (wr : Bool) (ch n : Nat) : (h.dmaSpend wr ch n).SameBounds h := by
  simp [Hub.dmaSpend]

/-- The hub that the issue of a request leaves, h where it waits. -/
def Issue.leaves (h : Hub) : Issue → Hub
  | .wait => h
  | .answered _ g => g
  | .sent _ g => g

@[simp] theorem Hub.dmaIssue_bounds (h : Hub) (ch : Nat) (hd : Header) (flits : List Sector) (frame : Nat) :
    ((h.dmaIssue ch hd flits frame).leaves h).SameBounds h := by
  unfold Hub.dmaIssue
  dsimp only
  repeat' split
  all_goals simp [Issue.leaves]

@[simp] theorem Hub.dmaSingle_bounds (h : Hub) (ch : Nat) (hd : Header) (flits : List Sector) :
    ((h.dmaSingle ch hd flits).leaves h).SameBounds h := by
  have hi := (h.newFrame 64 0).2.dmaIssue_bounds ch hd flits (h.newFrame 64 0).1
  have he : h.dmaSingle ch hd flits = (h.newFrame 64 0).2.dmaIssue ch hd flits (h.newFrame 64 0).1 := rfl
  rw [he]
  generalize (h.newFrame 64 0).2.dmaIssue ch hd flits (h.newFrame 64 0).1 = x at hi ⊢
  cases x with
  | wait => exact ⟨rfl, rfl, rfl, rfl⟩
  | answered | sent => simpa [Issue.leaves] using hi

@[simp] theorem Hub.pumpBurst_stores (h : Hub) (ch : Nat) (b : Burst) (n : Nat) :
    (h.pumpBurst ch b n).2.SameStores h := by
  induction n generalizing h b with
  | zero => exact ⟨rfl, rfl⟩
  | succ n ih =>
    unfold Hub.pumpBurst
    split
    · exact ⟨rfl, rfl⟩
    · next hd fl rest _ =>
      have hi := h.dmaIssue_bounds ch hd fl b.frame
      split
      · exact ⟨rfl, rfl⟩
      · next he => simpa [he, Issue.leaves, ih] using hi.2.2
      · next he => simpa [he, Issue.leaves, ih] using hi.2.2

@[simp] theorem Hub.pump_stores (h : Hub) (ch : Nat) : (h.pump ch).SameStores h := by
  unfold Hub.pump
  dsimp only
  generalize hx : List.foldl (β := Burst) (α := List Burst × Hub) _ _ _ = x
  have e : x.2.SameStores h :=
    hx ▸ foldl_carried_stores Prod.snd _ (fun x b => by simp) _ ([], h)
  simp [e]

@[simp] theorem Hub.dmaEnter_bounds (h : Hub) (ch : Nat) (st : BitVec 3) : (h.dmaEnter ch st).SameBounds h := by
  unfold Hub.dmaEnter
  dsimp only
  split <;> simp

@[simp] theorem Hub.dmaEventTo_stores (h : Hub) (ch : Nat) : (h.dmaEventTo ch).SameStores h := by simp [Hub.dmaEventTo]

@[simp] theorem Hub.dmaEvent_stores (h : Hub) (completion : Bool) (i : Nat) : (h.dmaEvent completion i).SameStores h := by
  simp [Hub.dmaEvent]

@[simp] theorem Hub.showPos_stores (h : Hub) (ch n : Nat) : (h.showPos ch n).SameStores h := by simp [Hub.showPos]

@[simp] theorem Hub.issueFetch_bounds (h : Hub) (ch : Nat) : (h.issueFetch ch).SameBounds h := by
  unfold Hub.issueFetch
  extract_lets d a code
  have hi := h.dmaSingle_bounds ch (h.dmaHeader ch 0 0 a 0 (BitVec.allOnes 256)) []
  split
  · exact ⟨rfl, rfl, rfl, rfl⟩
  · split
    · simp
    · split
      · exact ⟨rfl, rfl, rfl, rfl⟩
      · next he => rw [he] at hi; simpa [Issue.leaves] using hi
      · next he => rw [he] at hi; simpa [Issue.leaves] using hi

@[simp] theorem Hub.issueFinish_bounds (h : Hub) (ch : Nat) : (h.issueFinish ch).SameBounds h := by
  unfold Hub.issueFinish
  extract_lets d a status
  split
  · exact ⟨rfl, rfl, rfl, rfl⟩
  · split
    next en x _ =>
    have hi := h.dmaSingle_bounds ch (h.dmaHeader ch 1 0 a 0 en) [BitVec.ofNat 512 x]
    split
    · exact ⟨rfl, rfl, rfl, rfl⟩
    · next he => rw [he] at hi; simpa [Issue.leaves] using hi
    · next he => rw [he] at hi; simpa [Issue.leaves] using hi

@[simp] theorem Hub.startFinish_bounds (h : Hub) (ch n : Nat) : (h.startFinish ch n).SameBounds h := by simp [Hub.startFinish]
@[simp] theorem Hub.enterHalted_bounds (h : Hub) (ch : Nat) : (h.enterHalted ch).SameBounds h := by simp [Hub.enterHalted]

@[simp] theorem Hub.dmaHalt_stores (h : Hub) (ch result resp : Nat) : (h.dmaHalt ch result resp).SameStores h := by
  simp [Hub.dmaHalt]

@[simp] theorem Hub.dropBursts_bounds (h : Hub) (ch : Nat) : (h.dropBursts ch).SameBounds h := by simp [Hub.dropBursts]
@[simp] theorem Hub.abortDrained_bounds (h : Hub) (ch : Nat) : (h.abortDrained ch).SameBounds h := by simp [Hub.abortDrained]

@[simp] theorem Hub.dmaSettle_bounds (h : Hub) (ch : Nat) : (h.dmaSettle ch).SameBounds h := by
  unfold Hub.dmaSettle
  dsimp only
  repeat' split
  all_goals simp

@[simp] theorem Hub.finishHalts_stores (h : Hub) (ch : Nat) : (h.finishHalts ch).SameStores h := by simp [Hub.finishHalts]

@[simp] theorem Hub.dmaTurn_stores (h : Hub) (ch : Nat) :
    ((h.dmaTurn ch).getD h).SameStores h := by
  unfold Hub.dmaTurn
  dsimp only
  repeat' split
  all_goals simp

@[simp] theorem Hub.burstStart_stores (h : Hub) (ch : Nat) : (h.burstStart ch).SameStores h := by
  unfold Hub.burstStart
  extract_lets p h1
  have e1 : h1.SameStores h := by simp [h1]
  clear_value h1
  split
  · exact e1
  · split
    · split <;> simp [e1]
    · have ht := h1.dmaTurn_stores ch
      split
      · exact e1
      · next he => simpa [he, e1] using ht

@[simp] theorem Hub.sampleLine_stores (h : Hub) (ch : Nat) (high : Bool) : (h.sampleLine ch high).SameStores h := by
  simp [Hub.sampleLine]

@[simp] theorem Hub.burstFails_stores (h : Hub) (ch : Nat) (b : Burst) : (h.burstFails ch b).SameStores h := by
  simp [Hub.burstFails]

@[simp] theorem Hub.readsDone_stores (h : Hub) (ch : Nat) : (h.readsDone ch).SameStores h := by
  unfold Hub.readsDone
  dsimp only
  split <;> simp

@[simp] theorem Hub.burstEnd_stores (h : Hub) (ch : Nat) : (h.burstEnd ch).SameStores h := by
  unfold Hub.burstEnd
  dsimp only
  split <;> simp

@[simp] theorem Hub.burstRetry_stores (h : Hub) (ch : Nat) : (h.burstRetry ch).SameStores h := by
  unfold Hub.burstRetry
  dsimp only
  split <;> simp

@[simp] theorem Hub.dmaRun_stores (h : Hub) (ch : Nat) : (h.dmaRun ch).SameStores h := by simp [Hub.dmaRun]
@[simp] theorem Hub.runDesc_stores (h : Hub) (ch n : Nat) : (h.runDesc ch n).SameStores h := by simp [Hub.runDesc]

@[simp] theorem Hub.descFetched_stores (h : Hub) (ch : Nat) : (h.descFetched ch).SameStores h := by
  unfold Hub.descFetched
  dsimp only
  repeat' split
  all_goals simp

@[simp] theorem Hub.descDone_stores (h : Hub) (ch : Nat) : (h.descDone ch).SameStores h := by simp [Hub.descDone]

@[simp] theorem Hub.descComplete_stores (h : Hub) (ch : Nat) : (h.descComplete ch).SameStores h := by
  unfold Hub.descComplete
  dsimp only
  split <;> simp

@[simp] theorem Hub.dmaRefuse_stores (h : Hub) (ch opcode code : Nat) : (h.dmaRefuse ch opcode code).SameStores h := ⟨rfl, rfl⟩
@[simp] theorem Hub.beginFetch_stores (h : Hub) (ch kind : Nat) : (h.beginFetch ch kind).SameStores h := by simp [Hub.beginFetch]
@[simp] theorem Hub.dmaStartGo_stores (h : Hub) (ch : Nat) : (h.dmaStartGo ch).SameStores h := by simp [Hub.dmaStartGo]
@[simp] theorem Hub.dmaPauseGo_stores (h : Hub) (ch : Nat) : (h.dmaPauseGo ch).SameStores h := by simp [Hub.dmaPauseGo]

@[simp] theorem Hub.dmaResumeGo_stores (h : Hub) (ch : Nat) : (h.dmaResumeGo ch).SameStores h := by
  unfold Hub.dmaResumeGo
  dsimp only
  repeat' split
  all_goals simp

@[simp] theorem Hub.dmaAbortGo_stores (h : Hub) (ch : Nat) : (h.dmaAbortGo ch).SameStores h := by simp [Hub.dmaAbortGo]
@[simp] theorem Hub.tidySent_stores (h : Hub) (g : Nat) : (h.tidySent g).SameStores h := ⟨rfl, rfl⟩

/-! Far-ports -/

@[simp] theorem Hub.badFrames_stores (h : Hub) (n : Nat) : (h.badFrames n).SameStores h := ⟨rfl, rfl⟩

@[simp] theorem Hub.emit_stores (h : Hub) (peer : Nat) (f : Frame) : (h.emit peer f).SameStores h := by
  unfold Hub.emit
  split <;> simp

@[simp] theorem Hub.sendControl_stores (h : Hub) (peer : Nat) (typ : BitVec 4) (counter : BitVec 64) (payload : List Byte) :
    (h.sendControl peer typ counter payload).SameStores h := by simp [Hub.sendControl]

@[simp] theorem Hub.sendOffer_stores (h : Hub) (peer : Nat) : (h.sendOffer peer).SameStores h := by
  unfold Hub.sendOffer
  split <;> simp

@[simp] theorem Hub.newOffer_stores (h : Hub) (peer : Nat) (start : BitVec 64) (rekey : Bool) :
    (h.newOffer peer start rekey).SameStores h := by simp [Hub.newOffer]

@[simp] theorem Hub.rekeyOpEnd_stores (h : Hub) (peer : Nat) : (h.rekeyOpEnd peer).SameStores h := by
  unfold Hub.rekeyOpEnd
  split <;> simp

@[simp] theorem Hub.failReq_stores (h : Hub) (r : Req) (keep : Bool) : (h.failReq r keep).SameStores h := by simp [Hub.failReq]
@[simp] theorem Hub.creditBack_stores (h : Hub) (peer : Nat) (wr : Bool) : (h.creditBack peer wr).SameStores h := ⟨rfl, rfl⟩
@[simp] theorem Hub.failPeer_stores (h : Hub) (peer : Nat) : (h.failPeer peer).SameStores h := by simp [Hub.failPeer]
@[simp] theorem Hub.pairDown_stores (h : Hub) (peer cause : Nat) : (h.pairDown peer cause).SameStores h := by simp [Hub.pairDown]
@[simp] theorem Hub.checkPairs_stores (h : Hub) : h.checkPairs.SameStores h := by simp [Hub.checkPairs]
@[simp] theorem Hub.pairUp_stores (h : Hub) (peer : Nat) : (h.pairUp peer).SameStores h := ⟨rfl, rfl⟩
@[simp] theorem Hub.trainFar_stores (h : Hub) (i : Nat) : (h.trainFar i).SameStores h := by simp [Hub.trainFar]

@[simp] theorem Hub.farTrained_stores (h : Hub) (i : Nat) (lanes : BitVec 8) : (h.farTrained i lanes).SameStores h := by
  simp [Hub.farTrained]

@[simp] theorem Hub.turnTx_stores (h : Hub) (peer : Nat) : (h.turnTx peer).SameStores h := by
  unfold Hub.turnTx
  dsimp only
  split <;> simp

@[simp] theorem Hub.startRekey_stores (h : Hub) (peer : Nat) : (h.startRekey peer).SameStores h := by simp [Hub.startRekey]

@[simp] theorem Hub.sendData_stores (h : Hub) (peer : Nat) (f : Frame) : (h.sendData peer f).SameStores h := by
  unfold Hub.sendData
  dsimp only
  split <;> simp

@[simp] theorem Hub.resend_stores (h : Hub) (peer : Nat) (fs : List Frame) : (h.resend peer fs).SameStores h := by
  unfold Hub.resend
  split <;> simp

@[simp] theorem Hub.remoteSend_stores (h : Hub) (id : Nat) : (h.remoteSend id).SameStores h := by
  unfold Hub.remoteSend
  dsimp only
  repeat' split
  all_goals simp

@[simp] theorem Hub.rxFrame_stores (h : Hub) (port : Nat) (f : Frame) : (h.rxFrame port f).2.SameStores h := by
  unfold Hub.rxFrame
  dsimp only
  repeat' split
  all_goals simp

@[simp] theorem Hub.rxControl_stores (h : Hub) (port : Nat) (f : Frame) : (h.rxControl port f).2.SameStores h := by
  unfold Hub.rxControl
  dsimp only
  repeat' split
  all_goals simp

@[simp] theorem Hub.heard_stores (h : Hub) (peer : Nat) : (h.heard peer).SameStores h := ⟨rfl, rfl⟩
@[simp] theorem Hub.sendAck_stores (h : Hub) (peer : Nat) : (h.sendAck peer).SameStores h := by simp [Hub.sendAck]
@[simp] theorem Hub.sendNak_stores (h : Hub) (peer : Nat) : (h.sendNak peer).SameStores h := by simp [Hub.sendNak]

@[simp] theorem Hub.rxData_stores (h : Hub) (port : Nat) (f : Frame) : (h.rxData port f).2.SameStores h := by
  unfold Hub.rxData
  dsimp only
  repeat' split
  all_goals simp

@[simp] theorem Hub.carryOut_stores (h : Hub) (port : Nat) (f : Frame) : (h.carryOut port f).SameStores h := by
  simp [Hub.carryOut]

@[simp] theorem Hub.rxRequest_stores (h : Hub) (port : Nat) (f : Frame) :
    (h.rxRequest port f).SameStores h := by
  unfold Hub.rxRequest
  have hr := h.rxData_stores port f
  split <;> next he => simpa [he] using hr

@[simp] theorem Hub.dropArrival_stores (h : Hub) (ctx : Nat) : (h.dropArrival ctx).SameStores h := ⟨rfl, rfl⟩

@[simp] theorem Hub.responseSend_stores (h : Hub) (ctx : Nat) : (h.responseSend ctx).SameStores h := by
  unfold Hub.responseSend
  split <;> simp

@[simp] theorem Hub.remoteDeadline_stores (h : Hub) (id : Nat) : (h.remoteDeadline id).SameStores h := by
  unfold Hub.remoteDeadline
  dsimp only
  repeat' split
  all_goals simp

@[simp] theorem Hub.answerFrom_stores (h : Hub) (r : Req) (f : Frame) :
    (h.answerFrom r f).SameStores h := by
  refine foldl_carried_stores Prod.fst _ (fun x i => ?_) _ (h, f.payload)
  dsimp only
  split <;> simp

@[simp] theorem Hub.rxResponse_stores (h : Hub) (port : Nat) (f : Frame) :
    (h.rxResponse port f).SameStores h := by
  unfold Hub.rxResponse
  have hr := h.rxData_stores port f
  split
  · next he => simpa [he] using hr
  · next he =>
    dsimp only
    split <;> simpa [he] using hr

@[simp] theorem Hub.rxKeyx_stores (h : Hub) (port : Nat) (f : Frame) : (h.rxKeyx port f).2.SameStores h := by
  unfold Hub.rxKeyx
  dsimp only
  repeat' split
  all_goals simp

@[simp] theorem Hub.sendAccept_stores (h : Hub) (peer : Nat) (gen : Word) (start : BitVec 64) (q : BitVec 256) :
    (h.sendAccept peer gen start q).SameStores h := by
  unfold Hub.sendAccept
  split <;> simp

@[simp] theorem Hub.takeOffer_stores (h : Hub) (peer : Nat) (gen : Word) (start : BitVec 64) (o : BitVec 256) :
    (h.takeOffer peer gen start o).SameStores h := by
  unfold Hub.takeOffer
  dsimp only
  split <;> simp

@[simp] theorem Hub.takeAccept_stores (h : Hub) (peer : Nat) (gen : Word) (start : BitVec 64) (q : BitVec 256) :
    (h.takeAccept peer gen start q).SameStores h := by
  unfold Hub.takeAccept
  dsimp only
  split <;> simp

@[simp] theorem Hub.putExp_stores (h : Hub) (n : Nat) (e : ExportCfg) : (h.putExp n e).SameStores h := ⟨rfl, rfl⟩
@[simp] theorem Hub.linkSeen_stores (h : Hub) (i : Nat) (up : Bool) : (h.linkSeen i up).SameStores h := by simp [Hub.linkSeen]
@[simp] theorem Hub.farOpEnd_stores (h : Hub) (o : LongOp) : (h.farOpEnd o).SameStores h := by simp [Hub.farOpEnd]

/-! Management -/

@[simp] theorem Hub.loadSecState_stores (h : Hub) (f : Fuses) (slot svn : Nat) (actFail : Bool) :
    (h.loadSecState f slot svn actFail).SameStores h := by simp [Hub.loadSecState]

@[simp] theorem Hub.startImage_stores (h : Hub) (f : Fuses) (slot : Nat) (actFail : Bool) :
    (h.startImage f slot actFail).SameStores h := by simp [Hub.startImage]

@[simp] theorem Hub.reply_stores (h : Hub) (r : MgmtReply) : (h.reply r).SameStores h := ⟨rfl, rfl⟩
@[simp] theorem Hub.replyContent_stores (h : Hub) : h.replyContent.SameStores h := ⟨rfl, rfl⟩
@[simp] theorem Hub.holdMsg_stores (h : Hub) (discovery : Bool) : (h.holdMsg discovery).SameStores h := ⟨rfl, rfl⟩
@[simp] theorem Hub.answerHeld_stores (h : Hub) : h.answerHeld.SameStores h := by simp [Hub.answerHeld]

@[simp] theorem Hub.pldm_stores {h : Hub} {inSession : Bool} {f : Hub → Hub} (e : (f h).SameStores h) :
    (h.pldm inSession f).SameStores h := by simp [Hub.pldm, e]

@[simp] theorem Hub.startWipe_stores (h : Hub) : h.startWipe.SameStores h := by
  unfold Hub.startWipe
  split <;> simp

@[simp] theorem Hub.queueWipe_stores (h : Hub) (p : Nat) (slabs : List (BitVec 11)) : (h.queueWipe p slabs).SameStores h := by
  simp [Hub.queueWipe]

@[simp] theorem Hub.wipeNext_stores (h : Hub) : h.wipeNext.SameStores h := by
  unfold Hub.wipeNext
  dsimp only
  repeat' split
  all_goals simp

@[simp] theorem Hub.secGo_stores {h : Hub} {f : Hub → Hub} (e : (f h).SameStores h) :
    (h.secGo f).SameStores h := by simp [Hub.secGo, e]

@[simp] theorem Hub.pairKeyEntry_stores (h : Hub) (peer what : Nat) : (h.pairKeyEntry peer what).SameStores h := ⟨rfl, rfl⟩
@[simp] theorem Hub.pairInstall_stores (h : Hub) : h.pairInstall.SameStores h := by simp [Hub.pairInstall]
@[simp] theorem Hub.pairRemove_stores (h : Hub) : h.pairRemove.SameStores h := by simp [Hub.pairRemove]

@[simp] theorem Hub.pairOpGoes_stores (h : Hub) : h.pairOpGoes.SameStores h := by
  unfold Hub.pairOpGoes
  split <;> simp

@[simp] theorem Hub.pairRekey_stores (h : Hub) : h.pairRekey.SameStores h := by simp [Hub.pairRekey]
@[simp] theorem Hub.fuseSvnGo_stores (h : Hub) (f : Fuses) : (h.fuseSvnGo f).SameStores h := by simp [Hub.fuseSvnGo]
@[simp] theorem Hub.fuseRevokeGo_stores (h : Hub) (f : Fuses) : (h.fuseRevokeGo f).SameStores h := by simp [Hub.fuseRevokeGo]

@[simp] theorem Hub.secResume_stores (h : Hub) (f : Fuses) : (h.secResume f).SameStores h := by
  unfold Hub.secResume
  dsimp only
  repeat' split
  all_goals simp

@[simp] theorem Hub.fuseCommitted_stores (h : Hub) : h.fuseCommitted.SameStores h := by
  unfold Hub.fuseCommitted
  split <;> simp

@[simp] theorem Hub.showIdentity_stores (h : Hub) (key : BitVec 384) : (h.showIdentity key).SameStores h := by
  simp [Hub.showIdentity]

/-! Partitions -/

@[simp] theorem Hub.fillDeck_stores (h : Hub) (p n : Nat) : (h.fillDeck p n).SameStores h := ⟨rfl, rfl⟩
@[simp] theorem Hub.drawKeys_stores (h : Hub) (p : Nat) : (h.drawKeys p).SameStores h := by simp [Hub.drawKeys]
@[simp] theorem Hub.setRegions_stores (h : Hub) (k : Nat) (m : BitVec 64) : (h.setRegions k m).SameStores h := ⟨rfl, rfl⟩
@[simp] theorem Hub.enablePart_stores (h : Hub) (p : Nat) : (h.enablePart p).SameStores h := by simp [Hub.enablePart]
@[simp] theorem Hub.partEnableEnd_stores (h : Hub) (p : Nat) : (h.partEnableEnd p).SameStores h := by simp [Hub.partEnableEnd]
@[simp] theorem Hub.setPwEnd_stores (h : Hub) (i : Nat) : (h.setPwEnd i).SameStores h := by simp [Hub.setPwEnd]
@[simp] theorem Hub.setHwEnd_stores (h : Hub) (i : Nat) : (h.setHwEnd i).SameStores h := by simp [Hub.setHwEnd]

@[simp] theorem Hub.releaseCommitted_stores (h : Hub) (p : Nat) : (h.releaseCommitted p).SameStores h := by
  unfold Hub.releaseCommitted
  dsimp only
  split <;> simp

@[simp] theorem Hub.freeTable_stores (h : Hub) (p : Nat) : (h.freeTable p).SameStores h := ⟨rfl, rfl⟩
@[simp] theorem Hub.dropTricks_stores (h : Hub) (p : Nat) : (h.dropTricks p).SameStores h := by simp [Hub.dropTricks]

@[simp] theorem Hub.dropPart_stores (h : Hub) (p : Nat) (set : List Nat) : (h.dropPart p set).SameStores h := by
  simp [Hub.dropPart]

@[simp] theorem Hub.releaseEnd_stores (h : Hub) (o : LongOp) : (h.releaseEnd o).SameStores h := by simp [Hub.releaseEnd]

@[simp] theorem Hub.partOpEnd_stores (h : Hub) (o : LongOp) : (h.partOpEnd o).SameStores h := by
  unfold Hub.partOpEnd
  split <;> simp

/-! Stages of bring-up -/

@[simp] theorem Hub.cleared_stores (h : Hub) (regs : SMap Word) (stk : SMap Stack) :
    (h.cleared regs stk).SameStores h := ⟨rfl, rfl⟩

@[simp] theorem Hub.leaveReset_stores (h : Hub) : h.leaveReset.SameStores h := by simp [Hub.leaveReset]

@[simp] theorem Hub.writeReport_stores (h : Hub) (r result detail : Nat) (fast : Bool) :
    (h.writeReport r result detail fast).SameStores h := by simp [Hub.writeReport]

@[simp] theorem Hub.report_stores (h : Hub) (n result detail : Nat) : (h.report n result detail).SameStores h := by
  unfold Hub.report
  dsimp only
  repeat' split
  all_goals simp

@[simp] theorem Hub.identify_bounds (h : Hub) (st cause : Nat) : (h.identify st cause).SameBounds h := ⟨rfl, rfl, rfl, rfl⟩
@[simp] theorem Hub.takeTiming_bounds (h : Hub) (st : Nat) : (h.takeTiming st).SameBounds h := ⟨rfl, rfl, rfl, rfl⟩
@[simp] theorem Hub.enterService_bounds (h : Hub) (st : Nat) : (h.enterService st).SameBounds h := ⟨rfl, rfl, rfl, rfl⟩

@[simp] theorem Hub.setChannel_bounds (h : Hub) (stack c : Nat) (failed : Bool) (code : BitVec 3) :
    (h.setChannel stack c failed code).SameBounds h := ⟨rfl, rfl, rfl, rfl⟩

@[simp] theorem Hub.trainStack_stores (h : Hub) (st : Nat) (r : TrainReport) : (h.trainStack st r).SameStores h := by
  simp [Hub.trainStack]

@[simp] theorem Hub.placeNumber_stores (h : Hub) (r : Replay) (k ps : Nat) : (h.placeNumber r k ps).SameStores h := by
  unfold Hub.placeNumber
  dsimp only
  repeat' split
  all_goals simp

@[simp] theorem Hub.buildMap_stores (h : Hub) (r : Replay) : (h.buildMap r).SameStores h := by simp [Hub.buildMap]
@[simp] theorem Hub.defaultPart_stores (h : Hub) : h.defaultPart.SameStores h := by simp [Hub.defaultPart]

@[simp] theorem Hub.bootRefuse_stores (h : Hub) (opcode code index : Nat) :
    (h.bootRefuse opcode code index).SameStores h := ⟨rfl, rfl⟩

@[simp] theorem Hub.warmGo_stores (h : Hub) : h.warmGo.SameStores h := by simp [Hub.warmGo]

@[simp] theorem Hub.warmCommitted_stores (h : Hub) : h.warmCommitted.SameStores h := by
  unfold Hub.warmCommitted
  split <;> simp

@[simp] theorem Hub.stackOffline_bounds (h : Hub) (st : Nat) : (h.stackOffline st).SameBounds h := by simp [Hub.stackOffline]

@[simp] theorem Hub.stackRestart_bounds (h : Hub) (st : Nat) (r : OpEnd) : (h.stackRestart st r).SameBounds h := by
  simp [Hub.stackRestart]

@[simp] theorem Hub.stackResetGo_stores (h : Hub) : h.stackResetGo.SameStores h := by simp [Hub.stackResetGo]

/-! Counters, samples, dumps -/

@[simp] theorem Hub.dumpFails_stores (h : Hub) : h.dumpFails.SameStores h := by simp [Hub.dumpFails]

@[simp] theorem Hub.dumpWrite_stores (h : Hub) (o : Nat) (bs : List Byte) : (h.dumpWrite o bs).SameStores h := by
  simp [Hub.dumpWrite]

@[simp] theorem Hub.dumpBegin_stores (h : Hub) (now : Bool) : (h.dumpBegin now).SameStores h := by simp [Hub.dumpBegin]
@[simp] theorem Hub.dumpDue_stores (h : Hub) : h.dumpDue.SameStores h := by simp [Hub.dumpDue]

@[simp] theorem Hub.dumpOpEnd_stores (h : Hub) : h.dumpOpEnd.SameStores h := by
  unfold Hub.dumpOpEnd
  dsimp only
  split <;> simp

@[simp] theorem Hub.dumpStep_stores (h : Hub) : h.dumpStep.SameStores h := by
  unfold Hub.dumpStep
  dsimp only
  repeat' split
  all_goals simp

@[simp] theorem Hub.dumpStartEnd_stores (h : Hub) : h.dumpStartEnd.SameStores h := by simp [Hub.dumpStartEnd]
@[simp] theorem Hub.dumpStopGo_stores (h : Hub) : h.dumpStopGo.SameStores h := by simp [Hub.dumpStopGo]
@[simp] theorem Hub.dumpNowGo_stores (h : Hub) : h.dumpNowGo.SameStores h := by simp [Hub.dumpNowGo]

/-! Epoch and gates -/

@[simp] theorem Hub.startEntry_stores (h : Hub) (l bank i : Nat) : (h.startEntry l bank i).SameStores h := by
  simp [Hub.startEntry]

@[simp] theorem Hub.recheck_stores (h : Hub) (l c : Nat) : (h.recheck l c).SameStores h := by simp [Hub.recheck]

@[simp] theorem Hub.changeEntry_stores (h : Hub) (l : Nat) (old : Word) (bank i : Nat) :
    (h.changeEntry l old bank i).SameStores h := by simp [Hub.changeEntry]

@[simp] theorem Hub.startDeal_stores (h : Hub) (l : Nat) : (h.startDeal l).SameStores h := by simp [Hub.startDeal]
@[simp] theorem Hub.nextEntry_stores (h : Hub) (l : Nat) : (h.nextEntry l).SameStores h := by simp [Hub.nextEntry]
@[simp] theorem Hub.fixStart_stores (h : Hub) (l c : Nat) : (h.fixStart l c).SameStores h := by simp [Hub.fixStart]
@[simp] theorem Hub.stopList_stores (h : Hub) (l : Nat) : (h.stopList l).SameStores h := by simp [Hub.stopList]
@[simp] theorem Hub.listTick_stores (h : Hub) (l : Nat) : (h.listTick l).SameStores h := by simp [Hub.listTick]
@[simp] theorem Hub.fillBuckets_stores (h : Hub) : h.fillBuckets.SameStores h := ⟨rfl, rfl⟩
@[simp] theorem Hub.rejudge_stores (h : Hub) : h.rejudge.SameStores h := by simp [Hub.rejudge]
@[simp] theorem Hub.tick_stores (h : Hub) : h.tick.SameStores h := by simp [Hub.tick]
@[simp] theorem Hub.loseStrobe_stores (h : Hub) : h.loseStrobe.SameStores h := by simp [Hub.loseStrobe]
@[simp] theorem Hub.dealEnd_stores (h : Hub) : h.dealEnd.SameStores h := by simp [Hub.dealEnd]
@[simp] theorem Hub.stopEnd_stores (h : Hub) : h.stopEnd.SameStores h := by simp [Hub.stopEnd]
@[simp] theorem Hub.cancelEnd_stores (h : Hub) : h.cancelEnd.SameStores h := by simp [Hub.cancelEnd]

/-! Host ports -/

@[simp] theorem Hub.acceptNow_stores (h : Hub) (p : BitVec 5) (hd : Header) (flits : List Sector) :
    (h.acceptNow p hd flits).SameStores h := by simp [Hub.acceptNow]

/-! Operations of pages -/

@[simp] theorem Hub.putKitty_stores (h : Hub) (i : Nat) (w : KittyWin) : (h.putKitty i w).SameStores h := ⟨rfl, rfl⟩

@[simp] theorem Hub.clearThen_stores {h : Hub} {ks : List Nat} {errs : Flips} {f : Hub → Hub}
    (e : ∀ h, (f h).SameStores h) :
    (h.clearThen ks errs f).SameStores h := by simp [Hub.clearThen, e]

@[simp] theorem Hub.kwEnd_stores (h : Hub) (o : LongOp) (errs : Flips) : (h.kwEnd o errs).SameStores h := by simp [Hub.kwEnd]

@[simp] theorem Hub.pumpKitty_stores (h : Hub) (n : Nat) : (h.pumpKitty n).SameStores h := by
  induction n generalizing h with
  | zero => exact ⟨rfl, rfl⟩
  | succ n ih =>
    unfold Hub.pumpKitty
    simp [ih]

@[simp] theorem Hub.kittyOn_stores (h : Hub) : h.kittyOn.SameStores h := by simp [Hub.kittyOn]
@[simp] theorem Hub.kittyFillEnd_stores (h : Hub) (o : LongOp) : (h.kittyFillEnd o).SameStores h := by simp [Hub.kittyFillEnd]

@[simp] theorem Hub.flushEnd_stores (h : Hub) (o : LongOp) (errs : Flips) : (h.flushEnd o errs).SameStores h := by
  simp [Hub.flushEnd]

@[simp] theorem Hub.setWaysEnd_stores (h : Hub) (o : LongOp) (errs : Flips) : (h.setWaysEnd o errs).SameStores h := by
  simp [Hub.setWaysEnd]

@[simp] theorem Hub.cacheOpEnd_stores (h : Hub) (o : LongOp) (errs : Flips) : (h.cacheOpEnd o errs).SameStores h := by
  unfold Hub.cacheOpEnd
  split <;> simp

@[simp] theorem Hub.forceFreeEnd_stores (h : Hub) (i : Nat) : (h.forceFreeEnd i).SameStores h := by simp [Hub.forceFreeEnd]

@[simp] theorem Hub.tableBuildEnd_stores (h : Hub) (p : Nat) : (h.tableBuildEnd p).SameStores h := by
  unfold Hub.tableBuildEnd
  dsimp only
  repeat' split
  all_goals simp

@[simp] theorem Hub.tableFreeEnd_stores (h : Hub) (p : Nat) : (h.tableFreeEnd p).SameStores h := by simp [Hub.tableFreeEnd]
@[simp] theorem Hub.xlateEnd_stores (h : Hub) (p : Nat) : (h.xlateEnd p).SameStores h := by simp [Hub.xlateEnd]

@[simp] theorem Hub.pagemgrOpEnd_stores (h : Hub) (o : LongOp) : (h.pagemgrOpEnd o).SameStores h := by
  unfold Hub.pagemgrOpEnd
  split <;> simp

/-! Power domains -/

@[simp] theorem Hub.putAck_stores (h : Hub) (n : Nat) (b : Bool) : (h.putAck n b).SameStores h := ⟨rfl, rfl⟩
@[simp] theorem Hub.putNak_stores (h : Hub) (n : Nat) (b : Bool) : (h.putNak n b).SameStores h := ⟨rfl, rfl⟩
@[simp] theorem Hub.powerStop_stores (h : Hub) (c : Nat) : (h.powerStop c).SameStores h := by simp [Hub.powerStop]
@[simp] theorem Hub.pdRise_stores (h : Hub) (n : Nat) : (h.pdRise n).SameStores h := by simp [Hub.pdRise]
@[simp] theorem Hub.pdAckRise_stores (h : Hub) (n : Nat) : (h.pdAckRise n).SameStores h := by simp [Hub.pdAckRise]
@[simp] theorem Hub.powerResume_bounds (h : Hub) (c : Nat) : (h.powerResume c).SameBounds h := by simp [Hub.powerResume]
@[simp] theorem Hub.pdFall_stores (h : Hub) (n : Nat) (r : OpEnd) : (h.pdFall n r).SameStores h := by simp [Hub.pdFall]

/-! Commits -/

@[simp] theorem Hub.tripCommitted_stores (h : Hub) : h.tripCommitted.SameStores h := by simp [Hub.tripCommitted]

@[simp] theorem Hub.appendCommitted_stores (h : Hub) (e : JEntry) : (h.appendCommitted e).SameStores h := by
  unfold Hub.appendCommitted
  split <;> simp

@[simp] theorem Hub.enterSector_stores (h : Hub) (n : Nat) : (h.enterSector n).SameStores h := by simp [Hub.enterSector]

@[simp] theorem Hub.journalReadGo_stores (h : Hub) : h.journalReadGo.SameStores h := by
  unfold Hub.journalReadGo
  dsimp only
  repeat' split
  all_goals simp

@[simp] theorem Hub.appendGo_stores (h : Hub) : h.appendGo.SameStores h := by simp [Hub.appendGo]

/-! Register reads -/

@[simp] theorem Hub.autoinc_stores (h : Hub) (c : PageClass) (off : Nat) : (h.autoinc c off).SameStores h := by
  unfold Hub.autoinc
  split <;> simp

@[simp] theorem Hub.readEffects_stores (h : Hub) (f : Fuses) (init : Initiator) (c : PageClass) (page off : Nat) :
    (h.readEffects f init c page off).SameStores h := by simp [Hub.readEffects]

@[simp] theorem Hub.regRead_stores (h : Hub) (f : Fuses) (init : Initiator) (page off : Nat) :
    (h.regRead f init page off).SameStores h := by
  unfold Hub.regRead
  split
  · exact ⟨rfl, rfl⟩
  · split
    · simp
    · split <;> simp

/-! Register writes -/

@[simp] theorem Hub.writeRoute_stores (h : Hub) (v : Word) : (h.writeRoute v).SameStores h := by simp [Hub.writeRoute]
@[simp] theorem Hub.writePart_stores (h : Hub) (off : Nat) (v : Word) : (h.writePart off v).SameStores h := ⟨rfl, rfl⟩
@[simp] theorem Hub.loadPw_stores (h : Hub) (v : Word) : (h.loadPw v).SameStores h := by simp [Hub.loadPw]
@[simp] theorem Hub.loadHw_stores (h : Hub) (v : Word) : (h.loadHw v).SameStores h := by simp [Hub.loadHw]
@[simp] theorem Hub.loadKw_stores (h : Hub) (v : Word) : (h.loadKw v).SameStores h := by simp [Hub.loadKw]
@[simp] theorem Hub.loadExp_stores (h : Hub) (v : Word) : (h.loadExp v).SameStores h := by simp [Hub.loadExp]

@[simp] theorem Hub.writePagemgr_stores (h : Hub) (off : Nat) (v : Word) : (h.writePagemgr off v).SameStores h := by
  unfold Hub.writePagemgr
  split <;> simp

@[simp] theorem Hub.writeTm_stores (h : Hub) (off : Nat) (v : Word) : (h.writeTm off v).SameStores h := by
  unfold Hub.writeTm
  split <;> simp

@[simp] theorem Hub.writeGate_stores (h : Hub) (off : Nat) (v : Word) : (h.writeGate off v).SameStores h := by
  unfold Hub.writeGate
  dsimp only
  split <;> simp

@[simp] theorem Hub.writeCnt_stores (h : Hub) (off : Nat) (v : Word) : (h.writeCnt off v).SameStores h := ⟨rfl, rfl⟩

@[simp] theorem Hub.writeAck_stores (h : Hub) (v : Word) : (h.writeAck v).SameStores h := by
  unfold Hub.writeAck
  split <;> simp

@[simp] theorem Hub.writeEvt_stores (h : Hub) (page off : Nat) (v : Word) : (h.writeEvt page off v).SameStores h := ⟨rfl, rfl⟩

@[simp] theorem Hub.writeTiming_stores (h : Hub) (page off : Nat) (v : Word) : (h.writeTiming page off v).SameStores h := by
  simp [Hub.writeTiming]

@[simp] theorem Hub.store_stores (h : Hub) (c : PageClass) (page off : Nat) (v : Word) : (h.store c page off v).SameStores h := by
  unfold Hub.store
  split <;> simp

@[simp] theorem Hub.clearRegs_stores (h : Hub) (page o n : Nat) : (h.clearRegs page o n).SameStores h := by simp [Hub.clearRegs]
@[simp] theorem Hub.clearTm_stores (h : Hub) : h.clearTm.SameStores h := ⟨rfl, rfl⟩
@[simp] theorem Hub.clearPerf_stores (h : Hub) (data : Word) : (h.clearPerf data).SameStores h := by simp [Hub.clearPerf]

@[simp] theorem Hub.writeOnly_stores (h : Hub) (c : PageClass) (page off : Nat) (data : Word) :
    (h.writeOnly c page off data).SameStores h := by
  unfold Hub.writeOnly
  split <;> simp

@[simp] theorem Hub.writeOneClear_stores (h : Hub) (page off : Nat) (mask data : Word) :
    (h.writeOneClear page off mask data).SameStores h := by simp [Hub.writeOneClear]

@[simp] theorem Hub.applyWrite_stores (h : Hub) (c : PageClass) (r : RegRow) (page off : Nat) (old data : Word) :
    (h.applyWrite c r page off old data).SameStores h := by simp [Hub.applyWrite]

@[simp] theorem Hub.writeCtrl_stores (h : Hub) (init : Initiator) (c : PageClass) (page : Nat) (data : Word) :
    (h.writeCtrl init c page data).SameStores h := by simp [Hub.writeCtrl]

@[simp] theorem Hub.writeIrqEnable_stores (h : Hub) (c : PageClass) (page : Nat) (data : Word) :
    (h.writeIrqEnable c page data).SameStores h := by simp [Hub.writeIrqEnable]

@[simp] theorem Hub.writeHeader_stores (h : Hub) (init : Initiator) (c : PageClass) (page off : Nat) (data : Word) :
    (h.writeHeader init c page off data).SameStores h := by
  unfold Hub.writeHeader
  split <;> simp

@[simp] theorem Hub.regWrite_stores (h : Hub) (f : Fuses) (init : Initiator) (page off : Nat) (data : Word) :
    (h.regWrite f init page off data).SameStores h := by
  unfold Hub.regWrite
  dsimp only
  repeat' split
  all_goals simp

end Sys2Proof.Machine

end

section

/-! SUPPORT. The operations that write to the stacks' bytes or to the flash: which of the two, and that it stays in canonical form. -/

namespace Sys2Proof.Machine

/-- The canonical form of the flash, whose unlisted bytes read as erased. -/
def Flash.wf (m : SMap Byte) : Bool := SMap.wf (fun _ => 0xFF) m

/-- g differs from h in the flash, never in the stacks' bytes; the flash stays canonical. -/
@[simp] abbrev Hub.WritesFlash (g h : Hub) : Prop :=
  g.mem = h.mem ∧ (Flash.wf h.flash = true → Flash.wf g.flash = true)

/-- g differs from h in the stacks' bytes, never in the flash; the bytes stay canonical. -/
@[simp] abbrev Hub.WritesStacks (g h : Hub) : Prop :=
  g.flash = h.flash ∧ (Memory.wf h.mem = true → Memory.wf g.mem = true)

theorem Hub.SameStores.writesFlash {g h : Hub} (e : g.SameStores h) : g.WritesFlash h := ⟨e.1, fun hw => e.2 ▸ hw⟩
theorem Hub.SameStores.writesStacks {g h : Hub} (e : g.SameStores h) : g.WritesStacks h := ⟨e.2, fun hw => e.1 ▸ hw⟩

theorem Hub.WritesStacks.trans {f g h : Hub} (a : f.WritesStacks g) (b : g.WritesStacks h) : f.WritesStacks h :=
  ⟨a.1.trans b.1, fun hw => a.2 (b.2 hw)⟩
theorem Hub.WritesFlash.trans {f g h : Hub} (a : f.WritesFlash g) (b : g.WritesFlash h) : f.WritesFlash h :=
  ⟨a.1.trans b.1, fun hw => a.2 (b.2 hw)⟩

/-- A fold writes the stacks alone when each of its steps does. -/
theorem foldl_writesStacks {α : Type} (f : Hub → α → Hub) (H : ∀ h a, (f h a).WritesStacks h) (l : List α) (h : Hub) :
    (l.foldl f h).WritesStacks h := by
  induction l generalizing h with
  | nil => exact ⟨rfl, id⟩
  | cons a l ih => exact (ih (f h a)).trans (H h a)

/-- A fold writes the flash alone when each of its steps does. -/
theorem foldl_writesFlash {α : Type} (f : Hub → α → Hub) (H : ∀ h a, (f h a).WritesFlash h) (l : List α) (h : Hub) :
    (l.foldl f h).WritesFlash h := by
  induction l generalizing h with
  | nil => exact ⟨rfl, id⟩
  | cons a l ih => exact (ih (f h a)).trans (H h a)

/-! Writers of the stacks -/

@[simp] theorem Hub.putCode_writes (h : Hub) (ps off sector : Nat) (w : Code) : (h.putCode ps off sector w).WritesStacks h :=
  ⟨rfl, h.putCode_wf ps off sector w⟩

@[simp] theorem Hub.drainPc_writes (h : Hub) (i : Nat) : (h.drainPc i).WritesStacks h := by
  unfold Hub.drainPc
  extract_lets c read write all h1 h2
  have hread (h : Hub) (r : RdEntry) : (read h r).WritesStacks h := (Hub.capture_stores ..).writesStacks
  have hwrite (h : Hub) (w : WrEntry) : (write h w).WritesStacks h := h.putCode_writes ..
  have e1 : h1.WritesStacks h := Hub.SameStores.writesStacks (by simp [h1])
  have e2 : h2.WritesStacks h1 := foldl_writesStacks _ (fun h e =>
    (foldl_writesStacks write hwrite _ _).trans (foldl_writesStacks read hread _ h)) _ h1
  refine (foldl_writesStacks _ (fun h e => ?_) _ h2).trans (e2.trans e1)
  split
  · exact hread ..
  · exact hwrite ..

@[simp] theorem Hub.doWrite_writes (h : Hub) (i : Nat) (s : Stack) (e : WrEntry) : (h.doWrite i s e).WritesStacks h := by
  unfold Hub.doWrite
  dsimp only
  split <;> simp +contextual

@[simp] theorem Hub.doColumn_writes (h : Hub) (i : Nat) (s : Stack) (e : Cand) : (h.doColumn i s e).WritesStacks h := by
  unfold Hub.doColumn
  dsimp only
  repeat' split
  all_goals simp +contextual

@[simp] theorem Hub.reissueColumn_writes (h : Hub) (i : Nat) (s : Stack) : (h.reissueColumn i s).1.WritesStacks h := by
  unfold Hub.reissueColumn
  dsimp only
  split
  · exact ⟨rfl, id⟩
  · split
    · dsimp only
      split <;> simp +contextual
    · exact ⟨rfl, id⟩

@[simp] theorem Hub.recoverSlot_writes (h : Hub) (i : Nat) (s : Stack) (row col : Bool) :
    (h.recoverSlot i s row col).1.WritesStacks h := by
  unfold Hub.recoverSlot
  dsimp only
  cases row <;> cases col <;> split <;> simp +contextual

@[simp] theorem Hub.pcSlot_writes (h : Hub) (i : Nat) (row col : Bool) : (h.pcSlot i row col).1.WritesStacks h := by
  unfold Hub.pcSlot
  extract_lets s c0 h1 c h2 h3 c3
  have e1 : h1.SameStores h := by simp [h1]
  have e3 : h3.SameStores h := by simp [h3, h2, h1]
  clear_value h3
  split
  · exact e1.writesStacks
  · split
    · exact Hub.SameStores.writesStacks (by simp [e3])
    · split
      · exact (h3.recoverSlot_writes ..).trans e3.writesStacks
      · split
        extract_lets col1 h4 left
        clear_value col1
        have e4 : h4.WritesStacks h3 := by
          simp only [h4]
          split
          · exact h3.doColumn_writes ..
          · exact ⟨rfl, id⟩
        clear_value h4
        refine Hub.WritesStacks.trans ?_ (e4.trans e3.writesStacks)
        cases row <;> simp

@[simp] theorem Hub.commandSlot_writes (h : Hub) (e : Nat) : (h.commandSlot e).WritesStacks h := by
  unfold Hub.commandSlot
  extract_lets a b
  have ha := h.pcSlot_writes a true true
  split
  next he =>
  rw [he] at ha
  exact (Hub.pcSlot_writes ..).trans ha

@[simp] theorem Hub.testWrite_writes (h : Hub) (ps : Nat) : (h.testWrite ps).WritesStacks h :=
  foldl_writesStacks _ (fun h _ => h.putCode_writes ..) _ h

@[simp] theorem Hub.readmitEnd_writes (h : Hub) (ps : Nat) (r : OpEnd) : (h.readmitEnd ps r).WritesStacks h := by
  unfold Hub.readmitEnd
  extract_lets c found ce lost h1 h2 h3
  have e3 : h3.SameStores h1 := by simp [h3, h2]
  have e1 : h1.WritesStacks h := h.testWrite_writes ps
  split
  · exact Hub.SameStores.writesStacks (by simp)
  · refine Hub.WritesStacks.trans (Hub.SameStores.writesStacks ?_) e1
    split <;> simp [e3]

@[simp] theorem Hub.tripShut_writes (h : Hub) (cut : Bool) : (h.tripShut cut).WritesStacks h := by
  unfold Hub.tripShut
  have drained : ((List.range 512).foldl (fun h i => if h.awake (i / 64) then h.drainPc i else h) h).WritesStacks h := by
    refine foldl_writesStacks _ (fun h i => ?_) _ h
    split
    · exact h.drainPc_writes i
    · exact ⟨rfl, id⟩
  exact Hub.WritesStacks.trans (Hub.SameStores.writesStacks (by simp)) drained

@[simp] theorem Hub.tripFlush_writes (h : Hub) : h.tripFlush.WritesStacks h := by
  unfold Hub.tripFlush
  have hf := h.flushAll_stores
  split
  · split
    · next he => rw [he] at hf; exact (Hub.tripShut_writes ..).trans hf.writesStacks
    · next he => rw [he] at hf; exact hf.writesStacks
  · exact ⟨rfl, id⟩

/-! Writers of the flash -/

@[simp] theorem Hub.putFlash_writes (h : Hub) (a : Nat) (bs : List Byte) : (h.putFlash a bs).WritesFlash h :=
  ⟨rfl, h.putFlash_wf a bs⟩

@[simp] theorem Hub.eraseFlash_writes (h : Hub) (a n : Nat) : (h.eraseFlash a n).WritesFlash h :=
  ⟨rfl, h.eraseFlash_wf a n⟩

@[simp] theorem Hub.writeEntry_writes (h : Hub) (e : JEntry) : (h.writeEntry e).WritesFlash h := by
  unfold Hub.writeEntry
  dsimp only
  split <;> simp +contextual

@[simp] theorem Hub.tearEntry_writes (h : Hub) (e : JEntry) (found : ReadBack) : (h.tearEntry e found).WritesFlash h := by
  unfold Hub.tearEntry
  dsimp only
  split <;> simp +contextual

@[simp] theorem Hub.journalAtReset_writes (h : Hub) : h.journalAtReset.WritesFlash h := by
  refine foldl_writesFlash _ (fun h e => ?_) _ h
  split
  · exact h.writeEntry_writes e
  · exact ⟨rfl, id⟩

@[simp] theorem Hub.openPorts_writes (h : Hub) : h.openPorts.WritesFlash h := by simp +contextual [Hub.openPorts]

@[simp] theorem Hub.proceed_writes (h : Hub) : h.proceed.WritesFlash h := by
  unfold Hub.proceed
  dsimp only
  repeat' split
  all_goals simp +contextual

@[simp] theorem Hub.afterEpisode_writes (h : Hub) : h.afterEpisode.WritesFlash h := by
  unfold Hub.afterEpisode
  dsimp only
  split <;> simp +contextual

@[simp] theorem Hub.episodeEnd_writes (h : Hub) : h.episodeEnd.WritesFlash h := by
  unfold Hub.episodeEnd
  split
  · exact ⟨rfl, id⟩
  · dsimp only
    split <;> simp +contextual

@[simp] theorem Hub.writeBootRecord_writes (h : Hub) (active pend : Nat) : (h.writeBootRecord active pend).WritesFlash h := by
  simp +contextual [Hub.writeBootRecord]

@[simp] theorem Hub.dropUpdate_writes (h : Hub) : h.dropUpdate.WritesFlash h := by
  unfold Hub.dropUpdate
  dsimp only
  split <;> simp +contextual

@[simp] theorem Hub.spdmAnswer_writes (h : Hub) (f : Fuses) (code : SpdmCode) : (h.spdmAnswer f code).WritesFlash h := by
  unfold Hub.spdmAnswer
  dsimp only
  repeat' split
  all_goals simp +contextual

@[simp] theorem Hub.spdm_writes (h : Hub) (f : Fuses) (code : SpdmCode) : (h.spdm f code).WritesFlash h := by
  unfold Hub.spdm
  repeat' split
  all_goals simp +contextual

@[simp] theorem Hub.stageData_writes (h : Hub) (f : Fuses) (offset : Nat) (data : List Byte) (last : Bool) :
    (h.stageData f offset data last).WritesFlash h := by
  unfold Hub.stageData
  extract_lets slot h1 _ h2
  have e1 : h1.WritesFlash h := by
    simp only [h1]
    split
    · exact h.eraseFlash_writes ..
    · exact ⟨rfl, id⟩
  have e2 : h2.WritesFlash h := Hub.WritesFlash.trans (Hub.putFlash_writes ..) e1
  clear_value h2
  split
  · exact Hub.SameStores.writesFlash (by simp)
  · refine Hub.WritesFlash.trans ?_ e2
    repeat' split
    all_goals simp +contextual

@[simp] theorem Hub.coreRestart_writes (h : Hub) (f : Fuses) : (h.coreRestart f).WritesFlash h := by
  unfold Hub.coreRestart
  split
  · exact ⟨rfl, id⟩
  · dsimp only
    split
    · exact ⟨rfl, id⟩
    · split <;> simp +contextual

@[simp] theorem Hub.warmReset_writes (h : Hub) : h.warmReset.WritesFlash h := by
  unfold Hub.warmReset
  dsimp only
  split <;> simp +contextual

@[simp] theorem Hub.endStage_writes (h : Hub) (n result detail : Nat) : (h.endStage n result detail).WritesFlash h := by
  simp +contextual [Hub.endStage]

@[simp] theorem Hub.bootImage_writes (h : Hub) (f : Fuses) (slot : Nat) : (h.bootImage f slot).WritesFlash h := by
  unfold Hub.bootImage
  split
  next active pend _ =>
  extract_lets fell h1 h2 h3 h4
  have e2 : h2.SameStores h := by
    simp only [h2, h1]
    split <;> simp
  clear_value h2
  have e4 : h4.WritesFlash h := by
    simp only [h4, h3]
    split <;> simp +contextual [e2]
  split
  · exact e2.writesFlash
  · exact Hub.WritesFlash.trans (Hub.SameStores.writesFlash (by simp)) e4

@[simp] theorem Hub.endS2_writes (h : Hub) : h.endS2.WritesFlash h := by
  unfold Hub.endS2
  dsimp only
  split
  · simp +contextual
  · split
    · simp +contextual
    · exact (Hub.endStage_writes ..).trans (Hub.SameStores.writesFlash (by simp))

@[simp] theorem Hub.stageS2_writes (h : Hub) (reports : List StackReport) : (h.stageS2 reports).WritesFlash h := by
  unfold Hub.stageS2
  dsimp only
  split <;> simp +contextual

@[simp] theorem Hub.stageS3_writes (h : Hub) (results : List TrainReport) : (h.stageS3 results).WritesFlash h := by
  simp +contextual [Hub.stageS3]

@[simp] theorem Hub.stageS4_writes (h : Hub) : h.stageS4.WritesFlash h := by
  unfold Hub.stageS4
  dsimp only
  repeat' split
  all_goals simp +contextual

@[simp] theorem Hub.stageS6_writes (h : Hub) (linkUp : BitVec 4) (lanes : List (BitVec 8)) :
    (h.stageS6 linkUp lanes).WritesFlash h := by
  simp +contextual [Hub.stageS6]

@[simp] theorem Hub.startGo_writes (h : Hub) : h.startGo.WritesFlash h := by
  unfold Hub.startGo
  split <;> simp +contextual

@[simp] theorem Hub.continueGo_writes (h : Hub) : h.continueGo.WritesFlash h := by
  unfold Hub.continueGo
  repeat' split
  all_goals simp +contextual

@[simp] theorem Hub.warmEnd_writes (h : Hub) (failed : Bool) : (h.warmEnd failed).WritesFlash h := by
  unfold Hub.warmEnd
  dsimp only
  repeat' split
  all_goals simp +contextual

@[simp] theorem Hub.bootOpEnd_writes (h : Hub) (o : LongOp) (r : OpEnd) : (h.bootOpEnd o r).WritesFlash h := by
  unfold Hub.bootOpEnd
  repeat' split
  all_goals simp +contextual

@[simp] theorem Hub.stageCommitted_writes (h : Hub) : h.stageCommitted.WritesFlash h := by
  simp +contextual [Hub.stageCommitted]

@[simp] theorem Hub.committed_writes (h : Hub) (e : JEntry) : (h.committed e).WritesFlash h := by
  unfold Hub.committed
  dsimp only
  split <;> simp +contextual

@[simp] theorem Hub.writerTurn_writes (h : Hub) (readBack : ReadBack) : (h.writerTurn readBack).WritesFlash h := by
  unfold Hub.writerTurn
  dsimp only
  repeat' split
  all_goals simp +contextual

@[simp] theorem Hub.eraseAhead_writes (h : Hub) : h.eraseAhead.WritesFlash h := by
  unfold Hub.eraseAhead
  split
  · exact ⟨rfl, id⟩
  · extract_lets s go
    have hgo (i : Nat) (h : Hub) : (go i h).WritesFlash h :=
      foldl_writesFlash _ (fun h x => h.eraseFlash_writes ..) _ h
    split
    · exact hgo 1 h
    · split
      · exact hgo 2 h
      · exact ⟨rfl, id⟩

/-! Operations that take what they do as a function -/

theorem Hub.withRoom_writesFlash {h : Hub} {f : Hub → Hub} (e : (f h).WritesFlash h) : (h.withRoom f).WritesFlash h := by
  rcases h.withRoom_cases f with hw | hw <;> rw [hw]
  · exact ⟨rfl, id⟩
  · exact e

theorem Hub.pldm_writesFlash {h : Hub} {inSession : Bool} {f : Hub → Hub} (e : (f h).WritesFlash h) :
    (h.pldm inSession f).WritesFlash h := by
  unfold Hub.pldm
  repeat' split
  case isFalse.isFalse.isFalse.isFalse => exact e
  all_goals simp

theorem Hub.go_writesFlash {h : Hub} {init : Initiator} {page opcode : Nat} {index : Hub → Nat} {f : Hub → Hub}
    (e : ∀ h, (f h).WritesFlash h) : (h.go init page opcode index f).WritesFlash h :=
  Hub.go_ends (P := fun g => g.WritesFlash h) ⟨rfl, id⟩ (Hub.SameStores.writesFlash (by simp))
    (fun r => Hub.SameStores.writesFlash (by simp)) ((e _).trans (Hub.SameStores.writesFlash (by simp)))

/-! The ends of the long operations -/

/-- g differs from h in the stacks' bytes and the flash as well, and both stay canonical. -/
abbrev Hub.WritesStores (g h : Hub) : Prop :=
  (Memory.wf h.mem = true → Memory.wf g.mem = true) ∧ (Flash.wf h.flash = true → Flash.wf g.flash = true)

theorem Hub.SameStores.writesStores {g h : Hub} (e : g.SameStores h) : g.WritesStores h :=
  ⟨fun hw => e.1 ▸ hw, fun hw => e.2 ▸ hw⟩
theorem Hub.WritesFlash.writesStores {g h : Hub} (e : g.WritesFlash h) : g.WritesStores h := ⟨fun hw => e.1 ▸ hw, e.2⟩
theorem Hub.WritesStacks.writesStores {g h : Hub} (e : g.WritesStacks h) : g.WritesStores h := ⟨e.2, fun hw => e.1 ▸ hw⟩

theorem Hub.opEnd_writes (h : Hub) (page : Nat) (o : LongOp) (r : OpEnd) : (h.opEnd page o r).WritesStores h := by
  unfold Hub.opEnd
  split
  case h_6 => exact (h.bootOpEnd_writes o r).writesStores
  case h_8 =>
    split
    · exact (h.readmitEnd_writes o.index r).writesStores
    · exact Hub.SameStores.writesStores (by simp)
  all_goals exact Hub.SameStores.writesStores (by simp)

theorem Hub.withRoom_opEnd_writes (h : Hub) (page : Nat) (o : LongOp) (r : OpEnd) :
    (h.withRoom fun h => h.opEnd page o r).WritesStores h := by
  rcases h.withRoom_cases fun h => h.opEnd page o r with hw | hw <;> rw [hw]
  · exact ⟨id, id⟩
  · exact h.opEnd_writes page o r

theorem secOpEnd_stores (s : State) (o : LongOp) (r : OpEnd) : (secOpEnd s o r).hub.SameStores s.hub := by
  unfold secOpEnd
  dsimp only
  repeat' split
  all_goals simp

end Sys2Proof.Machine

end

section

/-! SUPPORT. What kind of change each command of the table makes (log 12). -/

namespace Sys2Proof.Machine

/-! What a command of the table does: the one case split over the commands -/

/-- How a command changes the block: the hub alone, by a function that leaves the stacks' bytes as they were, where its operands make one
command; or as the report of one stack; or as one of the commands that write to the stacks, HUB_PORST_ASSERT or JOURNAL_COMMIT. -/
inductive Runs (i : Instr) (s : State) : Prop
  | hub (f : Hub → Hub) (e : exec i s = onHubIf i.wf s f) (keeps : (f s.hub).WritesFlash s.hub)
  | stack (st : Nat) (f : Hub → Hub) (reporter : stackOf i = some st) (formed : i.wf = true) (e : exec i s = onStack s st f)
      (keeps : (f s.hub).WritesFlash s.hub)
  | writer (f : Hub → Hub) (formed : i.wf = true) (writes : i.writesStacks = true) (e : exec i s = onHub s f)
      (keeps : (f s.hub).WritesStacks s.hub)
  | powerOn (e : i = .hubPorstAssert)
  | commit (readBack : ReadBack) (e : i = .journalCommit readBack)
  | opEnd (page : BitVec 12) (r : OpEnd) (e : i = .longOpEnd page r)

/-- An operation that PAGE_OP names changes the hub alone (R482). -/
theorem opOfCode_onHub {init : Initiator} {page opcode : Nat} {run : State → Host.Outcome State Fault Refusal}
    (e : opOfCode init page opcode = some run) (s : State) : ∃ f, run s = onHub s f ∧ (f s.hub).WritesFlash s.hub := by
  rcases Option.or_eq_some_iff.mp e with ha | ⟨-, hbc⟩
  · unfold opA at ha
    split at ha
    case h_1 => cases ha; exact ⟨_, rfl, Hub.go_writesFlash fun h => h.startGo_writes⟩
    case h_2 => cases ha; exact ⟨_, rfl, Hub.go_writesFlash fun h => h.continueGo_writes⟩
    case h_20 => cases ha
    all_goals cases ha; exact ⟨_, rfl, Hub.SameStores.writesFlash (by simp)⟩
  · rcases Option.or_eq_some_iff.mp hbc with hb | ⟨-, hc⟩
    · unfold opB at hb
      split at hb
      case h_18 => cases hb
      all_goals cases hb; exact ⟨_, rfl, Hub.SameStores.writesFlash (by simp)⟩
    · unfold opC at hc
      split at hc
      case h_6 => cases hc
      all_goals cases hc; exact ⟨_, rfl, Hub.SameStores.writesFlash (by simp)⟩

theorem writeReg_onHub (init : Initiator) (page off : Nat) (data : Word) (s : State) :
    ∃ f, writeReg init page off data s = onHub s f ∧ (f s.hub).WritesFlash s.hub := by
  rcases writeReg_cases init page off data s with ⟨run, hrun, -, -, e⟩ | e
  · rw [e]
    exact opOfCode_onHub hrun s
  · exact ⟨_, e, Hub.SameStores.writesFlash (by simp)⟩

theorem accessReg_onHub (init : Initiator) (page off : Nat) (wdata : Option Word) (s : State) :
    ∃ f, accessReg init page off wdata s = onHub s f ∧ (f s.hub).WritesFlash s.hub := by
  cases wdata with
  | some d => exact writeReg_onHub init page off d s
  | none => exact ⟨fun h => h.regRead s.fuses init page off, rfl, Hub.SameStores.writesFlash (by simp)⟩

theorem Runs.of_onHub {i : Instr} {s : State} (hw : i.wf = true) (h : ∃ f, exec i s = onHub s f ∧ (f s.hub).WritesFlash s.hub) :
    Runs i s := by
  obtain ⟨f, e, keeps⟩ := h
  exact .hub f (by rw [e, hw]; rfl) keeps

theorem exec_runs (i : Instr) (s : State) : Runs i s := by
  cases i with
  | hubPorstAssert => exact .powerOn rfl
  | journalCommit readBack => exact .commit readBack rfl
  | longOpEnd page r => exact .opEnd page r rfl
  | commandSlot engine => exact .writer (fun h => h.commandSlot engine.toNat) rfl rfl rfl (s.hub.commandSlot_writes engine.toNat)
  | tripFlushDone => exact .writer (fun h => h.tripFlush) rfl rfl rfl s.hub.tripFlush_writes
  | tripFlushCut =>
    refine .writer _ rfl rfl rfl ?_
    split
    · exact (Hub.tripShut_writes ..).trans (Hub.SameStores.writesStacks (by simp))
    · exact ⟨rfl, id⟩
  | parityError | periodicRetrainSlice | retrainingSliceEnd | channelTrainingEnd | stackTempRead | pprSequenceEnd =>
    exact .stack _ _ rfl rfl rfl (Hub.SameStores.writesFlash (by simp))
  | registerWrite | pageEnable | expertUnlock | pageLock | irqEnableWrite | msiRouteWrite | compatProfileWrite | epochArm | clrMin
  | deadlineCntClr | arithCntClr | trickCntClr | tmCntClr | dmaCntClr | farportCntClr | rasCntClr | thermCntClr | clrGlobal
  | clrEngine | clrSamples | kwSelLoad | pwSelLoad | hwSelLoad | expSelLoad | evtCfgWrite | shaperEnable | journalAckWrite =>
    refine .of_onHub rfl ?_
    dsimp only [exec]
    exact writeReg_onHub ..
  | unassignedPageAccess | setDataAccess | deckDataAccess | entryDataAccess => exact .of_onHub rfl (accessReg_onHub ..)
  | hubWrstAssert => exact .hub (fun h => h.warmReset) rfl s.hub.warmReset_writes
  | spdmRequest code => exact .hub (fun h => h.spdm s.fuses code) rfl (s.hub.spdm_writes s.fuses code)
  | journalSectorErased => exact .hub (fun h => h.eraseAhead) rfl s.hub.eraseAhead_writes
  | supplyEpisodeEnd => exact .hub (fun h => h.episodeEnd) rfl s.hub.episodeEnd_writes
  | bootStart => exact .hub _ rfl (Hub.go_writesFlash fun h => h.startGo_writes)
  | continue_ => exact .hub _ rfl (Hub.go_writesFlash fun h => h.continueGo_writes)
  | pldmRequestUpdate | pldmCancelUpdate => exact .hub _ rfl (Hub.pldm_writesFlash (by simp +contextual))
  | pldmFirmwareData => exact .hub _ rfl (Hub.pldm_writesFlash (Hub.stageData_writes ..))
  | pldmActivateFirmware =>
    refine .hub _ rfl (Hub.pldm_writesFlash ?_)
    split <;> simp +contextual
  | mgmtCoreReset =>
    exact .hub _ rfl (Hub.withRoom_writesFlash ((Hub.SameStores.writesFlash (by simp)).trans (s.hub.coreRestart_writes s.fuses)))
  | stageS0Rom | stageS2Phy | stageS3Train | stageS4Map | stageS6Far | stageS7Open | selfRefreshExitDone =>
    refine .hub _ rfl ?_
    split <;> simp +contextual
  | stageS1Fw =>
    refine .hub _ rfl ?_
    split
    · exact ⟨rfl, id⟩
    · split <;> simp +contextual
  | stageS5Cache =>
    refine .hub _ rfl ?_
    split
    · exact ⟨rfl, id⟩
    · split <;> simp +contextual
  | peerFailTimeout | rekeyTimeout | wipeEnd =>
    refine .hub _ rfl (Hub.SameStores.writesFlash ?_)
    repeat' split
    all_goals simp
  | hmmResponse | hmmTimeout | keyxRepeat | oeLinkUpFall | farportTrainingEnd =>
    refine .hub _ rfl (Hub.SameStores.writesFlash ?_)
    dsimp only
    repeat' split
    all_goals simp
  | rxKeyxOffer port f | rxKeyxAccept port f =>
    have hk := s.hub.rxKeyx_stores port.toNat f
    refine .hub _ rfl (Hub.SameStores.writesFlash ?_)
    split <;> next he => rw [he] at hk; simpa using hk
  | _ => exact .hub _ rfl (Hub.SameStores.writesFlash (by simp))

end Sys2Proof.Machine

end

section

/-! SUPPORT. What every step keeps, and when a command stops: O3, O4, O5, O6, O7, O8. -/

namespace Sys2Proof.Machine

/-! The commands that change more than the hub -/

/-- LONG_OP_END changes nothing, ends an operation of the SEC page, or ends another page's when the journal has room for it. -/
theorem execLongOpEnd_next {page : BitVec 12} {r : OpEnd} {s t : State} (e : execLongOpEnd page r s = .next t) :
    t = s ∨ (∃ o, t = secOpEnd s o r) ∨ ∃ o, t = { s with hub := s.hub.withRoom fun h => h.opEnd page.toNat o r } := by
  unfold execLongOpEnd at e
  split at e
  · cases e; exact .inl rfl
  · next o _ =>
    split at e
    · cases e; exact .inl rfl
    · split at e
      · cases e; exact .inr (.inl ⟨o, rfl⟩)
      · rw [onHub_next] at e; exact .inr (.inr ⟨o, e⟩)

theorem execLongOpEnd_completes (page : BitVec 12) (r : OpEnd) (s : State) : Completes (execLongOpEnd page r s) := by
  unfold execLongOpEnd
  split
  · exact ⟨_, rfl⟩
  · repeat' split
    all_goals exact ⟨_, rfl⟩

/-! Fuses (R98, R380, R384) -/

theorem Fuses.keeps_refl (f : Fuses) : f.keeps f := ⟨le_refl _, rfl, fun _ => id, fun _ => id, id, rfl⟩

/-- An operation of the SEC page raises SVN to a maximum, adds revocations, or sets an identity key or PROV_LOCK not yet set. -/
theorem secOpEnd_keepsFuses (s : State) (o : LongOp) (r : OpEnd) : s.fuses.keeps (secOpEnd s o r).fuses := by
  unfold secOpEnd
  extract_lets h f fin n blown svn rev
  split
  · exact f.keeps_refl
  split
  · exact f.keeps_refl
  split
  · exact ⟨Nat.le_max_left .., rfl, fun _ => id, fun _ => id, id, rfl⟩
  split
  · split
    · exact f.keeps_refl
    · exact ⟨le_refl _, rfl, fun i hi => by simp [f, hi], fun _ => id, id, rfl⟩
  split
  · split
    · exact f.keeps_refl
    · next hkey =>
      have hnone : f.identity = none := by simpa using fun h => hkey (.inr h)
      split
      · exact f.keeps_refl
      · dsimp only
        split
        · exact f.keeps_refl
        · exact ⟨le_refl _, rfl, fun _ => id, fun k hk => absurd (hnone.symm.trans hk) (by simp), id, rfl⟩
  split
  · split
    · exact f.keeps_refl
    · split
      · exact f.keeps_refl
      · exact ⟨le_refl _, rfl, fun _ => id, fun _ => id, fun _ => rfl, rfl⟩
  · exact f.keeps_refl

theorem exec_keepsFuses {i : Instr} {s t : State} (e : exec i s = .next t) : s.fuses.keeps t.fuses := by
  cases exec_runs i s with
  | hub f hf => rw [hf, onHubIf_next] at e; obtain ⟨-, rfl⟩ := e; exact s.fuses.keeps_refl
  | stack st f _ _ hf => rw [hf, onStack_next] at e; obtain ⟨-, rfl⟩ := e; exact s.fuses.keeps_refl
  | writer f _ _ hf => rw [hf, onHub_next] at e; subst e; exact s.fuses.keeps_refl
  | powerOn hi => subst hi; cases e; exact s.fuses.keeps_refl
  | commit readBack hi => subst hi; cases e; exact s.fuses.keeps_refl
  | opEnd page r hi =>
    subst hi
    rcases execLongOpEnd_next e with rfl | ⟨o, rfl⟩ | ⟨o, rfl⟩
    · exact t.fuses.keeps_refl
    · exact secOpEnd_keepsFuses s o r
    · exact s.fuses.keeps_refl

/-- A step idles, or runs the command at the front of the queue. -/
theorem step_next {s t : State} (e : step s = .next t) :
    t = idle s ∨ ∃ i rest, s.pending = i :: rest ∧ exec i { s with pending := rest } = .next t := by
  unfold step at e
  split at e
  · cases e; exact .inl rfl
  · next i rest hp => exact .inr ⟨i, rest, hp, e⟩

/-- Settles O3: only an operation of the SEC page blows fuses, and each of the four adds to what is blown. -/
theorem fusesOnlyGain : Obligations.FusesOnlyGain := by
  unfold Obligations.FusesOnlyGain
  intro s t e
  rcases step_next e with rfl | ⟨i, rest, -, e⟩
  · exact s.fuses.keeps_refl
  · exact exec_keepsFuses (s := { s with pending := rest }) e

/-! The stacks' bytes and the flash (R97, R107, R326) -/

theorem Hub.WritesStores.storesWf {g h : Hub} (e : g.WritesStores h) (hw : h.storesWf) : g.storesWf :=
  ⟨e.1 hw.1, e.2 hw.2⟩

theorem exec_writesStores {i : Instr} {s t : State} (e : exec i s = .next t) : t.hub.WritesStores s.hub := by
  cases exec_runs i s with
  | hub f hf keeps => rw [hf, onHubIf_next] at e; obtain ⟨-, rfl⟩ := e; exact keeps.writesStores
  | stack st f _ _ hf keeps => rw [hf, onStack_next] at e; obtain ⟨-, rfl⟩ := e; exact keeps.writesStores
  | writer f _ _ hf keeps => rw [hf, onHub_next] at e; subst e; exact keeps.writesStores
  | powerOn hi =>
    subst hi
    cases e
    exact ((Hub.SameStores.writesFlash (by simp)).trans s.hub.journalAtReset_writes).writesStores
  | commit readBack hi => subst hi; cases e; exact (s.hub.writerTurn_writes readBack).writesStores
  | opEnd page r hi =>
    subst hi
    rcases execLongOpEnd_next e with rfl | ⟨o, rfl⟩ | ⟨o, rfl⟩
    · exact ⟨id, id⟩
    · exact (secOpEnd_stores s o r).writesStores
    · exact s.hub.withRoom_opEnd_writes ..

/-- Settles O7: every command leaves both stores as they were or writes them through operations that keep the canonical form. -/
theorem storesStayCanonical : Obligations.StoresStayCanonical := by
  unfold Obligations.StoresStayCanonical
  intro s t hw e
  rcases step_next e with rfl | ⟨i, rest, -, e⟩
  · exact hw
  · exact (exec_writesStores (s := { s with pending := rest }) e).storesWf hw

/-- Settles O8. -/
theorem resetStoresCanonical : Obligations.ResetStoresCanonical := reset_stores_wf

/-! Stops (R57, R308, R403, log 12) -/

/-- Settles O5: a command's meaning has no other stop than ill-formed operands and a stack that is not fitted. -/
theorem wellFormedCommandsComplete : Obligations.WellFormedCommandsComplete := by
  unfold Obligations.WellFormedCommandsComplete
  intro i s hw hfit
  cases exec_runs i s with
  | hub f hf => exact ⟨_, hf.trans (onHubIf_next.mpr ⟨hw, rfl⟩)⟩
  | stack st f hst _ hf => exact ⟨_, hf.trans (onStack_next.mpr ⟨hfit st hst, rfl⟩)⟩
  | writer f _ _ hf => exact ⟨_, hf⟩
  | powerOn hi => subst hi; exact ⟨_, rfl⟩
  | commit readBack hi => subst hi; exact ⟨_, rfl⟩
  | opEnd page r hi => subst hi; exact execLongOpEnd_completes page r s

/-- A command that is not well formed is refused as such; a stack's report faults where the stack is not fitted. -/
theorem onHubIf_stops {ok : Bool} {s : State} {f : Hub → Hub} :
    (∀ r, onHubIf ok s f = .refused r → r = .illFormed ∧ ok = false) ∧ ∀ x, onHubIf ok s f ≠ .fault x := by
  cases ok
  · exact ⟨fun r e => (by cases e; exact ⟨rfl, rfl⟩), fun x e => by cases e⟩
  · exact ⟨fun r e => (by cases e), fun x e => by cases e⟩

theorem onStack_stops {s : State} {st : Nat} {f : Hub → Hub} :
    (∀ r, onStack s st f ≠ .refused r) ∧
    ∀ x, onStack s st f = .fault x → x = .noStack ∧ ¬ s.hub.pins.stackFit.getLsbD st = true := by
  unfold onStack
  split
  · exact ⟨fun r e => (by cases e), fun x e => by cases e⟩
  · next hfit => exact ⟨fun r e => (by cases e), fun x e => by cases e; exact ⟨rfl, hfit⟩⟩

/-- An outcome that is a next state is no stop. -/
theorem Completes.no_stop {o : Host.Outcome State Fault Refusal} (h : Completes o) :
    (∀ r, o ≠ .refused r) ∧ ∀ x, o ≠ .fault x := by
  obtain ⟨t, rfl⟩ := h
  exact ⟨fun r e => (by cases e), fun x e => by cases e⟩

/-- Settles O6: the only stops are those of onHubIf and onStack. -/
theorem stopsAreIllFormedOrUnfitted : Obligations.StopsAreIllFormedOrUnfitted := by
  unfold Obligations.StopsAreIllFormedOrUnfitted
  intro i s
  have ends (h : Completes (exec i s)) : (∀ r, exec i s = .refused r → r = .illFormed ∧ i.wf = false) ∧
      (∀ f, exec i s = .fault f → f = .noStack ∧ ¬ fitted i s) :=
    ⟨fun r e => absurd e (h.no_stop.1 r), fun x e => absurd e (h.no_stop.2 x)⟩
  cases exec_runs i s with
  | hub f hf =>
    rw [hf]
    exact ⟨onHubIf_stops.1, fun x e => absurd e (onHubIf_stops.2 x)⟩
  | stack st f hst _ hf =>
    rw [hf]
    refine ⟨fun r e => absurd e (onStack_stops.1 r), fun x e => ?_⟩
    obtain ⟨hx, hfit⟩ := onStack_stops.2 x e
    exact ⟨hx, fun h => hfit (h st hst)⟩
  | writer f _ _ hf => exact ends ⟨_, hf⟩
  | powerOn hi => subst hi; exact ends ⟨_, rfl⟩
  | commit readBack hi => subst hi; exact ends ⟨_, rfl⟩
  | opEnd page r hi => subst hi; exact ends (execLongOpEnd_completes page r s)

/-! The trip pin (R95, R433) -/

theorem secOpEnd_tripped (s : State) (o : LongOp) (r : OpEnd) : (secOpEnd s o r).tripped = s.tripped := by
  simp only [secOpEnd, apply_ite State.tripped, ite_self]

/-- Settles O4: the commands that change the hub alone cannot reach the pin. -/
theorem tripPinChanges : Obligations.TripPinChanges := by
  unfold Obligations.TripPinChanges
  intro i s t e
  cases exec_runs i s with
  | hub f hf => rw [hf, onHubIf_next] at e; obtain ⟨-, rfl⟩ := e; exact .inl rfl
  | stack st f _ _ hf => rw [hf, onStack_next] at e; obtain ⟨-, rfl⟩ := e; exact .inl rfl
  | writer f _ _ hf => rw [hf, onHub_next] at e; subst e; exact .inl rfl
  | powerOn hi => subst hi; cases e; exact .inr (.inl ⟨rfl, rfl⟩)
  | commit readBack hi =>
    subst hi
    cases e
    by_cases hr : readBack = .right ∧ s.hub.nextIsTrip = true
    · obtain ⟨rfl, htrip⟩ := hr
      exact .inr (.inr ⟨rfl, htrip, by simp [htrip]⟩)
    · refine .inl ?_
      simp only [Bool.or_eq_left_iff_imp, Bool.and_eq_true, decide_eq_true_eq]
      exact fun h => absurd h hr
  | opEnd page r hi =>
    subst hi
    rcases execLongOpEnd_next e with rfl | ⟨o, rfl⟩ | ⟨o, rfl⟩
    · exact .inl rfl
    · exact .inl (secOpEnd_tripped s o r)
    · exact .inl rfl

end Sys2Proof.Machine

end

section

/-! SUPPORT. Responses and protocol errors of the host ports: O22, O23. -/

namespace Sys2Proof.Machine

/-! Bits and pins -/

theorem bit_putBit_same {w : Nat} (x : BitVec w) {i : Nat} (b : Bool) (hi : i < w) : bit (putBit x i b) i = b := by
  have hbit : (BitVec.ofNat w (1 <<< i)).getLsbD i = true := by
    rw [BitVec.getLsbD_ofNat, Nat.one_shiftLeft, Nat.testBit_two_pow_self]; simpa using hi
  cases b <;> simp [bit, putBit, putBits, hi, hbit]

/-! Responses (R52, R72, R73) -/

/-- A port whose waiting responses stay leaves every port's as they were. -/
theorem Hub.out_putPort {h : Hub} {p : Nat} {v : Port} (e : v.out = (h.port p).out) (q : Nat) :
    ((h.putPort p v).port q).out = (h.port q).out := by
  rw [Hub.port_putPort]
  split
  · next hq => rw [hq, e]
  · rfl

@[simp] theorem Port.out_grant (q : Port) (wr : Bool) (n : Nat) : (q.grant wr n).out = q.out := by cases wr <;> rfl
@[simp] theorem Port.out_set (q : Port) (wr : Bool) (n m : Nat) : (q.set wr n m).out = q.out := by cases wr <;> rfl
@[simp] theorem Port.out_setOwed (q : Port) (wr : Bool) (n : Nat) : (q.setOwed wr n).out = q.out := by cases wr <;> rfl

@[simp] theorem Hub.port_putPool (h : Hub) (wr : Bool) (g v q : Nat) : (h.putPool wr g v).port q = h.port q := by
  cases wr <;> rfl

theorem Hub.out_topUpPort (h : Hub) (wr : Bool) (p q : Nat) : ((h.topUpPort wr p).port q).out = (h.port q).out := by
  unfold Hub.topUpPort
  dsimp only
  split
  · rfl
  · split
    · rfl
    · rw [Hub.out_putPort (by simp)]
      simp

theorem Hub.out_topUp (h : Hub) (g q : Nat) : ((h.topUp g).port q).out = (h.port q).out :=
  foldl_keeps (fun h : Hub => (h.port q).out) _ (fun h i => by simp only [Hub.out_topUpPort]) _ h

/-- A credit that returns leaves the responses that wait at a port. -/
theorem Hub.out_giveBack (h : Hub) (wr : Bool) (p q : Nat) : ((h.giveBack wr p).port q).out = (h.port q).out := by
  unfold Hub.giveBack
  dsimp only
  split
  · exact Hub.out_putPort (by simp) q
  · split
    · rw [Hub.out_topUpPort, Hub.out_putPort (by simp)]
    · rw [Hub.out_topUp, Hub.port_putPool, Hub.out_putPort (by simp)]

/-- Settles O23: a credit that returns leaves the responses that wait. -/
theorem responsesLeaveInOrder : Obligations.ResponsesLeaveInOrder := by
  unfold Obligations.ResponsesLeaveInOrder
  intro s port r rest hout
  refine ⟨_, rfl, ?_⟩
  dsimp only [Hub.acceptResponse]
  simp only [hout]
  cases hc : r.credit
  · simp [Hub.port_putPort]
  · simp [Hub.port_putPort, Hub.out_giveBack]

/-! Protocol errors (R74 to R76) -/

/-- What a protocol error leaves: its record, the port's bit of PORTS, the interrupt where that bit rises; no request and no
credit changes. -/
theorem Hub.protoError_records (h : Hub) {p kind : Nat} (hp : p < 32) (tag : Nat) :
    (h.protoError p kind tag).rd pHub 0x144 = BitVec.ofNat 32 (p + 32 * kind + 65536 * tag) ∧
    bit ((h.protoError p kind tag).rd pHub 0x148) p = true ∧
    (bit (h.rd pHub 0x148) p = false → bit ((h.protoError p kind tag).rd pHub 0x10) 5 = true) ∧
    (h.protoError p kind tag).lines = h.lines ∧ (h.protoError p kind tag).ports = h.ports ∧
    (h.protoError p kind tag).mem = h.mem := by
  unfold Hub.protoError
  dsimp only
  split
  · next hb =>
    have hseen : bit (h.rd pHub 0x148) p = true := by simpa [Hub.rd_wr] using hb
    simp [Hub.rd_wr, bit_putBit_same _ _ hp, hseen]
  · simp [Hub.rd_wr, Hub.rd_raise, bit_putBit_same, hp]

/-- Settles O22. -/
theorem portErrorsAreRecorded : Obligations.PortErrorsAreRecorded := by
  unfold Obligations.PortErrorsAreRecorded
  refine ⟨fun s port hr => ⟨_, rfl, ?_⟩, fun s port hr => ⟨_, rfl, ?_⟩⟩
  · simpa [hr] using s.hub.protoError_records (kind := 2) port.isLt 0
  · simpa [hr] using s.hub.protoError_records (kind := 4) port.isLt 0

end Sys2Proof.Machine

end

section

/-! SUPPORT. The power-domain handshake: O38. -/

namespace Sys2Proof.Machine

/-! The power-domain handshake (R90 to R92, R295, R419) -/

/-- A fold reaches for each entry of its list what the entry's own step brings about and no step takes back. -/
theorem foldl_reaches {α σ : Type} {f : σ → α → σ} {Q : α → σ → Prop} (own : ∀ x a, Q a (f x a))
    (kept : ∀ x a b, Q b x → Q b (f x a)) {l : List α} {a : α} (ha : a ∈ l) (x : σ) : Q a (l.foldl f x) := by
  have keeps (l : List α) (x : σ) (hx : Q a x) : Q a (l.foldl f x) := by
    induction l generalizing x with
    | nil => exact hx
    | cons b l ih => exact ih _ (kept x b a hx)
  induction l generalizing x with
  | nil => cases ha
  | cons b l ih =>
    rcases List.mem_cons.mp ha with rfl | ha
    · exact keeps l _ (own x a)
    · exact ih ha _

/-- One step of a stack's going down: the pseudo-channel is OFFLINE or stays EXCLUDED, and RETRAIN_NEED shows it. -/
def Hub.pcOffline (st : Nat) (h : Hub) (j : Nat) : Hub :=
  if (h.pc (st * 64 + j)).st = 5 then h
  else (h.putPc (st * 64 + j) { h.pc (st * 64 + j) with st := 4, prior := 4 }).wrFld (pStk st) 0x60 (j / 2) 1 1

theorem Hub.stackOffline_eq (h : Hub) (st : Nat) :
    h.stackOffline st = ((List.range 64).foldl (Hub.pcOffline st) (h.sliceEnd st [] false)).wrFld (pStk st) 0x40 1 1 0 := rfl

theorem Hub.pc_wrFld (h : Hub) (p o lo n v i : Nat) : (h.wrFld p o lo n v).pc i = h.pc i := by simp [Hub.pc]

theorem Hub.pcOffline_own (h : Hub) (st j : Nat) :
    ((h.pcOffline st j).pc (st * 64 + j)).st = 4 ∨ ((h.pcOffline st j).pc (st * 64 + j)).st = 5 := by
  unfold Hub.pcOffline
  split
  · next h5 => exact .inr h5
  · exact .inl (by rw [Hub.pc_wrFld, Hub.pc_putPc, if_pos rfl])

theorem Hub.pcOffline_kept (h : Hub) (st i j : Nat) (hj : (h.pc j).st = 4 ∨ (h.pc j).st = 5) :
    ((h.pcOffline st i).pc j).st = 4 ∨ ((h.pcOffline st i).pc j).st = 5 := by
  unfold Hub.pcOffline
  split
  · exact hj
  · rw [Hub.pc_wrFld, Hub.pc_putPc]
    split
    · exact .inl rfl
    · exact hj

/-- Every pseudo-channel of a stack that goes down is OFFLINE or EXCLUDED (R419). -/
theorem Hub.stackOffline_pc (h : Hub) (st : Nat) {j : Nat} (hj : j < 64) :
    ((h.stackOffline st).pc (st * 64 + j)).st = 4 ∨ ((h.stackOffline st).pc (st * 64 + j)).st = 5 := by
  rw [Hub.stackOffline_eq, Hub.pc_wrFld]
  exact foldl_reaches (Q := fun j (h : Hub) => (h.pc (st * 64 + j)).st = 4 ∨ (h.pc (st * 64 + j)).st = 5)
    (fun h j => h.pcOffline_own st j) (fun h i j => h.pcOffline_kept st i _) (List.mem_range.mpr hj) _

/-- The hub once a domain's PD_REQ has risen. -/
def Hub.pdHigh (h : Hub) (n : Nat) : Hub := h.setPins { h.pins with pdReq := putBit h.pins.pdReq n true }

theorem Hub.pdRise_eq {h : Hub} {n : Nat} (hreq : bit h.pins.pdReq n = false) :
    h.pdRise n =
      if h.inReset then h.pdHigh n
      else if !h.afterS7 then (if n < 8 then (h.pdHigh n).putNak n true else (h.pdHigh n).putAck n true)
      else if n < 8 then (if h.stackLive n then (h.pdHigh n).putNak n true else h.pdHigh n)
      else (h.touching n).foldl (fun h c => h.powerStop c) (h.pdHigh n) := by
  rw [Hub.pdRise, if_neg (by simp [hreq])]
  rfl

theorem Hub.pc_acked (h : Hub) (n m i : Nat) (b : Bool) : ((h.unread n).putAck m b).pc i = h.pc i := rfl

/-- A request that no answer meets: a stack without a LIVE or TARGET slab goes down (R90, R419). -/
theorem Hub.pdAckRise_stack {h : Hub} {n : Nat} (hr : h.inReset = false) (hreq : bit h.pins.pdReq n = true)
    (hack : bit h.pins.pdAck n = false) (hnak : bit h.pins.pdNak n = false) (hn : n < 8) (hlive : h.stackLive n = false) :
    h.pdAckRise n = ((h.stackOffline n).unread n).putAck n true := by
  simp [Hub.pdAckRise, hr, hreq, hack, hnak, hn, hlive]

/-- A host domain is acknowledged once no channel that touches it is at work (R295). -/
theorem Hub.pdAckRise_host {h : Hub} {n : Nat} (hr : h.inReset = false) (hreq : bit h.pins.pdReq n = true)
    (hack : bit h.pins.pdAck n = false) (hnak : bit h.pins.pdNak n = false) (hn : 8 ≤ n)
    (hquiet : ∀ c, (h.touching n).contains c = true → (h.dmaCh c).busy = false) : h.pdAckRise n = h.putAck n true := by
  have hq : (h.touching n).any (fun c => (h.dmaCh c).busy) = false :=
    List.any_eq_false.mpr fun c hc => by simp [hquiet c (by simpa using hc)]
  simp [Hub.pdAckRise, hr, hreq, hack, hnak, Nat.not_lt.mpr hn, hq]

/-- The hub once a domain's PD_REQ, PD_ACK and PD_NAK have fallen. -/
def Hub.pdLow (h : Hub) (n : Nat) : Hub :=
  ((h.setPins { h.pins with pdReq := putBit h.pins.pdReq n false }).putAck n false).putNak n false

theorem Hub.pdFall_eq {h : Hub} {n : Nat} (hreq : bit h.pins.pdReq n = true) (r : OpEnd) :
    h.pdFall n r =
      if h.inReset ∨ !h.afterS7 then h.pdLow n
      else if n < 8 then
        if bit h.pins.pdAck n ∧ (h.stack n).populated then ((h.pdLow n).takeTiming n).stackRestart n r else h.pdLow n
      else (List.range 64).foldl (fun h c => h.powerResume c) (h.pdLow n) := by
  rw [Hub.pdFall, if_neg (by simp [hreq])]
  rfl

/-- The three levels fall with the request, whatever the domain's work does then. -/
theorem Hub.pdFall_bounds {h : Hub} {n : Nat} (hreq : bit h.pins.pdReq n = true) (r : OpEnd) :
    (h.pdFall n r).SameBounds (h.pdLow n) := by
  rw [Hub.pdFall_eq hreq]
  repeat' split
  all_goals simp

/-- Settles O38. -/
theorem powerDomains : Obligations.PowerDomains := by
  unfold Obligations.PowerDomains
  refine ⟨fun s d hreq hr h7 hd => ⟨_, rfl, ?_⟩, fun s d hreq hr h7 hd => ?_,
    fun s d hr hreq hack hnak hd hlive => ⟨_, rfl, ?_⟩, fun s d hr hreq hack hnak hd hquiet => ?_,
    fun s d r hreq => ⟨_, rfl, ?_⟩, fun s d r hreq hack hr h7 hd hpop => ?_⟩
  · dsimp only
    cases hlive : s.hub.stackLive d.toNat
    all_goals simp [Hub.pdRise_eq hreq, hr, h7, hd, hlive, Hub.pdHigh, Hub.putNak, setLvl, bit_putBit_same, d.isLt]
  · exact becomes_onHub (f := fun h => h.pdRise d.toNat) (by simp [Hub.pdRise_eq hreq, hr, h7, Nat.not_lt.mpr hd, Hub.pdHigh])
  · dsimp only
    rw [Hub.pdAckRise_stack hr hreq hack hnak hd hlive]
    refine ⟨?_, ?_, fun j hj => ?_, ?_⟩
    · simp [Hub.putAck, setLvl, bit_putBit_same, d.isLt]
    · simp [Hub.putAck]
    · rw [Hub.pc_acked]
      exact s.hub.stackOffline_pc d.toNat hj
    · simp
  · exact becomes_onHub (f := fun h => h.pdAckRise d.toNat) (Hub.pdAckRise_host hr hreq hack hnak hd hquiet)
  · obtain ⟨hpins, -, hmem, -⟩ := Hub.pdFall_bounds hreq r
    dsimp only
    rw [hpins, hmem]
    simp [Hub.pdLow, Hub.putAck, Hub.putNak, setLvl, bit_putBit_same, d.isLt]
  · exact becomes_onHub (f := fun h => h.pdFall d.toNat r) (by simp [Hub.pdFall_eq hreq, hack, hr, h7, hd, hpop, Hub.pdLow])

end Sys2Proof.Machine

end

section

/-! SUPPORT. Header flits and the slots of an inbound channel (R52, R56, R57). -/

namespace Sys2Proof.Machine

/-! Headers and slots (R52, R56, R57) -/

/-- A word of fields, each with its width, from bit 0. -/
def packFields : List (Nat × Nat) → Nat
  | [] => 0
  | (n, v) :: l => 2 ^ n * packFields l + v

theorem testBit_packFields {pre suf : List (Nat × Nat)} {n v j : Nat} (hpre : ∀ e ∈ pre, e.2 < 2 ^ e.1) (hv : v < 2 ^ n) (hj : j < n) :
    (packFields (pre ++ (n, v) :: suf)).testBit ((pre.map (·.1)).sum + j) = v.testBit j := by
  induction pre with
  | nil => simp [packFields, Nat.testBit_two_pow_mul_add _ hv, hj]
  | cons e pre ih =>
    obtain ⟨he, hpre⟩ := List.forall_mem_cons.mp hpre
    rw [List.cons_append, packFields, Nat.testBit_two_pow_mul_add _ he, List.map_cons, List.sum_cons, if_neg (by omega), ← ih hpre]
    congr 1
    omega

/-- The fields of a request header's flit, reserved ones among them (R56). -/
def headerFields (d : Header) : List (Nat × Nat) :=
  [(4, d.opcode.toNat), (3, d.size.toNat), (1, d.narrow.toNat), (1, d.trump.toNat), (2, d.hint.toNat), (6, d.part.toNat),
   (3, d.cls.toNat), (2, d.colour.toNat), (1, d.fstart.toNat), (1, 0), (8, d.flen.toNat), (16, d.tag.toNat), (3, d.fmt.toNat),
   (2, d.rop.toNat), (3, d.mod.toNat), (8, d.trickId.toNat), (64, d.addr.toNat), (64, d.operand64.toNat), (64, 0),
   (256, d.byteEn.toNat)]

theorem toFlit_eq (d : Header) : d.toFlit = BitVec.ofNat 512 (packFields (headerFields d)) := by
  rw [Header.toFlit]
  congr 1
  simp only [headerFields, packFields]
  ring

theorem headerFields_fit (d : Header) : ∀ e ∈ headerFields d, e.2 < 2 ^ e.1 := by
  simp only [headerFields, List.forall_mem_cons, BitVec.isLt, true_and]
  simp [Bool.toNat_le]

/-- Bit j of field i of a header's flit is bit j of its value. -/
theorem getLsbD_toFlit {d : Header} (i : Nat) {off n v j : Nat} (he : (headerFields d)[i]? = some (n, v))
    (ho : (((headerFields d).take i).map (·.1)).sum = off) (hw : off + n ≤ 512) (hj : j < n) :
    d.toFlit.getLsbD (off + j) = v.testBit j := by
  obtain ⟨hi, hget⟩ := List.getElem?_eq_some_iff.mp he
  have hsplit : headerFields d = (headerFields d).take i ++ (n, v) :: (headerFields d).drop (i + 1) := by
    rw [← hget, ← List.drop_eq_getElem_cons hi, List.take_append_drop]
  have hbit := testBit_packFields (pre := (headerFields d).take i)
    (suf := (headerFields d).drop (i + 1)) (fun e h => headerFields_fit d e (List.mem_of_mem_take h))
    (headerFields_fit d (n, v) (List.mem_of_getElem? he)) hj
  rw [← hsplit, ho] at hbit
  rw [toFlit_eq, BitVec.getLsbD_ofNat, hbit, decide_eq_true (by omega), Bool.true_and]

theorem extractLsb'_toFlit {d : Header} {n : Nat} (i off : Nat) (x : BitVec n) (he : (headerFields d)[i]? = some (n, x.toNat))
    (ho : (((headerFields d).take i).map (·.1)).sum = off := by simp [headerFields]) (hw : off + n ≤ 512 := by decide) :
    d.toFlit.extractLsb' off n = x := by
  refine BitVec.eq_of_getLsbD_eq fun j hj => ?_
  rw [BitVec.getLsbD_extractLsb', getLsbD_toFlit i he ho hw hj, decide_eq_true hj, Bool.true_and, BitVec.testBit_toNat]

theorem getLsbD_toFlit_flag {d : Header} (i off : Nat) (b : Bool) (he : (headerFields d)[i]? = some (1, b.toNat))
    (ho : (((headerFields d).take i).map (·.1)).sum = off := by simp [headerFields]) (hw : off + 1 ≤ 512 := by decide) :
    d.toFlit.getLsbD off = b := by
  refine (getLsbD_toFlit i he ho hw Nat.zero_lt_one).trans ?_
  cases b <;> rfl

theorem ofFlit_toFlit (d : Header) : Header.ofFlit d.toFlit = d := by
  rw [Header.ofFlit,
    extractLsb'_toFlit 0 0 d.opcode rfl, extractLsb'_toFlit 1 4 d.size rfl, getLsbD_toFlit_flag 2 7 d.narrow rfl,
    getLsbD_toFlit_flag 3 8 d.trump rfl, extractLsb'_toFlit 4 9 d.hint rfl, extractLsb'_toFlit 5 11 d.part rfl,
    extractLsb'_toFlit 6 17 d.cls rfl, extractLsb'_toFlit 7 20 d.colour rfl, getLsbD_toFlit_flag 8 22 d.fstart rfl,
    extractLsb'_toFlit 10 24 d.flen rfl, extractLsb'_toFlit 11 32 d.tag rfl, extractLsb'_toFlit 12 48 d.fmt rfl,
    extractLsb'_toFlit 13 51 d.rop rfl, extractLsb'_toFlit 14 53 d.mod rfl, extractLsb'_toFlit 15 56 d.trickId rfl,
    extractLsb'_toFlit 16 64 d.addr rfl, extractLsb'_toFlit 17 128 d.operand64 rfl, extractLsb'_toFlit 19 256 d.byteEn rfl]

/-- Data flits complete the request that waits for them (R57). -/
theorem commandsOf_data (port : BitVec 5) (d : Header) {flits got : List Sector} (hne : flits ≠ [])
    (hl : got.length + flits.length = d.flitsDue) :
    commandsOf port (some (d, got)) (flits.map Slot.data) = [d.command port (got ++ flits)] := by
  induction flits generalizing got with
  | nil => exact absurd rfl hne
  | cons x flits ih =>
    rw [List.length_cons] at hl
    rw [List.map_cons, commandsOf]
    cases flits with
    | nil =>
      rw [if_pos (by simp [← hl])]
      rfl
    | cons y flits =>
      rw [List.length_cons] at hl
      rw [if_neg (by simp [← hl]), ih (by simp) (by simp; omega), List.append_assoc]
      rfl

theorem commandsOf_header (port : BitVec 5) (d : Header) {flits : List Sector} (hl : flits.length = d.flitsDue) :
    commandsOf port none (.header d.toFlit :: flits.map Slot.data) = [d.command port flits] := by
  simp only [commandsOf, ofFlit_toFlit]
  split
  · next h0 =>
    obtain rfl := List.length_eq_zero_iff.mp (hl.trans h0)
    rfl
  · next h0 =>
    exact commandsOf_data port d (got := []) (fun e => h0 (by rw [← hl, e]; rfl)) (by simpa using hl)

end Sys2Proof.Machine

end

section

/-! SUPPORT. Requests of a host port that wait at their arbiter: O19. -/

namespace Sys2Proof.Machine

theorem Hub.rd_wr_page (h : Hub) {p q o a : Nat} (v : Word) (hpq : p ≠ q) (ho : o < 4096) (ha : a < 4096) :
    (h.wr q a v).rd p o = h.rd p o := Hub.rd_wr_ne h v (by omega)

theorem Hub.rd_raise_page (h : Hub) {p q o : Nat} (n : Nat) (hpq : p ≠ q) (ho : o < 4096) : (h.raise q n).rd p o = h.rd p o := by
  rw [Hub.rd_raise, if_neg (by omega)]

theorem Hub.rd_wrFld_page (h : Hub) {p q o a : Nat} (lo n v : Nat) (hpq : p ≠ q) (ho : o < 4096) (ha : a < 4096) :
    (h.wrFld q a lo n v).rd p o = h.rd p o := h.rd_wr_page _ hpq ho ha

theorem Hub.rd_bump_page (h : Hub) {p q o a : Nat} (lo n v : Nat) (hpq : p ≠ q) (ho : o < 4096) (ha : a < 4096) :
    (h.bump q a lo n v).rd p o = h.rd p o := h.rd_wrFld_page _ _ _ hpq ho ha

/-- A sample changes no register outside the PERF page. -/
theorem Hub.rd_pushSample (h : Hub) (i : Nat) (s : Sample) {p o : Nat} (hp : p ≠ pPerf) (ho : o < 4096) :
    (h.pushSample i s).rd p o = h.rd p o := by
  unfold Hub.pushSample
  dsimp only
  split
  · exact h.rd_bump_page _ _ _ hp ho (by decide)
  · split
    · exact Hub.rd_raise_page _ _ hp ho
    · rfl

/-- An event changes no register outside the PERF page. -/
theorem Hub.rd_countOne (h : Hub) (e : PerfEvt) (i : Nat) {p o : Nat} (hp : p ≠ pPerf) (ho : o < 4096) :
    (h.countOne e i).rd p o = h.rd p o := by
  unfold Hub.countOne
  extract_lets sel v ovf v' _ h1 a g1 g2 _ h2 _
  split
  · rfl
  · have e2 : h2.rd p o = h.rd p o := by
      simp only [h2]
      split
      · have ha : a < 4096 := by simp only [a]; split <;> decide
        have e1 : g1.rd p o = h.rd p o := (Hub.rd_raise_page _ _ hp ho).trans (Hub.rd_wr_page _ _ hp ho ha)
        have e2 : g2.rd p o = h.rd p o := by
          simp only [g2]
          split
          · exact (Hub.rd_wrFld_page _ _ _ _ hp ho (by decide)).trans e1
          · exact e1
        split <;> exact e2
      · rfl
    clear_value h2
    split
    · exact (Hub.rd_pushSample _ _ _ hp ho).trans e2
    · exact e2

theorem Hub.rd_countLine (h : Hub) (code amt : Nat) (src : Src) (hd : Header) (idx lat : Nat) {p o : Nat} (hp : p ≠ pPerf)
    (ho : o < 4096) : (h.countLine code amt src hd idx lat).rd p o = h.rd p o := by
  unfold Hub.countLine Hub.count
  split
  · exact foldl_keeps (fun h : Hub => h.rd p o) _ (fun h i => h.rd_countOne _ i hp ho) _ h
  · rfl

/-- What the decode of a request reads (R66, R102): the partitions, the windows, the page tables, the tricks, RED_EN and the node. -/
structure Hub.SameDecode (g h : Hub) : Prop where
  amap : g.amap = h.amap
  pages : g.pages = h.pages
  tricks : g.tricks = h.tricks
  redLo : g.rd pArith 0x44 = h.rd pArith 0x44
  redHi : g.rd pArith 0x48 = h.rd pArith 0x48
  node : g.rd pFarport 0x40 = h.rd pFarport 0x40

theorem Hub.decode_eq {g h : Hub} (e : g.SameDecode h) (src : Src) (hd : Header) : g.decode src hd = h.decode src hd := by
  have hpart q : g.part q = h.part q := by rw [Hub.part, e.amap]; rfl
  have htable q : g.table q = h.table q := by rw [Hub.table, e.pages]; rfl
  have hpeer i : g.peerWin i = h.peerWin i := by rw [Hub.peerWin, e.amap]; rfl
  have hhost i : g.hostWin i = h.hostWin i := by rw [Hub.hostWin, e.amap]; rfl
  have htrick i : g.trick i = h.trick i := by rw [Hub.trick, e.tricks]; rfl
  have hdenied : g.trickDenied src hd = h.trickDenied src hd := by simp only [Hub.trickDenied, htrick]
  have hred : g.rd64 pArith 0x44 = h.rd64 pArith 0x44 := by rw [Hub.rd64, e.redLo, e.redHi]; rfl
  have hnode : g.fld pFarport 0x40 0 10 = h.fld pFarport 0x40 0 10 := by rw [Hub.fld, e.node]; rfl
  simp only [Hub.decode, hpart, htable, hpeer, hhost, hdenied, hred, hnode]

/-- The hub once a request has spent its credits and its line operations have been counted. -/
def Hub.charged (h : Hub) (p : BitVec 5) (hd : Header) (flits : List Sector) : Hub :=
  (List.range hd.lineCount).foldl (fun h i => h.countLine 0x01 1 (.port p) hd i 0)
    ((h.act 0 (1 + flits.length)).spend hd.wrCredit p.toNat hd.lineCount)

/-- A request with its credits and its data flits meets the checks of R66 in turn. -/
theorem Hub.accept_eq {h : Hub} {p : BitVec 5} {hd : Header} {flits : List Sector} (hr : h.inReset = false)
    (hheld : hd.lineCount ≤ (h.port p.toNat).held hd.wrCredit) (hl : flits.length = hd.flitsDue) :
    h.accept p hd flits =
      let g := h.charged p hd flits
      if g.closed then (0, g.answerNow p hd 4)
      else if !legal hd then (0, g.answerNow p hd 5)
      else match g.decode (.port p) hd with
        | .bad code => (0, g.answerNow p hd code)
        | .ok t =>
          let (f, g) := g.frameFor p.toNat hd
          if noBytes hd then (0, ((g.police hd).2.answerNow p hd 0).tidyFrame f) else g.enqueue (.port p) hd flits t f := by
  have hnot : ¬ ((h.act 0 (1 + flits.length)).port p.toNat).held hd.wrCredit < hd.lineCount := Nat.not_lt.mpr hheld
  have hshort : ¬ flits.length < hd.flitsDue := by omega
  rw [Hub.accept]
  dsimp only
  rw [if_neg (by simp [hr]), if_neg hnot, if_neg hshort]
  rfl

/-- What the counting of a line operation leaves is as the spending of the credits left it. -/
theorem Hub.charged_keeps {β : Type} (F : Hub → β) {h : Hub} {p : BitVec 5} {hd : Header} {flits : List Sector}
    (H : ∀ h i, F (h.countLine 0x01 1 (.port p) hd i 0) = F h) :
    F (h.charged p hd flits) = F ((h.act 0 (1 + flits.length)).spend hd.wrCredit p.toNat hd.lineCount) :=
  foldl_keeps F _ H _ _

theorem Hub.charged_fields (h : Hub) (p : BitVec 5) (hd : Header) (flits : List Sector) :
    (h.charged p hd flits).now = h.now ∧ (h.charged p hd flits).lines = h.lines ∧ (h.charged p hd flits).closed = h.closed := by
  refine ⟨?_, ?_, ?_⟩
  · rw [Hub.charged_keeps Hub.now fun h i => by simp]; simp
  · rw [Hub.charged_keeps Hub.lines fun h i => by simp]; simp
  · rw [Hub.charged_keeps Hub.closed fun h i => by simp [Hub.closed]]; simp [Hub.closed]; rfl

theorem Hub.charged_sameDecode (h : Hub) (p : BitVec 5) (hd : Header) (flits : List Sector) : (h.charged p hd flits).SameDecode h := by
  have word {q o : Nat} (hq : q ≠ pPerf) (ho : o < 4096) : (h.charged p hd flits).rd q o = h.rd q o :=
    (Hub.charged_keeps (fun h : Hub => h.rd q o) fun h i => h.rd_countLine _ _ _ _ _ _ hq ho).trans (Hub.rd_of_regs (by simp) q o)
  refine ⟨?_, ?_, ?_, word (by decide) (by decide), word (by decide) (by decide), word (by decide) (by decide)⟩
  · rw [Hub.charged_keeps Hub.amap fun h i => by simp]; simp
  · rw [Hub.charged_keeps Hub.pages fun h i => by simp]; simp
  · rw [Hub.charged_keeps Hub.tricks fun h i => by simp]; simp

@[simp] theorem Hub.protoError_lines (h : Hub) (p kind tag : Nat) :
    (h.protoError p kind tag).lines = h.lines ∧ (h.protoError p kind tag).now = h.now := by
  unfold Hub.protoError
  dsimp only
  split <;> simp

@[simp] theorem Hub.newFrame_lines (h : Hub) (bytes left : Nat) :
    (h.newFrame bytes left).2.lines.reqs = h.lines.reqs ∧ (h.newFrame bytes left).2.now = h.now := ⟨rfl, rfl⟩

@[simp] theorem Hub.putOpenFrame_lines (h : Hub) (p c n : Nat) :
    (h.putOpenFrame p c n).lines = h.lines ∧ (h.putOpenFrame p c n).now = h.now := ⟨rfl, rfl⟩

@[simp] theorem Hub.tidyFrame_lines (h : Hub) (n : Nat) : (h.tidyFrame n).lines = h.lines ∧ (h.tidyFrame n).now = h.now := by
  unfold Hub.tidyFrame
  split <;> simp

/-- A request's frame leaves the requests that wait. -/
theorem Hub.frameFor_reqs (h : Hub) (p : Nat) (hd : Header) :
    (h.frameFor p hd).2.lines.reqs = h.lines.reqs ∧ (h.frameFor p hd).2.now = h.now := by
  unfold Hub.frameFor
  extract_lets c n f close bytes joined
  have hclose (h : Hub) : (close h).lines = h.lines ∧ (close h).now = h.now := by
    simp only [close]
    split <;> simp
  have hjoined : joined.lines = h.lines ∧ joined.now = h.now := by simp [joined]
  clear_value close joined
  split
  · dsimp only
    split <;> simp [hclose]
  · split
    · dsimp only
      split <;> simp [hjoined]
    · simp [hclose]

/-- A request that passes its checks waits for its arbiter's choice. -/
theorem Hub.enqueue_reqs (h : Hub) (p : BitVec 5) (hd : Header) (flits : List Sector) (t : Target) (frame : Nat) :
    ∃ id scav, (h.enqueue (.port p) hd flits t frame).2.lines.reqs =
      h.lines.reqs ++ [⟨id, .port p, hd, flits, h.now, hd.lineCount, t, .arbiter, [], scav, frame, 0⟩] := ⟨_, _, rfl⟩

theorem Hub.accept_waits {h : Hub} {p : BitVec 5} {hd : Header} {flits : List Sector} {tgt : Target} (hr : h.inReset = false)
    (hheld : hd.lineCount ≤ (h.port p.toNat).held hd.wrCredit) (hl : flits.length = hd.flitsDue) (hopen : h.closed = false)
    (hlegal : legal hd = true) (hdecode : h.decode (.port p) hd = .ok tgt) (hbytes : noBytes hd = false) :
    ∃ r, (h.accept p hd flits).2.lines.reqs = h.lines.reqs ++ [r] ∧ r.src = .port p ∧ r.hdr = hd ∧ r.flits = flits ∧
      r.phase = .arbiter ∧ r.target = tgt ∧ r.lines = hd.lineCount ∧ r.accepted = h.now ∧ r.answered = [] ∧
      (h.accept p hd flits).2.mem = h.mem := by
  have hmem : (h.accept p hd flits).2.mem = h.mem := by simp
  obtain ⟨hnow, hlines, hclosed⟩ := h.charged_fields p hd flits
  have hdec := (Hub.decode_eq (h.charged_sameDecode p hd flits) (.port p) hd).trans hdecode
  have he : h.accept p hd flits =
      let (f, g) := (h.charged p hd flits).frameFor p.toNat hd; g.enqueue (.port p) hd flits tgt f := by
    rw [Hub.accept_eq hr hheld hl]
    simp only [hclosed, hopen, hlegal, hdec, hbytes, Bool.false_eq_true, Bool.not_true, if_false]
  obtain ⟨hreqs, hnow'⟩ := (h.charged p hd flits).frameFor_reqs p.toNat hd
  obtain ⟨id, scav, hq⟩ := ((h.charged p hd flits).frameFor p.toNat hd).2.enqueue_reqs p hd flits tgt
    ((h.charged p hd flits).frameFor p.toNat hd).1
  rw [hreqs, hlines, hnow', hnow] at hq
  exact ⟨_, by rw [he]; exact hq, rfl, rfl, rfl, rfl, rfl, rfl, rfl, rfl, hmem⟩

/-- Settles O19. -/
theorem portRequestsQueue : Obligations.PortRequestsQueue := by
  unfold Obligations.PortRequestsQueue
  refine ⟨ofFlit_toFlit, fun port d flits hl => commandsOf_header port d hl, fun s port hd tgt ho hr hheld hopen hlegal hdec => ?_,
    fun s port hd flits tgt ho hr hheld hl hopen hlegal hdec hb => ?_,
    fun s port hd flits tgt ho hr hheld hl hopen hlegal hdec hb => ?_⟩
  · have hw : (Instr.read port hd).wf = true := by simp [Instr.wf, wfRead, ho]
    have hwr : hd.wrCredit = false := by simp [Header.wrCredit, ho]
    refine ⟨_, onHubIf_next.mpr ⟨hw, rfl⟩, Hub.accept_waits hr (hwr ▸ hheld) ?_ hopen hlegal hdec ?_⟩
    · simp [Header.flitsDue, ho]
    · simp [noBytes, ho]
  · have hw : (Instr.write port hd flits).wf = true := by simp [Instr.wf, wfData, wfOp, ho, hl]
    have hwr : hd.wrCredit = true := by simp [Header.wrCredit, ho]
    exact ⟨_, onHubIf_next.mpr ⟨hw, rfl⟩, Hub.accept_waits hr (hwr ▸ hheld) hl hopen hlegal hdec hb⟩
  · have hw : (Instr.reduce port hd flits).wf = true := by simp [Instr.wf, wfData, wfOp, ho, hl]
    have hwr : hd.wrCredit = true := by simp [Header.wrCredit, ho]
    exact ⟨_, onHubIf_next.mpr ⟨hw, rfl⟩, Hub.accept_waits hr (hwr ▸ hheld) hl hopen hlegal hdec hb⟩

end Sys2Proof.Machine

end

section

/-! SUPPORT. Power-on and warm reset: O9. -/

namespace Sys2Proof.Machine

theorem SMap.get_filter {α : Type} (d : Nat → α) (q : Nat → Bool) (m : SMap α) (a : Nat) :
    SMap.get d (m.filter fun e => q e.1) a = if q a then SMap.get d m a else d a := by
  induction m with
  | nil => simp [SMap.get]
  | cons e m ih =>
    obtain ⟨i, v⟩ := e
    rw [List.filter_cons]
    by_cases hi : i = a
    · subst hi
      by_cases hq : q i = true
      · simp [hq, SMap.get]
      · simpa [hq] using ih
    · split
      · simp [SMap.get, hi, ih]
      · simp [SMap.get, hi, ih]

/-! Entries committed at a reset (R461, R467) -/

/-- A committed entry changes no register but the journal's interrupt causes. -/
theorem Hub.rd_writeEntry (h : Hub) (e : JEntry) {p o : Nat} (hn : 4096 * p + o ≠ 4096 * pJournal + 0x10) :
    (h.writeEntry e).rd p o = h.rd p o := by
  unfold Hub.writeEntry
  extract_lets n b h1 recent crit _ g
  have hg : g.rd p o = h.rd p o := Hub.rd_of_regs (by simp [g, h1]) p o
  split
  · rw [Hub.rd_raise, if_neg hn, hg]
  · exact hg

theorem Hub.rd_journalAtReset (h : Hub) {p o : Nat} (hn : 4096 * p + o ≠ 4096 * pJournal + 0x10) :
    h.journalAtReset.rd p o = h.rd p o := by
  refine foldl_keeps (fun h : Hub => h.rd p o) _ (fun h e => ?_) _ h
  split
  · exact h.rd_writeEntry e hn
  · rfl

theorem Hub.get_warmRegs (h : Hub) (a : Nat) : SMap.get regReset h.warmRegs a =
    if a = 4096 * pTherm + 0x44 then h.rd pTherm 0x44 &&& 2
    else if a = 0x08 then putBit 0 31 (bit (h.rd pHub 0x08) 31)
    else if keptByWarm a then SMap.get regReset h.regs a else regReset a := by
  rw [Hub.warmRegs, SMap.get_set, SMap.get_set, SMap.get_filter]

theorem Hub.warnOn_boot (h : Hub) : h.warnOn.boot = h.boot ∧ h.warnOn.pins = { h.pins with supplyWarn := true } := by
  unfold Hub.warnOn
  dsimp only
  split <;> simp

/-- A release of the last reset: S0 may begin, at once (R85, R86). -/
theorem Hub.leaveReset_starts (h : Hub) : h.leaveReset.boot = { h.boot with released := h.now, go := true } ∧ h.leaveReset.mem = h.mem ∧
    h.leaveReset.pins = { h.pins with pdNak := h.pins.pdReq &&& 0x00FF, pdAck := h.pins.pdReq &&& 0xFF00 } := by
  unfold Hub.leaveReset
  dsimp only
  split
  · next hw =>
    simp at hw
    simp [Hub.warnOn_boot, hw]
  · simp


/-- The words after a warm reset (R416, R443). -/
theorem Hub.rd_warmReset {h : Hub} (hr : h.inReset = false) (p o : Nat) : h.warmReset.rd p o =
    if 4096 * p + o = 4096 * pTherm + 0x44 then h.rd pTherm 0x44 &&& 2
    else if 4096 * p + o = 0x08 then putBit 0 31 (bit (h.rd pHub 0x08) 31)
    else if keptByWarm (4096 * p + o) then h.rd p o else regReset (4096 * p + o) := by
  have hkept : keptByWarm (4096 * pJournal + 0x10) = false := by decide
  have hread : h.warmReset.rd p o = SMap.get regReset h.journalAtReset.warmRegs (4096 * p + o) := by
    rw [Hub.warmReset, if_neg (by simpa [Hub.inReset] using hr)]
    rfl
  rw [hread, Hub.get_warmRegs, h.rd_journalAtReset (by decide), h.rd_journalAtReset (by decide)]
  refine ite_congr rfl (fun _ => rfl) fun _ => ite_congr rfl (fun _ => rfl) fun _ => ite_congr rfl (fun hk => ?_) fun _ => rfl
  exact h.rd_journalAtReset fun e => by rw [e, hkept] at hk; cases hk

theorem Hub.warmReset_clears {h : Hub} (hr : h.inReset = false) :
    h.warmReset.pins.wrst = true ∧ h.warmReset.boot.cold = false ∧ h.warmReset.lines.reqs = [] ∧ h.warmReset.mem = h.mem := by
  have hmem : h.warmReset.mem = h.mem := by simp
  refine ⟨?_, ?_, ?_, hmem⟩
  all_goals rw [Hub.warmReset, if_neg (by simpa [Hub.inReset] using hr)]; rfl

/-- Settles O9. -/
theorem resets : Obligations.Resets := by
  unfold Obligations.Resets
  refine ⟨⟨fun s => ⟨_, rfl, rfl, rfl, rfl, rfl, rfl, s.hub.journalAtReset_writes.1, fun p o => rfl⟩,
      fun s bootSeq fastOk fit hp hw => ⟨_, rfl, ?_⟩, fun s bootSeq fastOk fit hp hw => ?_⟩,
    fun s hr => ⟨_, rfl, ?_⟩, fun s bootSeq fastOk hw hp => ⟨_, rfl, ?_⟩⟩
  · simp [hp, hw, Hub.leaveReset_starts]
  · exact becomes_onHub (f := fun h => _) (by simp [hp, hw])
  · obtain ⟨hwrst, hcold, hreqs, hmem⟩ := Hub.warmReset_clears hr
    exact ⟨hwrst, hcold, hreqs, hmem, Hub.rd_warmReset hr⟩
  · simp [hp, hw, Hub.leaveReset_starts]

end Sys2Proof.Machine

end

section

/-! SUPPORT. The stacks' bytes: which commands leave them as they were, and what is read where a code word was stored: O57, O58. -/

namespace Sys2Proof.Machine

/-! Commands that store nothing in the stacks -/

theorem exec_keepsMem {i : Instr} {s t : State} (hi : i.writesStacks = false) (e : exec i s = .next t) : t.hub.mem = s.hub.mem := by
  cases exec_runs i s with
  | hub f hf keeps => rw [hf, onHubIf_next] at e; obtain ⟨-, rfl⟩ := e; exact keeps.1
  | stack st f _ _ hf keeps => rw [hf, onStack_next] at e; obtain ⟨-, rfl⟩ := e; exact keeps.1
  | writer f _ hw => exact absurd (hi.symm.trans hw) (by decide)
  | powerOn hassert => subst hassert; cases e; exact s.hub.journalAtReset_writes.1
  | commit readBack hcommit => subst hcommit; cases e; exact (s.hub.writerTurn_writes readBack).1
  | opEnd page r hend => subst hend; cases hi

/-- Settles O57: each command that is none of the four writers of the stacks leaves the map of their bytes itself as it was. -/
theorem otherCommandsKeepTheStacks : Obligations.OtherCommandsKeepTheStacks := by
  unfold Obligations.OtherCommandsKeepTheStacks
  intro i s t hi e k
  rw [Hub.memByte, Hub.memByte, exec_keepsMem hi e]

/-! Numbers as little-endian bytes -/

theorem length_leBytes (n v : Nat) : (leBytes n v).length = n := by
  induction n generalizing v with
  | zero => rfl
  | succ n ih => exact congrArg (· + 1) (ih (v / 256))

theorem leNat_leBytes (n v : Nat) : leNat (leBytes n v) = v % 2 ^ (8 * n) := by
  induction n generalizing v with
  | zero => simp [leBytes, leNat, Nat.mod_one]
  | succ n ih => rw [leBytes, leNat, ih, Nat.mul_succ, Nat.add_comm (8 * n), Nat.pow_add, Nat.mod_mul, BitVec.toNat_ofNat]

/-! Bytes written one after the other -/

/-- The bytes of a list written from an address on. -/
def SMap.putRun : SMap Byte → Nat → List Byte → SMap Byte
  | m, _, [] => m
  | m, a, b :: l => SMap.putRun (SMap.set (fun _ => 0) m a b) (a + 1) l

theorem SMap.foldl_zipIdx_set_from (l : List Byte) (m : SMap Byte) (base n : Nat) :
    (l.zipIdx n).foldl (fun m b => SMap.set (fun _ => 0) m (base + b.2) b.1) m = SMap.putRun m (base + n) l := by
  induction l generalizing m n with
  | nil => rfl
  | cons b l ih => exact ih _ (n + 1)

theorem SMap.foldl_zipIdx_set (l : List Byte) (m : SMap Byte) (base : Nat) :
    l.zipIdx.foldl (fun m b => SMap.set (fun _ => 0) m (base + b.2) b.1) m = SMap.putRun m base l :=
  SMap.foldl_zipIdx_set_from l m base 0

theorem SMap.get_putRun_outside (l : List Byte) (m : SMap Byte) {base a : Nat} (h : ∀ i < l.length, a ≠ base + i) :
    SMap.get (fun _ => 0) (SMap.putRun m base l) a = SMap.get (fun _ => 0) m a := by
  induction l generalizing m base with
  | nil => rfl
  | cons b l ih =>
    have hfirst : a ≠ base := h 0 (Nat.succ_pos _)
    have hrest : ∀ i < l.length, a ≠ base + 1 + i := fun i hi => by
      have := h (i + 1) (Nat.succ_lt_succ hi)
      omega
    rw [SMap.putRun, ih _ hrest, SMap.get_set_other _ _ _ hfirst]

theorem SMap.get_putRun_inside (l : List Byte) (m : SMap Byte) (base : Nat) {i : Nat} (hi : i < l.length) :
    SMap.get (fun _ => 0) (SMap.putRun m base l) (base + i) = l[i] := by
  induction l generalizing m base i with
  | nil => cases hi
  | cons b l ih =>
    rw [SMap.putRun]
    cases i with
    | zero =>
      rw [SMap.get_putRun_outside _ _ (fun i _ => by omega)]
      exact SMap.get_set_same ..
    | succ i =>
      rw [show base + (i + 1) = base + 1 + i by omega]
      exact ih _ _ (Nat.lt_of_succ_lt_succ hi)

/-! Code words in the stacks (R107, R118, R326) -/

/-- Place of the first byte of a sector's code word. -/
def sectorBase (ps off sector : Nat) : Nat :=
  ((((ps * 4 + bgOf off) * 4 + bankOf off) * 65536 + rowOf off) * 16 + sectorCol off sector) * 128

theorem memKey_eq (ps off sector i : Nat) : memKey ps off sector i = sectorBase ps off sector + i := by
  rw [memKey, sectorBase]

theorem Hub.putCode_mem (h : Hub) (ps off sector : Nat) (w : Code) :
    (h.putCode ps off sector w).mem = SMap.putRun h.mem (sectorBase ps off sector) (leBytes 72 w.toNat) := by
  simp only [Hub.putCode, memKey_eq, SMap.foldl_zipIdx_set]

theorem Hub.memByte_putCode_same (h : Hub) (ps off sector : Nat) (w : Code) {i : Nat} (hi : i < (leBytes 72 w.toNat).length) :
    (h.putCode ps off sector w).memByte (memKey ps off sector i) = (leBytes 72 w.toNat)[i] := by
  rw [Hub.memByte, Hub.putCode_mem, memKey_eq, SMap.get_putRun_inside _ _ _ hi]

theorem Hub.memByte_putCode_other (h : Hub) (ps off sector : Nat) (w : Code) {a : Nat}
    (ha : ∀ j, j < 72 → a ≠ memKey ps off sector j) : (h.putCode ps off sector w).memByte a = h.memByte a := by
  have hout : ∀ i < (leBytes 72 w.toNat).length, a ≠ sectorBase ps off sector + i := fun i hi => by
    rw [← memKey_eq]
    exact ha i (by rwa [length_leBytes] at hi)
  rw [Hub.memByte, Hub.putCode_mem, SMap.get_putRun_outside _ _ hout, Hub.memByte]

theorem Hub.memCode_putCode_same (h : Hub) (ps off sector : Nat) (w : Code) :
    (h.putCode ps off sector w).memCode ps off sector = w := by
  have hbytes : (List.range 72).map (fun i => (h.putCode ps off sector w).memByte (memKey ps off sector i)) = leBytes 72 w.toNat := by
    apply List.ext_getElem
    · simp [length_leBytes]
    · intro i _ hi
      rw [List.getElem_map, List.getElem_range, h.memByte_putCode_same _ _ _ _ hi]
  have hw : w.toNat < 2 ^ (8 * 72) := lt_of_lt_of_eq w.isLt (congrArg (2 ^ ·) (by decide))
  rw [Hub.memCode, hbytes, leNat_leBytes, Nat.mod_eq_of_lt hw, BitVec.ofNat_toNat, BitVec.setWidth_eq]

/-- A code word reads alike where its bytes do. -/
theorem Hub.memCode_congr {g h : Hub} {ps off sector : Nat}
    (e : ∀ i < 72, g.memByte (memKey ps off sector i) = h.memByte (memKey ps off sector i)) :
    g.memCode ps off sector = h.memCode ps off sector := by
  rw [Hub.memCode, Hub.memCode, List.map_congr_left fun i hi => e i (List.mem_range.mp hi)]

/-- Row, bank group, bank and column name an offset: R118's permutation of banks by rows loses nothing. -/
theorem offset_of_place {a b : Nat} (hbg : bgOf a = bgOf b) (hbank : bankOf a = bankOf b) (hrow : rowOf a = rowOf b)
    (hcol : a % 4 = b % 4) : a = b := by
  unfold bgOf at hbg
  unfold bankOf at hbank
  rw [hrow] at hbg hbank
  have hg : a / 4 % 4 = b / 4 % 4 := Nat.xor_left_injective hbg
  have hb : a / 16 % 4 = b / 16 % 4 := Nat.xor_left_injective hbank
  unfold rowOf at hrow
  omega

theorem bgOf_lt (a : Nat) : bgOf a < 4 := Nat.xor_lt_two_pow (n := 2) (Nat.mod_lt _ (by decide)) (Nat.mod_lt _ (by decide))
theorem bankOf_lt (a : Nat) : bankOf a < 4 := Nat.xor_lt_two_pow (n := 2) (Nat.mod_lt _ (by decide)) (Nat.mod_lt _ (by decide))

/-- Two sectors of the stacks share no byte. -/
theorem sector_of_memKey {ps off sector i ps' off' sector' i' : Nat} (hs : sector < 4) (hs' : sector' < 4) (ho : off < 4194304)
    (ho' : off' < 4194304) (hi : i < 128) (hi' : i' < 128) (e : memKey ps' off' sector' i' = memKey ps off sector i) :
    (ps', off', sector') = (ps, off, sector) := by
  have hrow : rowOf off < 65536 := Nat.div_lt_of_lt_mul ho
  have hrow' : rowOf off' < 65536 := Nat.div_lt_of_lt_mul ho'
  have hbg := bgOf_lt off
  have hbg' := bgOf_lt off'
  have hbank := bankOf_lt off
  have hbank' := bankOf_lt off'
  simp only [memKey, sectorCol, colOf] at e
  have hoff : off' = off := offset_of_place (by omega) (by omega) (by omega) (by omega)
  have hps : ps' = ps := by omega
  have hsector : sector' = sector := by omega
  rw [hps, hoff, hsector]

/-- Settles O58. -/
theorem storedSectorsReadBack : Obligations.StoredSectorsReadBack := by
  unfold Obligations.StoredSectorsReadBack
  intro h ps off sector w
  refine ⟨h.memCode_putCode_same ps off sector w, fun a ha => h.memByte_putCode_other ps off sector w ha,
    fun ps' off' sector' hs hs' ho ho' hne => Hub.memCode_congr fun i hi => ?_⟩
  have hfar : ∀ j, j < 72 → memKey ps' off' sector' i ≠ memKey ps off sector j := fun j hj e =>
    hne (sector_of_memKey hs hs' ho ho' (by omega) (by omega) e)
  exact h.memByte_putCode_other ps off sector w hfar

end Sys2Proof.Machine

end

section

/-! SUPPORT. The end of a long operation (R482), and what takes effect then: O56. -/

namespace Sys2Proof.Machine

/-! What LONG_OP_END does (R482) -/

theorem exec_longOpEnd_eq (page : BitVec 12) (r : OpEnd) (s : State) : exec (.longOpEnd page r) s = execLongOpEnd page r s := rfl

/-- An operation of another page than SEC, that waits for nothing else, ends once the journal has room for its entry. -/
theorem exec_longOpEnd {s : State} {page : BitVec 12} {o : LongOp} (r : OpEnd) (hr : s.hub.inReset = false)
    (ho : s.hub.opOf page.toNat = some o) (hw : o.waits = false) (hp : page.toNat ≠ pSec) :
    exec (.longOpEnd page r) s = onHub s fun h => h.withRoom fun h => h.opEnd page.toNat o r := by
  rw [exec_longOpEnd_eq, execLongOpEnd, ho]
  simp [hr, hw, hp]

/-- An end that leaves no journal entry, or finds room for it, takes its effect. -/
theorem becomes_opEnd {s : State} {page : BitVec 12} {n : Nat} {o : LongOp} {r : OpEnd} {g : Hub} (hr : s.hub.inReset = false)
    (ho : s.hub.opOf n = some o) (hn : page.toNat = n) (hp : n ≠ pSec) (hw : o.waits = false) (he : s.hub.opEnd n o r = g)
    (hroom : s.hub.journalFull = false ∨ g.journal = s.hub.journal) : Becomes (exec (.longOpEnd page r) s) s g := by
  subst hn
  rw [exec_longOpEnd r hr ho hw hp]
  refine becomes_onHub ?_
  rcases hroom with hfree | hsame
  · rw [Hub.withRoom_free _ hfree, he]
  · simp [Hub.withRoom, he, hsame]

theorem ends_opEnd {s : State} {page : BitVec 12} {n : Nat} {o : LongOp} {r : OpEnd} {g : Hub} {P : State → Prop}
    (hr : s.hub.inReset = false) (ho : s.hub.opOf n = some o) (hn : page.toNat = n) (hp : n ≠ pSec) (hw : o.waits = false)
    (he : s.hub.opEnd n o r = g) (hroom : s.hub.journalFull = false ∨ g.journal = s.hub.journal) (hP : P { s with hub := g }) :
    Ends (exec (.longOpEnd page r) s) P :=
  ⟨_, becomes_opEnd hr ho hn hp hw he hroom, hP⟩

theorem exec_longOpEnd_sec {s : State} {o : LongOp} (r : OpEnd) (hr : s.hub.inReset = false) (ho : s.hub.opOf pSec = some o)
    (hw : o.waits = false) : exec (.longOpEnd 2 r) s = .next (secOpEnd s o r) := by
  have ho' : s.hub.opOf (2 : BitVec 12).toNat = some o := ho
  rw [exec_longOpEnd_eq, execLongOpEnd, ho']
  simp [hr, hw, pSec]

/-! Words of the register file -/

theorem bit_putBits_one {w : Nat} (x : BitVec w) {i : Nat} (b : Bool) (hi : i < w) : bit (putBits x i 1 b.toNat) i = b :=
  bit_putBit_same x b hi

theorem bit_putBits_below {w : Nat} (x : BitVec w) {lo n v i : Nat} (hi : i < lo) : bit (putBits x lo n v) i = bit x i := by
  have hout (k : Nat) : (BitVec.ofNat w (k <<< lo)).getLsbD i = false := by
    rw [BitVec.getLsbD_ofNat, Nat.testBit_shiftLeft]; simp [Nat.not_le.mpr hi]
  have hx : x.getLsbD i = true → i < w := BitVec.lt_of_getLsbD
  simp only [bit, putBits, BitVec.getLsbD_or, BitVec.getLsbD_and, BitVec.getLsbD_not, hout]
  simpa using hx

@[simp] theorem Hub.rd_putLongOp (h : Hub) (page : Nat) (o : Option LongOp) (p off : Nat) :
    (h.putLongOp page o).rd p off = h.rd p off := rfl

theorem Hub.rd64_wr64 (h : Hub) (p o : Nat) (v : BitVec 64) : (h.wr64 p o v.toNat).rd64 p o = v.toNat := by
  have hv := v.isLt
  rw [Hub.rd64, Hub.wr64, Hub.rd_wr_same, Hub.rd_wr_ne _ _ (by omega), Hub.rd_wr_same, BitVec.toNat_ofNat, BitVec.toNat_ofNat]
  omega

/-! What the end of an operation shows (R482) -/

theorem Hub.opOf_of_ops {g h : Hub} (e : g.ops = h.ops) (page : Nat) : g.opOf page = h.opOf page := by rw [Hub.opOf, Hub.opOf, e]

theorem Hub.endOp_eq {h : Hub} {page : Nat} {o : LongOp} {c : PageClass} (code : Nat) (ho : h.opOf page = some o)
    (hc : pageClass page = some c) : h.endOp page code =
      (((h.wr page (opResultOf c).1 (BitVec.ofNat 32 (code + 256 * o.opcode + 65536 * (o.index % 2 ^ (opResultOf c).2)))).putLongOp page
        none).wrFld page 0x0C 2 1 (if code = 0 then 0 else 1)).raise page 0 := by
  rw [Hub.endOp, ho, hc]

/-- An operation's end changes OP_RESULT, FAULT and OP_DONE, and no other register of its page. -/
theorem Hub.rd_endOp_other {g h : Hub} {page : Nat} {o : LongOp} {c : PageClass} (code : Nat) {off : Nat} (e : g.ops = h.ops)
    (ho : h.opOf page = some o) (hc : pageClass page = some c) (hresult : off ≠ (opResultOf c).1) (hstatus : off ≠ 0x0C)
    (hirq : off ≠ 0x10) : (g.endOp page code).rd page off = g.rd page off := by
  rw [Hub.endOp_eq code ((Hub.opOf_of_ops e page).trans ho) hc, Hub.rd_raise, if_neg (by omega), Hub.rd_wrFld, if_neg (by omega),
    Hub.rd_putLongOp, Hub.rd_wr_ne _ _ (by omega)]

theorem Hub.rd64_endOp_other {g h : Hub} {page : Nat} {o : LongOp} {c : PageClass} (code : Nat) {off : Nat} (e : g.ops = h.ops)
    (ho : h.opOf page = some o) (hc : pageClass page = some c) (hfar : 0x14 ≤ off)
    (hresult : off ≠ (opResultOf c).1 ∧ off + 4 ≠ (opResultOf c).1) : (g.endOp page code).rd64 page off = g.rd64 page off := by
  rw [Hub.rd64, Hub.rd64, Hub.rd_endOp_other code e ho hc hresult.1 (by omega) (by omega),
    Hub.rd_endOp_other code e ho hc hresult.2 (by omega) (by omega)]

theorem opResultOf_beyond_header {c : PageClass} (h : (opResultOf c).1 ≠ 0) : 0x40 ≤ (opResultOf c).1 := by
  cases c <;> simp [opResultOf] at h ⊢

/-- What R482 states of the end of every operation. -/
theorem Hub.endOp_shows {h : Hub} {page : Nat} {o : LongOp} {c : PageClass} (code : Nat) (ho : h.opOf page = some o)
    (hc : pageClass page = some c) (hres : (opResultOf c).1 ≠ 0) : (h.endOp page code).opOf page = none ∧
      (h.endOp page code).rd page (opResultOf c).1 = BitVec.ofNat 32 (code + 256 * o.opcode + 65536 * (o.index % 2 ^ (opResultOf c).2)) ∧
      bit ((h.endOp page code).rd page 0x0C) 2 = decide (code ≠ 0) ∧ bit ((h.endOp page code).rd page 0x10) 0 = true ∧
      (h.endOp page code).mem = h.mem := by
  have hfar := opResultOf_beyond_header hres
  have hfault : (if code = 0 then 0 else 1) = (decide (code ≠ 0)).toNat := by by_cases h0 : code = 0 <;> simp [h0]
  refine ⟨h.endOp_opOf page code o c ho hc, ?_, ?_, ?_, by simp⟩
  · rw [Hub.endOp_eq code ho hc, Hub.rd_raise, if_neg (by omega), Hub.rd_wrFld, if_neg (by omega), Hub.rd_putLongOp, Hub.rd_wr_same]
  · rw [Hub.endOp_eq code ho hc, Hub.rd_raise, if_neg (by omega), Hub.rd_wrFld, if_pos rfl, hfault, bit_putBits_one _ _ (by decide)]
  · rw [Hub.endOp_eq code ho hc, Hub.rd_raise, if_pos rfl, bit_putBit_same _ _ (by decide)]

/-- An operation's end leaves none in progress, whatever the effect before it, if that kept the operations. -/
theorem Hub.opOf_endOp {g h : Hub} {page : Nat} {o : LongOp} {c : PageClass} (code : Nat) (e : g.ops = h.ops)
    (ho : h.opOf page = some o) (hc : pageClass page = some c) : (g.endOp page code).opOf page = none :=
  g.endOp_opOf page code o c ((Hub.opOf_of_ops e page).trans ho) hc

@[simp] theorem Hub.part_endOp (h : Hub) (page code q : Nat) : (h.endOp page code).part q = h.part q := by simp [Hub.part]
@[simp] theorem Hub.keySlot_endOp (h : Hub) (page code q : Nat) : (h.endOp page code).keySlot q = h.keySlot q := by simp [Hub.keySlot]
@[simp] theorem Hub.peerWin_endOp (h : Hub) (page code q : Nat) : (h.endOp page code).peerWin q = h.peerWin q := by simp [Hub.peerWin]
@[simp] theorem Hub.hostWin_endOp (h : Hub) (page code q : Nat) : (h.endOp page code).hostWin q = h.hostWin q := by simp [Hub.hostWin]
@[simp] theorem Hub.table_endOp (h : Hub) (page code q : Nat) : (h.endOp page code).table q = h.table q := by simp [Hub.table]
@[simp] theorem Hub.gate_endOp (h : Hub) (page code q : Nat) : (h.endOp page code).gate q = h.gate q := by simp [Hub.gate]

/-! The operation that ends, by its page and opcode -/

theorem Hub.opEnd_partEnable (h : Hub) (c i : Nat) (w : Bool) (r : OpEnd) : h.opEnd pPart ⟨1, c, i, w⟩ r = h.partEnableEnd i := rfl
theorem Hub.opEnd_setPw (h : Hub) (c i : Nat) (w : Bool) (r : OpEnd) : h.opEnd pPart ⟨2, c, i, w⟩ r = h.setPwEnd i := rfl
theorem Hub.opEnd_setHw (h : Hub) (c i : Nat) (w : Bool) (r : OpEnd) : h.opEnd pPart ⟨3, c, i, w⟩ r = h.setHwEnd i := rfl
theorem Hub.opEnd_kwApply (h : Hub) (c i : Nat) (w : Bool) (r : OpEnd) :
    h.opEnd pCache ⟨1, c, i, w⟩ r = h.kwEnd ⟨1, c, i, w⟩ r.errs := rfl
theorem Hub.opEnd_kittyFill (h : Hub) (c i : Nat) (w : Bool) (r : OpEnd) :
    h.opEnd pCache ⟨2, c, i, w⟩ r = h.kittyFillEnd ⟨2, c, i, w⟩ := rfl
theorem Hub.opEnd_flush (h : Hub) (c i : Nat) (w : Bool) (r : OpEnd) :
    h.opEnd pCache ⟨3, c, i, w⟩ r = h.flushEnd ⟨3, c, i, w⟩ r.errs := rfl
theorem Hub.opEnd_setWays (h : Hub) (c i : Nat) (w : Bool) (r : OpEnd) :
    h.opEnd pCache ⟨4, c, i, w⟩ r = h.setWaysEnd ⟨4, c, i, w⟩ r.errs := rfl
theorem Hub.opEnd_forceFree (h : Hub) (o : LongOp) (r : OpEnd) : h.opEnd pTrick o r = h.forceFreeEnd o.index := rfl
theorem Hub.opEnd_tableBuild (h : Hub) (c i : Nat) (w : Bool) (r : OpEnd) : h.opEnd pPagemgr ⟨1, c, i, w⟩ r = h.tableBuildEnd i := rfl
theorem Hub.opEnd_tableFree (h : Hub) (c i : Nat) (w : Bool) (r : OpEnd) : h.opEnd pPagemgr ⟨2, c, i, w⟩ r = h.tableFreeEnd i := rfl
theorem Hub.opEnd_xlate (h : Hub) (c i : Nat) (w : Bool) (r : OpEnd) : h.opEnd pPagemgr ⟨3, c, i, w⟩ r = h.xlateEnd i := rfl
theorem Hub.opEnd_deal (h : Hub) (c i : Nat) (w : Bool) (r : OpEnd) : h.opEnd pGate ⟨1, c, i, w⟩ r = h.dealEnd := rfl
theorem Hub.opEnd_stop (h : Hub) (c i : Nat) (w : Bool) (r : OpEnd) : h.opEnd pGate ⟨2, c, i, w⟩ r = h.stopEnd := rfl
theorem Hub.opEnd_cancel (h : Hub) (c i : Nat) (w : Bool) (r : OpEnd) : h.opEnd pGate ⟨3, c, i, w⟩ r = h.cancelEnd := rfl
theorem Hub.opEnd_readmit (h : Hub) (i : Nat) (w : Bool) (r : OpEnd) : h.opEnd pRas ⟨1, 0, i, w⟩ r = h.readmitEnd i r := rfl
theorem Hub.opEnd_dumpStart (h : Hub) (c i : Nat) (w : Bool) (r : OpEnd) : h.opEnd pPerf ⟨1, c, i, w⟩ r = h.dumpStartEnd := rfl

/-- A page whose operations all take effect at GO: their end shows the outcome and does nothing else. -/
theorem Hub.opEnd_shows_code {h : Hub} {page : Nat} {o : LongOp} {r : OpEnd}
    (hc : pageClass page = some .stk ∨ pageClass page = some .dma ∨ pageClass page = some .journal) :
    h.opEnd page o r = h.endOp page o.code := by
  rcases hc with hc | hc | hc <;> rw [Hub.opEnd, hc]

/-! The PART page: PART_ENABLE, SET_PW and SET_HW (R103, R123, R366) -/

theorem Hub.draw_keeps (h : Hub) (reseed : Bool) : (h.draw reseed).2.ops = h.ops ∧ (h.draw reseed).2.amap = h.amap ∧
    (h.draw reseed).2.sec.slots = h.sec.slots := by
  cases hf : (reseed || decide (2 ^ h.fld pSec 0x804 0 5 ≤ h.sec.sinceReseed)) <;> simp [Hub.draw, hf]

/-- Drawing a partition's keys changes its own key slot alone. -/
theorem Hub.drawKeys_keySlot (h : Hub) (p : Nat) :
    ∃ k, ∀ q, (h.drawKeys p).keySlot q = if q = p then some k else h.keySlot q := by
  obtain ⟨k, hk⟩ : ∃ k, (h.drawKeys p).sec.slots = SMap.set (fun _ => none) h.sec.slots p (some k) := by
    simp only [Hub.drawKeys, Hub.submit_fields, Hub.putKeySlot, Hub.draw_keeps]
    exact ⟨_, rfl⟩
  exact ⟨k, fun q => by rw [Hub.keySlot, hk, SMap.get_set, Hub.keySlot]⟩

theorem Hub.drawKeys_keeps (h : Hub) (p : Nat) : (h.drawKeys p).ops = h.ops ∧ (h.drawKeys p).amap = h.amap := by
  simp [Hub.drawKeys, Hub.draw_keeps]

theorem Hub.foldl_setRegions_keeps (ks : List Nat) (m : BitVec 64) (h : Hub) :
    (ks.foldl (fun h k => h.setRegions k m) h).ops = h.ops ∧ (ks.foldl (fun h k => h.setRegions k m) h).amap = h.amap ∧
    (ks.foldl (fun h k => h.setRegions k m) h).sec = h.sec :=
  ⟨foldl_keeps Hub.ops (fun h k => h.setRegions k m) (fun _ _ => rfl) ks h,
    foldl_keeps Hub.amap (fun h k => h.setRegions k m) (fun _ _ => rfl) ks h,
    foldl_keeps Hub.sec (fun h k => h.setRegions k m) (fun _ _ => rfl) ks h⟩

/-- A partition that passed the checks is enabled under fresh keys; every other partition and key slot stands. -/
theorem Hub.enablePart_enables (h : Hub) (p : Nat) : (h.enablePart p).ops = h.ops ∧
    (∃ c : PartCfg, c.enabled = true ∧ ∀ q, (h.enablePart p).part q = if q = p then c else h.part q) ∧
    ∃ k, ∀ q, (h.enablePart p).keySlot q = if q = p then some k else h.keySlot q := by
  unfold Hub.enablePart
  extract_lets c t stale decked keyed live enabled low high
  generalize hg : (if stale = true then high.raise pPagemgr 3 else high) = g
  obtain ⟨ops1, parts1, sec1⟩ : decked.ops = h.ops ∧ decked.amap.parts = h.amap.parts ∧ decked.sec = h.sec := by
    simp only [decked]
    split <;> exact ⟨rfl, rfl, rfl⟩
  obtain ⟨ops2, amap2⟩ : keyed.ops = decked.ops ∧ keyed.amap = decked.amap := decked.drawKeys_keeps p
  obtain ⟨k, hk⟩ : ∃ k, ∀ q, keyed.keySlot q = if q = p then some k else decked.keySlot q := decked.drawKeys_keySlot p
  obtain ⟨ops3, amap3, sec3⟩ : live.ops = keyed.ops ∧ live.amap = keyed.amap ∧ live.sec = keyed.sec := by
    simp only [live]
    split
    · exact Hub.foldl_setRegions_keeps ..
    · exact ⟨rfl, rfl, rfl⟩
  obtain ⟨ops4, amap4, sec4⟩ : g.ops = live.ops ∧ g.amap = enabled.amap ∧ g.sec = live.sec := by
    rw [← hg]
    split <;> simp [high, low, enabled]
  refine ⟨?_, ⟨{ c with enabled := true, stale := stale }, rfl, fun q => ?_⟩, ⟨k, fun q => ?_⟩⟩
  · rw [ops4, ops3, ops2, ops1]
  · have hpart : g.part q = enabled.part q := by rw [Hub.part, amap4, Hub.part]
    have hlive : live.part q = h.part q := by rw [Hub.part, amap3, amap2, parts1, Hub.part]
    rw [hpart, Hub.part_putPart, hlive]
  · have hslot : g.keySlot q = keyed.keySlot q := by rw [Hub.keySlot, sec4, sec3, Hub.keySlot]
    rw [hslot, hk, Hub.keySlot, sec1, Hub.keySlot]

/-! DEAL (R267) -/

/-- A list whose start is fixed keeps its state and the bank that waits. -/
theorem Hub.fixStart_gate (h : Hub) (l c : Nat) : ((h.fixStart l c).gate l).st = (h.gate l).st ∧
    ((h.fixStart l c).gate l).pend = (h.gate l).pend ∧ (h.fixStart l c).ops = h.ops ∧ (h.fixStart l c).journal = h.journal := by
  unfold Hub.fixStart
  extract_lets g
  split
  next start k _ =>
  extract_lets h1
  have e1 : h1.gate l = { g with start := BitVec.ofNat 64 start, late := decide (k ≠ 0), skipped := min (2 ^ 32 - 1) k } := by
    rw [Hub.gate_putGate, if_pos rfl]
  have hraise : (h1.raise pGate 1).gate l = h1.gate l := by rw [Hub.gate, Hub.gate]; simp
  split
  · rw [e1]; exact ⟨rfl, rfl, rfl, rfl⟩
  · rw [hraise, e1]; exact ⟨rfl, rfl, by simp [h1], by simp [h1]⟩

/-- A list whose deal of a bank waits. -/
def Hub.dealt (h : Hub) (l b : Nat) : Hub :=
  h.putGate l { h.gate l with
    st := if (h.gate l).st = 0 then 1 else 3, pend := BitVec.ofNat 1 b, late := false, skipped := 0 }

theorem Hub.gate_dealt (h : Hub) (l b : Nat) : ((h.dealt l b).gate l).st = (if (h.gate l).st = 0 then 1 else 3) ∧
    ((h.dealt l b).gate l).pend = BitVec.ofNat 1 b := by
  simp [Hub.dealt, Hub.gate_putGate]

theorem Hub.dealt_keeps (h : Hub) (l b : Nat) : (h.dealt l b).ops = h.ops ∧ (h.dealt l b).journal = h.journal ∧
    (h.dealt l b).mem = h.mem := by
  simp [Hub.dealt]

/-- A deal that passes every check waits for its start (R267). -/
theorem Hub.dealEnd_accepted {h : Hub} {l b : Nat} (hsel : h.gateSel = (l, b)) (h1 : (h.gate l).st ≠ 1) (h3 : (h.gate l).st ≠ 3)
    (hrun : ((h.gate l).running && (h.gate l).bank.toNat == b) = false) (hpos : 1 ≤ h.bankLen l b) (hmax : h.bankLen l b ≤ 64)
    (hdur : ∀ i, i < h.bankLen l b → entryDur (h.gateEntry l b i) ≠ 0) :
    h.dealEnd = ((h.dealt l b).fixStart l h.tm.epoch.toNat).endOp pGate 0 := by
  have hrun' : ¬ ((h.gate l).running = true ∧ (h.gate l).bank.toNat = b) := by simpa using hrun
  have hlen : ¬ (h.bankLen l b = 0 ∨ 64 < h.bankLen l b) := by omega
  have hany : ¬ ((List.range (h.bankLen l b)).any fun i => entryDur (h.gateEntry l b i) == 0) = true := by simpa using hdur
  rw [Hub.dealEnd, hsel]
  dsimp only
  rw [if_neg (not_or.mpr ⟨h1, h3⟩), if_neg hrun', if_neg hlen, if_neg hany]
  rfl

/-! The CACHE page (R149) -/

/-- Where no way holds a line of its scope, an operation takes its effect and ends. -/
theorem Hub.clearThen_nil (h : Hub) (errs : Flips) (f : Hub → Hub) : h.clearThen [] errs f = ((f h).endOp pCache 0).settleOn := by
  simp [Hub.clearThen, Hub.emptyWays]

/-! Page tables (R203, R218) -/

theorem Hub.noteLow_keeps (h : Hub) (p : Nat) : (h.noteLow p).ops = h.ops ∧ (h.noteLow p).journal = h.journal ∧
    ∀ q, (h.noteLow p).table q = h.table q := by
  unfold Hub.noteLow
  extract_lets now was pages h1
  split
  · exact ⟨by simp [h1], by simp [h1], fun q => by rw [Hub.table, Hub.table]; simp [h1, pages]⟩
  · exact ⟨rfl, rfl, fun q => rfl⟩

theorem Hub.table_putTable (h : Hub) (p q : Nat) (v : PageTable) : (h.putTable p v).table q = if q = p then v else h.table q := by
  simp only [Hub.table, Hub.putTable, SMap.get_set]

theorem Hub.freeTable_keeps (h : Hub) (p : Nat) : (h.freeTable p).ops = h.ops ∧ (h.freeTable p).journal = h.journal := by
  simp [Hub.freeTable]

theorem Hub.table_freeTable (h : Hub) (p q : Nat) : (h.freeTable p).table q = if q = p then PageTable.unbuilt else h.table q :=
  Hub.table_putTable ..

/-- The table of a partition on all four segments, its two ranges from slots a and b on. -/
def Hub.tableAt (h : Hub) (p a b : Nat) : PageTable :=
  ⟨true, (h.part p).units, (h.part p).first, (h.part p).count, BitVec.ofNat 3 (2 * (h.part p).seg), a, b, (h.part p).units * 32,
    (h.part p).count * h.bigD / 256⟩

/-- A partition's table, with no entries and no page refused yet. -/
def Hub.withTable (h : Hub) (p : Nat) (t : PageTable) : Hub :=
  let g := (h.freeTable p).putTable p t
  g.setPages { g.pages with noSpace := SMap.set (fun _ => 0) g.pages.noSpace p 0 }

theorem Hub.withTable_keeps (h : Hub) (p : Nat) (t : PageTable) :
    (h.withTable p t).ops = h.ops ∧ (h.withTable p t).journal = h.journal ∧ (h.withTable p t).mem = h.mem := by
  simp [Hub.withTable, Hub.freeTable]

theorem Hub.table_withTable (h : Hub) (p q : Nat) (t : PageTable) : (h.withTable p t).table q = if q = p then t else h.table q := by
  have hput : (h.withTable p t).table q = ((h.freeTable p).putTable p t).table q := rfl
  rw [hput, Hub.table_putTable, Hub.table_freeTable]
  split <;> rfl

/-- The table of a MANAGED partition that is not quad is built where both its ranges find room (R203). -/
theorem Hub.tableBuildEnd_placed {h : Hub} {p a b : Nat} (hoff : (h.part p).enabled = false) (hbuilt : (h.table p).built = false)
    (hman : (h.part p).managed = true) (hquad : (h.part p).quad = false)
    (ha : h.placeSlots [0, 1, 2, 3] (ceilDiv ((h.part p).units * 32) 4) [] = some a)
    (hb : h.placeSlots [0, 1, 2, 3] (ceilDiv ((h.part p).count * h.bigD / 256) 4) [(a, ceilDiv ((h.part p).units * 32) 4)] = some b) :
    h.tableBuildEnd p = ((h.withTable p (h.tableAt p a b)).noteLow p).endOp pPagemgr 0 := by
  unfold Hub.tableBuildEnd
  simp [hoff, hbuilt, hman, hquad, ha, hb, Hub.withTable, Hub.tableAt]

/-! READMIT (R355) -/

theorem Hub.lastEntry_submit (h : Hub) (typ : Nat) (critical : Bool) (payload : List Byte) :
    (h.submit typ critical payload).lastEntry typ payload := ⟨_, by rw [Hub.submit_journal, List.getLast?_concat], rfl, rfl⟩

theorem Hub.testWrite_ops (h : Hub) (ps : Nat) : (h.testWrite ps).ops = h.ops := by
  unfold Hub.testWrite
  generalize rsEncode (testPattern 1) = w
  exact foldl_keeps Hub.ops (fun h i => h.putCode ps (i / 4) (i % 4) w) (fun _ _ => rfl) _ h

/-- A test that found nothing records the slab in the journal, and READMIT waits for the entry. -/
theorem Hub.readmitEnd_passed {h : Hub} {ps : Nat} {r : OpEnd} (hcheck : h.readmitCheck ps = 0) (hfound : h.testFound r.errs = []) :
    ∃ prev, h.readmitEnd ps r = ((h.testWrite ps).opWaits pRas 0).submit 7 true (le16 ps ++ le16 prev) := by
  simp only [Hub.readmitEnd, hcheck, hfound]
  exact ⟨_, rfl⟩

theorem Hub.opOf_opWaits {h : Hub} {page : Nat} {o : LongOp} (code : Nat) (ho : h.opOf page = some o) :
    (h.opWaits page code).opOf page = some { o with code := code, waits := true } := by
  rw [Hub.opWaits, ho]
  simp only [Hub.opOf_putLongOp, if_true]

/-! The identity key (R384) -/

theorem Hub.showIdentity_ops (h : Hub) (key : BitVec 384) : (h.showIdentity key).ops = h.ops := by
  unfold Hub.showIdentity
  exact foldl_keeps Hub.ops _ (fun h i => by simp) _ h

/-- GEN_IDENTITY at its end: two draws make the key, which the fuses take and IDPUB shows. -/
theorem secOpEnd_identity {s : State} {r : OpEnd} {i : Nat} (hcore : s.hub.sec.coreReset = false) (hok : r.failed = false)
    (hlock : s.fuses.provLock = false) (hid : s.fuses.identity = none) (hdrbg : s.hub.drbgError = false) :
    ∃ g key, secOpEnd s ⟨6, 0, i, false⟩ r =
        { s with fuses := { s.fuses with identity := some key }, hub := (Hub.showIdentity g key).endOp pSec 0 } ∧ g.ops = s.hub.ops := by
  refine ⟨((s.hub.draw false).2.draw false).2,
    identityKey ((((s.hub.draw false).2.draw false).1.setWidth 128) ++ (s.hub.draw false).1), ?_, by simp [Hub.draw_keeps]⟩
  simp [secOpEnd, hcore, hok, hlock, hid, hdrbg]

end Sys2Proof.Machine

end

section

/-! SUPPORT. The long operations' ends, page by page, and O56. -/

namespace Sys2Proof.Machine

section

variable {s : State} {r : OpEnd} {i p c : Nat} (hr : s.hub.inReset = false)
include hr

/-! PART: partitions and windows -/

theorem partEnable_ends (ho : s.hub.opOf pPart = some ⟨1, c, p, false⟩) (hcheck : s.hub.partCheck p = 0)
    (hroom : s.hub.journalFull = false) : Ends (exec (.longOpEnd 3 r) s) fun t =>
      t.hub.opOf pPart = none ∧ (t.hub.part p).enabled = true ∧ (t.hub.keySlot p).isSome = true ∧
      (∀ q, q ≠ p → t.hub.part q = s.hub.part q ∧ t.hub.keySlot q = s.hub.keySlot q) ∧ t.hub.mem = s.hub.mem := by
  have he : s.hub.opEnd pPart ⟨1, c, p, false⟩ r = (s.hub.enablePart p).endOp pPart 0 := by
    simp [Hub.opEnd_partEnable, Hub.partEnableEnd, hcheck]
  obtain ⟨hops, ⟨c', hon, hpart⟩, k, hkey⟩ := s.hub.enablePart_enables p
  refine ends_opEnd hr ho rfl (by decide) rfl he (.inl hroom) ⟨Hub.opOf_endOp 0 hops ho rfl, ?_, ?_, fun q hq => ?_, by simp⟩
  · simp [hpart, hon]
  · simp [hkey]
  · simp [hpart, hkey, hq]

theorem partEnable_refused (ho : s.hub.opOf pPart = some ⟨1, c, p, false⟩) (hcheck : s.hub.partCheck p ≠ 0) :
    Becomes (exec (.longOpEnd 3 r) s) s (s.hub.endOp pPart (s.hub.partCheck p)) := by
  have he : s.hub.opEnd pPart ⟨1, c, p, false⟩ r = s.hub.endOp pPart (s.hub.partCheck p) := by
    simp [Hub.opEnd_partEnable, Hub.partEnableEnd, hcheck]
  exact becomes_opEnd hr ho rfl (by decide) rfl he (.inr (by simp))

theorem setPw_refused (ho : s.hub.opOf pPart = some ⟨2, c, i, false⟩) (hcheck : s.hub.pwCheck i s.hub.stagedPw ≠ 0) :
    Becomes (exec (.longOpEnd 3 r) s) s (s.hub.endOp pPart (s.hub.pwCheck i s.hub.stagedPw)) := by
  have he : s.hub.opEnd pPart ⟨2, c, i, false⟩ r = s.hub.endOp pPart (s.hub.pwCheck i s.hub.stagedPw) := by
    simp [Hub.opEnd_setPw, Hub.setPwEnd, hcheck]
  exact becomes_opEnd hr ho rfl (by decide) rfl he (.inr (by simp))

theorem setPw_ends (ho : s.hub.opOf pPart = some ⟨2, c, i, false⟩) (hcheck : s.hub.pwCheck i s.hub.stagedPw = 0)
    (hdone : bit s.hub.stagedPw.ctrl 31 = true ∨ s.hub.peerPending i = false) : Ends (exec (.longOpEnd 3 r) s) fun t =>
      t.hub.opOf pPart = none ∧ t.hub.peerWin i = s.hub.stagedPw ∧ (∀ j, j ≠ i → t.hub.peerWin j = s.hub.peerWin j) ∧
      t.hub.mem = s.hub.mem := by
  have he : s.hub.opEnd pPart ⟨2, c, i, false⟩ r = (s.hub.setAmap { s.hub.amap with
      peerWin := SMap.set (fun _ => Window.off) s.hub.amap.peerWin i s.hub.stagedPw }).endOp pPart 0 := by
    rcases hdone with h31 | hfree <;> simp [Hub.opEnd_setPw, Hub.setPwEnd, *]
  exact ends_opEnd hr ho rfl (by decide) rfl he (.inr (by simp))
    ⟨Hub.opOf_endOp 0 (by simp) ho rfl, by simp [Hub.peerWin], fun j hj => by simp [Hub.peerWin, hj], by simp⟩

theorem setHw_refused (ho : s.hub.opOf pPart = some ⟨3, c, i, false⟩) (hcheck : s.hub.hwCheck i s.hub.stagedHw ≠ 0) :
    Becomes (exec (.longOpEnd 3 r) s) s (s.hub.endOp pPart (s.hub.hwCheck i s.hub.stagedHw)) := by
  have he : s.hub.opEnd pPart ⟨3, c, i, false⟩ r = s.hub.endOp pPart (s.hub.hwCheck i s.hub.stagedHw) := by
    simp [Hub.opEnd_setHw, Hub.setHwEnd, hcheck]
  exact becomes_opEnd hr ho rfl (by decide) rfl he (.inr (by simp))

theorem setHw_ends (ho : s.hub.opOf pPart = some ⟨3, c, i, false⟩) (hcheck : s.hub.hwCheck i s.hub.stagedHw = 0) :
    Ends (exec (.longOpEnd 3 r) s) fun t => t.hub.opOf pPart = none ∧ t.hub.hostWin i = s.hub.stagedHw ∧
      (∀ j, j ≠ i → t.hub.hostWin j = s.hub.hostWin j) ∧ t.hub.mem = s.hub.mem := by
  have he : s.hub.opEnd pPart ⟨3, c, i, false⟩ r = (s.hub.setAmap { s.hub.amap with
      hostWin := SMap.set (fun _ => Window.off) s.hub.amap.hostWin i s.hub.stagedHw }).endOp pPart 0 := by
    simp [Hub.opEnd_setHw, Hub.setHwEnd, hcheck]
  exact ends_opEnd hr ho rfl (by decide) rfl he (.inr (by simp))
    ⟨Hub.opOf_endOp 0 (by simp) ho rfl, by simp [Hub.hostWin], fun j hj => by simp [Hub.hostWin, hj], by simp⟩

/-! CACHE: kitty windows, FLUSH and the way count -/

theorem kwApply_ends (hroom : s.hub.journalFull = false) (ho : s.hub.opOf pCache = some ⟨1, 0, i, false⟩)
    (hon : s.hub.stagedKw.on = true)
    (hways : s.hub.waysOf (fun n => decide (n < 16 - s.hub.cache.k)) (fun x => s.hub.stagedKw.has s.hub x.part.toNat x.line) = []) :
    Becomes (exec (.longOpEnd 5 r) s) s (((s.hub.putKitty i s.hub.stagedKw).endOp pCache 0).settleOn) := by
  have he : s.hub.opEnd pCache ⟨1, 0, i, false⟩ r = ((s.hub.putKitty i s.hub.stagedKw).endOp pCache 0).settleOn := by
    rw [Hub.opEnd_kwApply, Hub.kwEnd, if_neg (by simp), if_pos hon, hways, Hub.clearThen_nil]
  exact becomes_opEnd hr ho rfl (by decide) rfl he (.inl hroom)

theorem kittyFill_ends (hroom : s.hub.journalFull = false) (ho : s.hub.opOf pCache = some ⟨2, 0, i, false⟩)
    (hleft : s.hub.cache.kfill.2.2 = 0)
    (hreads : (s.hub.settleOn.lines.ordered.all fun x => !(x.src == .kitty && x.kind == .read)) = true)
    (hleft' : s.hub.settleOn.cache.kfill.2.2 = 0) :
    Becomes (exec (.longOpEnd 5 r) s) s (s.hub.settleOn.endOp pCache 0) := by
  have hon : s.hub.kittyOn = s.hub.settleOn := by rw [Hub.kittyOn, hleft]; rfl
  have he : s.hub.opEnd pCache ⟨2, 0, i, false⟩ r = s.hub.settleOn.endOp pCache 0 := by
    rw [Hub.opEnd_kittyFill, Hub.kittyFillEnd, if_neg (by simp), hon, if_pos ⟨hleft', hreads⟩]
  exact becomes_opEnd hr ho rfl (by decide) rfl he (.inl hroom)

theorem flush_ends (hroom : s.hub.journalFull = false) (ho : s.hub.opOf pCache = some ⟨3, 0, i, false⟩)
    (hflush : s.hub.cache.flush = []) : Becomes (exec (.longOpEnd 5 r) s) s ((s.hub.endOp pCache 0).settleOn) := by
  have hsame : s.hub.setCache { s.hub.cache with flush := [] } = s.hub := by rw [← hflush]; rfl
  have he : s.hub.opEnd pCache ⟨3, 0, i, false⟩ r = (s.hub.endOp pCache 0).settleOn := by
    simp [Hub.opEnd_flush, Hub.flushEnd, hflush, Hub.cleanLines, hsame]
  exact becomes_opEnd hr ho rfl (by decide) rfl he (.inl hroom)

theorem setWays_ends (hroom : s.hub.journalFull = false) (ho : s.hub.opOf pCache = some ⟨4, 0, i, false⟩)
    (hways : s.hub.waysOf (fun n => decide (16 - s.hub.fld pCache 0x48 0 4 ≤ n)) (fun x => x.st != .invalid) = []) :
    Becomes (exec (.longOpEnd 5 r) s) s
      (((s.hub.setCache { s.hub.cache with k := s.hub.fld pCache 0x48 0 4, chosen := [] }).endOp pCache 0).settleOn) := by
  have he : s.hub.opEnd pCache ⟨4, 0, i, false⟩ r =
      ((s.hub.setCache { s.hub.cache with k := s.hub.fld pCache 0x48 0 4, chosen := [] }).endOp pCache 0).settleOn := by
    rw [Hub.opEnd_setWays, Hub.setWaysEnd, if_neg (by simp), hways, Hub.clearThen_nil]
  exact becomes_opEnd hr ho rfl (by decide) rfl he (.inl hroom)

/-! TRICK: FORCE_FREE -/

theorem forceFree_ends (ho : s.hub.opOf pTrick = some ⟨1, c, i, false⟩) (hst : (s.hub.trick i).st = 1 ∨ (s.hub.trick i).st = 3) :
    Becomes (exec (.longOpEnd 7 r) s) s ((s.hub.putTrick i Trick.free).endOp pTrick 0) := by
  have he : s.hub.opEnd pTrick ⟨1, c, i, false⟩ r = (s.hub.putTrick i Trick.free).endOp pTrick 0 := by
    rcases hst with hst | hst <;> simp [Hub.opEnd_forceFree, Hub.forceFreeEnd, hst]
  exact becomes_opEnd hr ho rfl (by decide) rfl he (.inr (by simp))

/-! PAGEMGR: page tables -/

theorem xlate_ends (ho : s.hub.opOf pPagemgr = some ⟨3, c, p, false⟩) (hbuilt : (s.hub.table p).built = true)
    (hfwd : bit (s.hub.rd pPagemgr 0x70) 31 = false) (hpage : s.hub.fld pPagemgr 0x70 0 26 < (s.hub.table p).w) :
    Ends (exec (.longOpEnd 8 r) s) fun t =>
      t.hub.rd64 pPagemgr 0x74 = (s.hub.fwd p (s.hub.fld pPagemgr 0x70 0 26)).toNat ∧ t.hub.opOf pPagemgr = none ∧
      t.hub.pages = s.hub.pages ∧ t.hub.mem = s.hub.mem := by
  have he : s.hub.opEnd pPagemgr ⟨3, c, p, false⟩ r =
      (s.hub.wr64 pPagemgr 0x74 (s.hub.fwd p (s.hub.fld pPagemgr 0x70 0 26)).toNat).endOp pPagemgr 0 := by
    simp [Hub.opEnd_xlate, Hub.xlateEnd, hbuilt, hfwd, hpage]
  refine ends_opEnd hr ho rfl (by decide) rfl he (.inr (by simp)) ⟨?_, Hub.opOf_endOp 0 (by simp) ho rfl, by simp, by simp⟩
  rw [Hub.rd64_endOp_other (h := s.hub) 0 (by simp) ho rfl (by decide) (by decide), Hub.rd64_wr64]

theorem tableFree_ends (ho : s.hub.opOf pPagemgr = some ⟨2, c, p, false⟩) (hoff : (s.hub.part p).enabled = false)
    (hbuilt : (s.hub.table p).built = true) : Ends (exec (.longOpEnd 8 r) s) fun t =>
      t.hub.table p = PageTable.unbuilt ∧ (∀ q, q ≠ p → t.hub.table q = s.hub.table q) ∧ t.hub.opOf pPagemgr = none ∧
      t.hub.mem = s.hub.mem := by
  have he : s.hub.opEnd pPagemgr ⟨2, c, p, false⟩ r = ((s.hub.freeTable p).noteLow p).endOp pPagemgr 0 := by
    simp [Hub.opEnd_tableFree, Hub.tableFreeEnd, hoff, hbuilt]
  obtain ⟨hops, hjournal, htable⟩ := (s.hub.freeTable p).noteLow_keeps p
  exact ends_opEnd hr ho rfl (by decide) rfl he (.inr (by simp [hjournal, Hub.freeTable_keeps])) ⟨by simp [htable, Hub.table_freeTable],
    fun q hq => by simp [htable, Hub.table_freeTable, hq], Hub.opOf_endOp 0 (by simp [hops, Hub.freeTable_keeps]) ho rfl, by simp⟩

theorem tableBuild_ends {a b : Nat} (ho : s.hub.opOf pPagemgr = some ⟨1, c, p, false⟩) (hoff : (s.hub.part p).enabled = false)
    (hbuilt : (s.hub.table p).built = false) (hman : (s.hub.part p).managed = true) (hquad : (s.hub.part p).quad = false)
    (ha : s.hub.placeSlots [0, 1, 2, 3] (ceilDiv ((s.hub.part p).units * 32) 4) [] = some a)
    (hb : s.hub.placeSlots [0, 1, 2, 3] (ceilDiv ((s.hub.part p).count * s.hub.bigD / 256) 4)
      [(a, ceilDiv ((s.hub.part p).units * 32) 4)] = some b) :
    Ends (exec (.longOpEnd 8 r) s) fun t => t.hub.table p = s.hub.tableAt p a b ∧ (∀ q, q ≠ p → t.hub.table q = s.hub.table q) ∧
      t.hub.opOf pPagemgr = none ∧ t.hub.mem = s.hub.mem := by
  have he : s.hub.opEnd pPagemgr ⟨1, c, p, false⟩ r = ((s.hub.withTable p (s.hub.tableAt p a b)).noteLow p).endOp pPagemgr 0 := by
    rw [Hub.opEnd_tableBuild, Hub.tableBuildEnd_placed hoff hbuilt hman hquad ha hb]
  obtain ⟨hops, hjournal, htable⟩ := (s.hub.withTable p (s.hub.tableAt p a b)).noteLow_keeps p
  refine ends_opEnd hr ho rfl (by decide) rfl he (.inr ?_) ⟨?_, fun q hq => ?_, ?_, ?_⟩
  · simp [hjournal, Hub.withTable_keeps]
  · simp [htable, Hub.table_withTable]
  · simp [htable, Hub.table_withTable, hq]
  · have hsame : ((s.hub.withTable p (s.hub.tableAt p a b)).noteLow p).ops = s.hub.ops := hops.trans (Hub.withTable_keeps ..).1
    exact Hub.opOf_endOp 0 hsame ho rfl
  · simp [Hub.withTable_keeps]

/-! GATE: DEAL, STOP and CANCEL -/

theorem deal_ends {l b : Nat} (ho : s.hub.opOf pGate = some ⟨1, c, i, false⟩) (hsel : s.hub.gateSel = (l, b))
    (h1 : (s.hub.gate l).st ≠ 1) (h3 : (s.hub.gate l).st ≠ 3)
    (hrun : ((s.hub.gate l).running && (s.hub.gate l).bank.toNat == b) = false) (hpos : 1 ≤ s.hub.bankLen l b)
    (hmax : s.hub.bankLen l b ≤ 64) (hdur : ∀ i, i < s.hub.bankLen l b → entryDur (s.hub.gateEntry l b i) ≠ 0) :
    Ends (exec (.longOpEnd 10 r) s) fun t => (t.hub.gate l).st = (if (s.hub.gate l).st = 0 then 1 else 3) ∧
      (t.hub.gate l).pend = BitVec.ofNat 1 b ∧ t.hub.opOf pGate = none ∧ t.hub.mem = s.hub.mem := by
  have he : s.hub.opEnd pGate ⟨1, c, i, false⟩ r = ((s.hub.dealt l b).fixStart l s.hub.tm.epoch.toNat).endOp pGate 0 := by
    rw [Hub.opEnd_deal, Hub.dealEnd_accepted hsel h1 h3 hrun hpos hmax hdur]
  obtain ⟨hst, hpend, hops, hjournal⟩ := (s.hub.dealt l b).fixStart_gate l s.hub.tm.epoch.toNat
  have hsame : ((s.hub.dealt l b).fixStart l s.hub.tm.epoch.toNat).ops = s.hub.ops := hops.trans (Hub.dealt_keeps ..).1
  refine ends_opEnd hr ho rfl (by decide) rfl he (.inr ?_) ⟨?_, ?_, ?_, ?_⟩
  · simp [hjournal, Hub.dealt_keeps]
  · simp [hst, Hub.gate_dealt]
  · simp [hpend, Hub.gate_dealt]
  · rw [Hub.opOf_endOp 0 hsame ho rfl]
  · simp [Hub.dealt_keeps]

theorem stop_ends (ho : s.hub.opOf pGate = some ⟨2, c, i, false⟩) (h0 : (s.hub.gate s.hub.gateSel.1).st ≠ 0) :
    Becomes (exec (.longOpEnd 10 r) s) s
      ((s.hub.putGate s.hub.gateSel.1 { s.hub.gate s.hub.gateSel.1 with stopping := true }).endOp pGate 0) := by
  have he : s.hub.opEnd pGate ⟨2, c, i, false⟩ r =
      (s.hub.putGate s.hub.gateSel.1 { s.hub.gate s.hub.gateSel.1 with stopping := true }).endOp pGate 0 := by
    rw [Hub.opEnd_stop, Hub.stopEnd]
    exact if_neg h0
  exact becomes_opEnd hr ho rfl (by decide) rfl he (.inr (by simp))

theorem cancel_ends (ho : s.hub.opOf pGate = some ⟨3, c, i, false⟩)
    (hst : (s.hub.gate s.hub.gateSel.1).st = 1 ∨ (s.hub.gate s.hub.gateSel.1).st = 3) : Ends (exec (.longOpEnd 10 r) s) fun t =>
      (t.hub.gate s.hub.gateSel.1).st = (if (s.hub.gate s.hub.gateSel.1).st = 1 then 0 else 2) ∧ t.hub.opOf pGate = none ∧
      t.hub.mem = s.hub.mem := by
  have he : s.hub.opEnd pGate ⟨3, c, i, false⟩ r = (s.hub.putGate s.hub.gateSel.1 { s.hub.gate s.hub.gateSel.1 with
      st := if (s.hub.gate s.hub.gateSel.1).st = 1 then 0 else 2 }).endOp pGate 0 := by
    rcases hst with hst | hst <;> simp [Hub.opEnd_cancel, Hub.cancelEnd, hst]
  exact ends_opEnd hr ho rfl (by decide) rfl he (.inr (by simp))
    ⟨by simp [Hub.gate_putGate], Hub.opOf_endOp 0 (by simp) ho rfl, by simp⟩

/-! PERF: DUMP_START -/

theorem dumpStart_ends (ho : s.hub.opOf pPerf = some ⟨1, c, i, false⟩) (hoff : s.hub.dumping = false)
    (halign : s.hub.dumpBase % 64 = 0) (hrange : s.hub.dumpRangeOk = true) : Ends (exec (.longOpEnd 13 r) s) fun t =>
      t.hub.dumping = true ∧ t.hub.perf.seq = 0 ∧ t.hub.rd pPerf 0x90 = 0 ∧ t.hub.opOf pPerf = none ∧ t.hub.mem = s.hub.mem := by
  have he : s.hub.opEnd pPerf ⟨1, c, i, false⟩ r =
      (((s.hub.setPerf { s.hub.perf with seq := 0, ticks := 0, skippedFlag := false, stopping := false }).wr
      pPerf 0x8C (putBits (putBit (putBit (s.hub.rd pPerf 0x8C) 0 true) 1 false) 8 24 0)).wr pPerf 0x90 0).endOp pPerf 0 := by
    simp [Hub.opEnd_dumpStart, Hub.dumpStartEnd, hoff, halign, hrange, Hub.rd]
  refine ends_opEnd hr ho rfl (by decide) rfl he (.inr (by simp)) ⟨?_, by simp, ?_, Hub.opOf_endOp 0 (by simp) ho rfl, by simp⟩
  · rw [Hub.dumping, Hub.rd_endOp_other (h := s.hub) 0 (by simp) ho rfl (by decide) (by decide) (by decide),
      Hub.rd_wr_ne _ _ (by decide), Hub.rd_wr_same, bit_putBits_below _ (by decide), putBit, bit_putBits_below _ (by decide),
      bit_putBit_same _ _ (by decide)]
  · rw [Hub.rd_endOp_other (h := s.hub) 0 (by simp) ho rfl (by decide) (by decide) (by decide), Hub.rd_wr_same]

/-! RAS: READMIT -/

theorem readmit_ends (hroom : s.hub.journalFull = false) (ho : s.hub.opOf pRas = some ⟨1, 0, p, false⟩)
    (hcheck : s.hub.readmitCheck p = 0) (hfound : s.hub.testFound r.errs = []) : Ends (exec (.longOpEnd 11 r) s) fun t =>
      ∃ prev, t.hub.lastEntry 7 (le16 p ++ le16 prev) ∧ t.hub.opOf pRas = some ⟨1, 0, p, true⟩ := by
  obtain ⟨prev, hend⟩ := Hub.readmitEnd_passed hcheck hfound
  have he : s.hub.opEnd pRas ⟨1, 0, p, false⟩ r = ((s.hub.testWrite p).opWaits pRas 0).submit 7 true (le16 p ++ le16 prev) := by
    rw [Hub.opEnd_readmit, hend]
  refine ends_opEnd hr ho rfl (by decide) rfl he (.inl hroom) ⟨prev, Hub.lastEntry_submit .., ?_⟩
  rw [Hub.opOf_of_ops (h := (s.hub.testWrite p).opWaits pRas 0) (by simp)]
  exact Hub.opOf_opWaits 0 ((Hub.opOf_of_ops (s.hub.testWrite_ops p) pRas).trans ho)

/-! SEC: fuses -/

/-- An operation of the SEC page ends as `secOpEnd` says; the stacks' bytes stay. -/
theorem secOpEnd_ends {o : LongOp} {t : State} {P : State → Prop} (ho : s.hub.opOf pSec = some o) (hw : o.waits = false)
    (he : secOpEnd s o r = t) (hP : t.hub.mem = s.hub.mem → P t) : Ends (exec (.longOpEnd 2 r) s) P :=
  ⟨t, (exec_longOpEnd_sec r hr ho hw).trans (congrArg _ he), hP (he ▸ (secOpEnd_stores s o r).1)⟩

variable (hcore : s.hub.sec.coreReset = false) (hok : r.failed = false)
include hcore hok

theorem genIdentity_ends (ho : s.hub.opOf pSec = some ⟨6, 0, i, false⟩) (hlock : s.fuses.provLock = false)
    (hid : s.fuses.identity = none) (hdrbg : s.hub.drbgError = false) : Ends (exec (.longOpEnd 2 r) s) fun t =>
      t.fuses.identity.isSome = true ∧ t.fuses.provLock = false ∧ t.hub.opOf pSec = none ∧ t.hub.mem = s.hub.mem := by
  obtain ⟨g, key, he, hops⟩ := secOpEnd_identity (i := i) hcore hok hlock hid hdrbg
  exact secOpEnd_ends hr ho rfl he fun hmem => ⟨rfl, hlock, Hub.opOf_endOp 0 ((g.showIdentity_ops key).trans hops) ho rfl, hmem⟩

theorem fuseSvn_ends (ho : s.hub.opOf pSec = some ⟨4, 0, i, false⟩) : Ends (exec (.longOpEnd 2 r) s) fun t =>
    t.fuses = { s.fuses with svn := max s.fuses.svn (min 64 (s.hub.fld pSec 0x48 8 7)) } ∧ t.hub.opOf pSec = none ∧
    t.hub.mem = s.hub.mem := by
  have he : secOpEnd s ⟨4, 0, i, false⟩ r = { s with
      fuses := { s.fuses with svn := max s.fuses.svn (min 64 (s.hub.fld pSec 0x48 8 7)) }
      hub := (s.hub.wrFld pSec 0x48 16 7 (max s.fuses.svn (min 64 (s.hub.fld pSec 0x48 8 7)))).endOp pSec 0 } := by
    simp [secOpEnd, hcore, hok]
  exact secOpEnd_ends hr ho rfl he fun hmem => ⟨rfl, Hub.opOf_endOp 0 (by simp) ho rfl, hmem⟩

theorem fuseRevoke_ends (ho : s.hub.opOf pSec = some ⟨5, 0, i, false⟩) : Ends (exec (.longOpEnd 2 r) s) fun t =>
    t.fuses = { s.fuses with revoked := s.fuses.revoked ||| putBit s.fuses.revoked i true } ∧ t.hub.opOf pSec = none ∧
    t.hub.mem = s.hub.mem := by
  have he : secOpEnd s ⟨5, 0, i, false⟩ r = { s with
      fuses := { s.fuses with revoked := s.fuses.revoked ||| putBit s.fuses.revoked i true }
      hub := (s.hub.wrFld pSec 0x48 24 4 (s.fuses.revoked ||| putBit s.fuses.revoked i true).toNat).endOp pSec 0 } := by
    simp [secOpEnd, hcore, hok]
  exact secOpEnd_ends hr ho rfl he fun hmem => ⟨rfl, Hub.opOf_endOp 0 (by simp) ho rfl, hmem⟩

theorem lockProv_ends (ho : s.hub.opOf pSec = some ⟨7, 0, i, false⟩) (hid : s.fuses.identity.isSome = true) :
    Ends (exec (.longOpEnd 2 r) s) fun t => t.fuses = { s.fuses with provLock := true } ∧ bit (t.hub.rd pSec 0x48) 3 = true ∧
      t.hub.opOf pSec = none ∧ t.hub.mem = s.hub.mem := by
  have he : secOpEnd s ⟨7, 0, i, false⟩ r =
      { s with fuses := { s.fuses with provLock := true }, hub := (s.hub.wrFld pSec 0x48 3 1 1).endOp pSec 0 } := by
    have hsome : s.fuses.identity.isNone = false := by simpa using hid
    simp [secOpEnd, hcore, hok, hsome]
  refine secOpEnd_ends hr ho rfl he fun hmem => ⟨rfl, ?_, Hub.opOf_endOp 0 (by simp) ho rfl, hmem⟩
  rw [Hub.rd_endOp_other (h := s.hub) 0 (by simp) ho rfl (by decide) (by decide) (by decide), Hub.rd_wrFld, if_pos rfl]
  exact bit_putBits_one _ true (by decide)

end

/-- Settles O56, page by page. -/
theorem longOperationsEnd : Obligations.LongOperationsEnd := by
  unfold Obligations.LongOperationsEnd
  refine ⟨?_, fun h page code o c ho hc hres => Hub.endOp_shows code ho hc hres, fun s r p c hr => partEnable_ends hr,
    fun s r p c hr => partEnable_refused hr, fun s r i c hr ho => ⟨setPw_refused hr ho, setPw_ends hr ho⟩,
    fun s r i c hr ho => ⟨setHw_refused hr ho, setHw_ends hr ho⟩,
    fun s r i hr hroom => ⟨kwApply_ends hr hroom, kittyFill_ends hr hroom, flush_ends hr hroom, setWays_ends hr hroom⟩,
    fun s r i c hr => forceFree_ends hr, fun s r p c hr => xlate_ends hr, fun s r p c hr => tableFree_ends hr, ?_,
    fun s r l c hr => ⟨fun ho => deal_ends hr ho rfl, stop_ends hr⟩, fun s r i c hr => dumpStart_ends hr,
    fun s r ps hr => readmit_ends hr, fun s r i hr => genIdentity_ends hr, fun s r l c hr => cancel_ends hr,
    fun s r i hr => fuseSvn_ends hr, fun s r i hr hcore hok ho _ => fuseRevoke_ends hr hcore hok ho, fun s r i hr => lockProv_ends hr⟩
  · intro s page r o hr ho hw hc
    have hp : page.toNat ≠ pSec := fun hp => by rw [hp] at hc; revert hc; decide
    exact becomes_opEnd hr ho rfl hp hw (Hub.opEnd_shows_code hc) (.inr (by simp))
  · intro s r p c a b hr ho hoff hbuilt hman hquad w n ha hb
    obtain ⟨t, ht, htable, hothers, hend, hmem⟩ := tableBuild_ends (r := r) hr ho hoff hbuilt hman hquad ha hb
    rw [Ends]
    exact ⟨t, ht, by rw [htable]; exact ⟨rfl, rfl, rfl, rfl, rfl, rfl, rfl, rfl, hothers, hend, hmem⟩⟩

end Sys2Proof.Machine

end

section

/-! SUPPORT. Write-back entries handed to the channel engines: O27. -/

namespace Sys2Proof.Machine

/-! Write-backs (R136, R332, R341) -/

/-- An entry that is ready, with room in its write queues, is read, written out and dropped. -/
theorem Hub.handoff_of_ready {h h1 h2 : Hub} {p l k off : Nat} {errs : Flips} {e e' : WbEntry} (hwb : h.findWb p l = some e)
    (hplace : h.place p l = some (k, off)) (hask : h.askWrite e k off errs = h1) (hready : h1.writeReady e k off = true)
    (hroom : h1.queueRoom e k off = true) (hread : h1.readWb p l e.m = h2) (hentry : (h2.findWb p l).getD e = e') :
    ∃ smp : Sample, h.handoff p l errs =
      (((h2.writeOut e' k off errs).dropWb p l).count ⟨0x0D, 1, some e'.seg.toNat, none, some e'.part, some smp⟩).settleOn := by
  subst hask hread hentry
  simp only [Hub.handoff, hwb, hplace, hready, hroom, Bool.not_true, Bool.false_eq_true, or_self, if_false]
  exact ⟨_, rfl⟩

/-- Settles O27: the handoff of an entry that waits for nothing; the sample its count records is the model's. -/
theorem writeBackHandoff : Obligations.WriteBackHandoff := by
  unfold Obligations.WriteBackHandoff
  intro s part line errs e k off hwb hplace h hready hroom h' e'
  obtain ⟨smp, hsmp⟩ := Hub.handoff_of_ready (e' := e') hwb hplace rfl hready hroom rfl rfl
  exact ⟨smp, e'.seg.toNat, rfl, becomes_onHub (f := fun h => h.handoff part.toNat line.toNat errs) hsmp⟩

end Sys2Proof.Machine

end

section

/-! SUPPORT. Selectors that load staging copies, and data registers whose selector moves on (R122, R126, R148, R271, R323): O51. -/

namespace Sys2Proof.Machine

/-! Fields of a word -/

theorem testBit_bitsNat {w : Nat} (x : BitVec w) (lo n i : Nat) : (bitsNat x lo n).testBit i = (decide (i < n) && bit x (lo + i)) := by
  rw [bitsNat, Nat.testBit_mod_two_pow, Nat.testBit_shiftRight, BitVec.testBit_toNat, bit]

theorem bit_putBits {w : Nat} (x : BitVec w) {lo n i : Nat} (v : Nat) (hi : i < n) (hw : lo + i < w) :
    bit (putBits x lo n v) (lo + i) = v.testBit i := by
  simp only [bit, putBits, BitVec.getLsbD_or, BitVec.getLsbD_and, BitVec.getLsbD_not, BitVec.getLsbD_ofNat, Nat.testBit_shiftLeft,
    Nat.testBit_two_pow_sub_one, Nat.testBit_mod_two_pow]
  simp [hi, hw]

theorem bitsNat_putBits {w : Nat} (x : BitVec w) {lo n : Nat} (v : Nat) (hw : lo + n ≤ w) :
    bitsNat (putBits x lo n v) lo n = v % 2 ^ n := by
  refine Nat.eq_of_testBit_eq fun i => ?_
  rw [testBit_bitsNat, Nat.testBit_mod_two_pow]
  by_cases hi : i < n
  · rw [bit_putBits x v hi (by omega)]
  · simp [hi]

theorem toNat_setWidth_eq_bitsNat {w : Nat} (x : BitVec w) (n : Nat) : (x.setWidth n).toNat = bitsNat x 0 n := by
  simp [bitsNat]

/-! Words that are written where RW bits let them -/

/-- The word that a write of `data` over `old` leaves: the RW bits are taken from `data`. -/
def mergeRw (rw old data : Word) : Word := (old &&& ~~~rw) ||| (data &&& rw)

theorem bit_mergeRw (rw old data : Word) (i : Nat) : bit (mergeRw rw old data) i = if bit rw i then bit data i else bit old i := by
  have hold : old.getLsbD i = true → i < 32 := BitVec.lt_of_getLsbD
  have hbits : bit (mergeRw rw old data) i = (bit old i && (decide (i < 32) && !bit rw i) || bit data i && bit rw i) := by
    simp only [bit, mergeRw, BitVec.getLsbD_or, BitVec.getLsbD_and, BitVec.getLsbD_not]
  rw [hbits]
  cases bit rw i
  · simpa [bit] using hold
  · simp

theorem bitsNat_mergeRw {rw : Word} {n : Nat} (old data : Word) (hrw : ∀ i < n, bit rw i = true) :
    bitsNat (mergeRw rw old data) 0 n = bitsNat data 0 n := by
  refine Nat.eq_of_testBit_eq fun i => ?_
  rw [testBit_bitsNat, testBit_bitsNat, Nat.zero_add, bit_mergeRw]
  by_cases hi : i < n
  · rw [hrw i hi, if_pos rfl]
  · simp [hi]

theorem mergeRw_and_rw (rw old data : Word) : mergeRw rw old data &&& rw = data &&& rw := by
  ext i hi
  simp only [mergeRw, BitVec.getElem_and, BitVec.getElem_or, BitVec.getElem_not]
  cases rw[i] <;> simp

theorem mergeRw_and_outside {rw m : Word} (old data : Word) (hm : m &&& ~~~rw = m) : mergeRw rw old data &&& m = old &&& m := by
  rw [← hm]
  ext i hi
  simp only [mergeRw, BitVec.getElem_and, BitVec.getElem_or, BitVec.getElem_not]
  cases rw[i] <;> simp

/-! Accesses of registers with RW bits -/

/-- A register beyond the header that has RW bits rw, and no W1C or WO bits. -/
structure IsRw (c : PageClass) (off : Nat) (rw : Word) : Prop where
  row : ∃ r, findRow c.rows off = some r ∧ r.rw = rw ∧ r.w1c = 0 ∧ r.wo = 0
  beyondHeader : 0x20 ≤ off
  holds : rw ≠ 0

theorem selectorRegisters :
    IsRw .cache 0x50 0xF ∧ IsRw .part 0x80 0xFF ∧ IsRw .part 0xA0 0xF ∧ IsRw .farport 0x58 0xFF := by
  refine ⟨?_, ?_, ?_, ?_⟩ <;> exact ⟨⟨_, rfl, rfl, rfl, rfl⟩, by decide, by decide⟩

theorem dataRegisters : IsRw .map 0x74 0x7FF ∧ IsRw .map 0x804 0xFFFF ∧ IsRw .gate 0x48 0xFFFFF1FF := by
  refine ⟨?_, ?_, ?_⟩ <;> exact ⟨⟨_, rfl, rfl, rfl, rfl⟩, by decide, by decide⟩

/-- An accepted write stores the merged word in its unit, moves an AUTOINC selector on and is answered OK (R480). -/
theorem ends_rwWrite {s : State} {init : Initiator} {c : PageClass} {page off : Nat} {rw data : Word} {P : State → Prop}
    (hr : IsRw c off rw) (hw : s.hub.writable s.fuses init c page off data)
    (hP : P { s with
      hub := ((s.hub.store c page off (mergeRw rw (s.hub.show s.fuses c page off) data)).autoinc c off).respondMmio 0 0 }) :
    Ends (writeReg init page off data s) P := by
  obtain ⟨⟨r, hrow, rfl, hw1c, hwo⟩, hbeyond, hrw⟩ := hr
  obtain ⟨ht, r', hrow', hrefusal⟩ := hw
  obtain rfl : r = r' := Option.some.inj (hrow.symm.trans hrow')
  refine ⟨_, writeReg_accepted ht hbeyond hrow hrefusal, ?_⟩
  simpa only [Hub.applyWrite, mergeRw, hw1c, hwo, if_true, if_neg hrw] using hP

/-- A selector's write loads the staging copy by the word that it leaves, and that holds the index written in its low n bits. -/
theorem ends_selectorWrite {s : State} {init : Initiator} {c : PageClass} {page off n : Nat} {rw data : Word} {P : State → Prop}
    {load : Word → Hub} (hr : IsRw c off rw) (hc : c ≠ .map ∧ c ≠ .gate) (hmask : ∀ i < n, bit rw i = true)
    (hw : s.hub.writable s.fuses init c page off data) (hload : ∀ v, s.hub.store c page off v = load v)
    (hP : ∀ v : Word, bitsNat v 0 n = bitsNat data 0 n → (load v).mem = s.hub.mem →
      P { s with hub := (load v).respondMmio 0 0 }) : Ends (writeReg init page off data s) P := by
  refine ends_rwWrite hr hw ?_
  rw [Hub.autoinc_of_ne hc, hload]
  exact hP _ (bitsNat_mergeRw _ _ hmask) (hload _ ▸ (Hub.store_stores ..).1)

/-- A read that the page takes has its effects and is answered OK (R469, R480). -/
theorem readReg_taken {s : State} {init : Initiator} {c : PageClass} {page off : Nat} (ht : s.hub.takes init c page off false) :
    readReg init page off s = .next { s with
      hub := (s.hub.readEffects s.fuses init c page off).respondMmio (s.hub.readValue s.fuses init c page off) 0 } := by
  obtain ⟨hreset, hc, hf⟩ := ht
  simp only [readReg, onHub, Hub.regRead, hreset, hc, hf, Bool.false_eq_true, if_false]

/-! Staging copies (R122, R148, R323) -/

theorem Hub.rd64_wr64_mod (h : Hub) (p o v : Nat) : (h.wr64 p o v).rd64 p o = v % 2 ^ 64 := by
  rw [Hub.rd64, Hub.wr64, Hub.rd_wr_same, Hub.rd_wr_ne _ _ (by omega), Hub.rd_wr_same, BitVec.toNat_ofNat, BitVec.toNat_ofNat]
  omega

theorem Hub.rd64_respondMmio (h : Hub) (v : Word) (code : BitVec 3) (p o : Nat) : (h.respondMmio v code).rd64 p o = h.rd64 p o := rfl

theorem Hub.rd64_wr_ne (h : Hub) {p o o' : Nat} (v : Word) (hlo : o' ≠ o) (hhi : o' + 4 ≠ o) :
    (h.wr p o v).rd64 p o' = h.rd64 p o' := by
  rw [Hub.rd64, Hub.rd64, Hub.rd_wr_ne _ _ (by omega), Hub.rd_wr_ne _ _ (by omega)]

theorem Hub.rd_wr64_ne (h : Hub) {p o o' : Nat} (v : Nat) (hlo : o' ≠ o) (hhi : o' ≠ o + 4) :
    (h.wr64 p o v).rd p o' = h.rd p o' := by
  rw [Hub.wr64, Hub.rd_wr_ne _ _ (by omega), Hub.rd_wr_ne _ _ (by omega)]

theorem Hub.store_kwSel (h : Hub) (v : Word) : h.store .cache pCache 0x50 v = h.loadKw v := rfl
theorem Hub.store_pwSel (h : Hub) (v : Word) : h.store .part pPart 0x80 v = h.loadPw v := rfl
theorem Hub.store_hwSel (h : Hub) (v : Word) : h.store .part pPart 0xA0 v = h.loadHw v := rfl
theorem Hub.store_expSel (h : Hub) (v : Word) : h.store .farport pFarport 0x58 v = h.loadExp v := rfl

theorem Hub.loadKw_stages (h : Hub) (v : Word) : (h.loadKw v).rd pCache 0x50 = v ∧
    (h.loadKw v).rd64 pCache 0x54 = (h.kitty v.toNat).base % 2 ^ 64 ∧
    (h.loadKw v).rd pCache 0x5C = w32 (h.kitty v.toNat).units ∧ (h.loadKw v).rd pCache 0x60 = (h.kitty v.toNat).ctrl := by
  simp [Hub.loadKw, Hub.rd_wr, Hub.rd_wr64_ne, Hub.rd64_wr_ne, Hub.rd64_wr64_mod]

theorem Hub.loadPw_stages (h : Hub) (v : Word) : (h.loadPw v).rd pPart 0x80 = v ∧
    (h.loadPw v).rd64 pPart 0x84 = (h.peerWin v.toNat).base.toNat ∧ (h.loadPw v).rd pPart 0x8C = w32 (h.peerWin v.toNat).units ∧
    (h.loadPw v).rd pPart 0x90 = (h.peerWin v.toNat).target ∧ (h.loadPw v).rd pPart 0x94 = (h.peerWin v.toNat).ctrl := by
  simp [Hub.loadPw, Hub.rd_wr, Hub.rd_wr64_ne, Hub.rd64_wr_ne, Hub.rd64_wr64]

theorem Hub.loadHw_stages (h : Hub) (v : Word) : (h.loadHw v).rd pPart 0xA0 = v ∧
    (h.loadHw v).rd64 pPart 0xA4 = (h.hostWin v.toNat).base.toNat ∧ (h.loadHw v).rd pPart 0xAC = w32 (h.hostWin v.toNat).units ∧
    (h.loadHw v).rd pPart 0xB0 = (h.hostWin v.toNat).ctrl := by
  simp [Hub.loadHw, Hub.rd_wr, Hub.rd_wr64_ne, Hub.rd64_wr_ne, Hub.rd64_wr64]

theorem Hub.loadExp_stages (h : Hub) (v : Word) : (h.loadExp v).rd pFarport 0x58 = v ∧
    (h.loadExp v).rd pFarport 0x5C = (h.exp v.toNat).base ∧ (h.loadExp v).rd pFarport 0x60 = (h.exp v.toNat).size ∧
    (h.loadExp v).rd pFarport 0x64 = (h.exp v.toNat).peers ∧ (h.loadExp v).rd pFarport 0x68 = (h.exp v.toNat).ctrl := by
  simp [Hub.loadExp, Hub.rd_wr]

/-! Selectors with AUTOINC (R126, R271) -/

/-- A selector whose bit 31 is set moves on to the next of its 2 ^ n entries. -/
def Hub.moveOn (h : Hub) (page sel n : Nat) : Hub :=
  if bit (h.rd page sel) 31 then h.wrFld page sel 0 n (h.fld page sel 0 n + 1) else h

theorem Hub.autoinc_setData (h : Hub) : h.autoinc .map 0x74 = h.moveOn pMap 0x70 11 := rfl
theorem Hub.autoinc_deckData (h : Hub) : h.autoinc .map 0x804 = h.moveOn pMap 0x800 12 := rfl
theorem Hub.autoinc_entryData (h : Hub) : h.autoinc .gate 0x48 = h.moveOn pGate 0x44 6 := rfl

theorem Hub.fld_moveOn (h : Hub) (page sel : Nat) {n : Nat} (hn : n ≤ 32) :
    (h.moveOn page sel n).fld page sel 0 n = (h.fld page sel 0 n + (bit (h.rd page sel) 31).toNat) % 2 ^ n := by
  unfold Hub.moveOn
  split
  next hb => rw [Hub.fld, Hub.rd_wrFld, if_pos rfl, bitsNat_putBits _ _ (by omega), hb, Bool.toNat_true]
  next hb => rw [Bool.eq_false_of_not_eq_true hb, Bool.toNat_false, Nat.add_zero, Hub.fld, bitsNat, Nat.mod_mod]

@[simp] theorem Hub.moveOn_keeps (h : Hub) (page sel n : Nat) : (h.moveOn page sel n).amap = h.amap ∧
    (h.moveOn page sel n).tm = h.tm ∧ (h.moveOn page sel n).mem = h.mem := by
  unfold Hub.moveOn
  split <;> simp

/-! Entries of the tables -/

/-- The set table with entry i replaced (R117). -/
def Hub.putSetEntry (h : Hub) (i : Nat) (v : BitVec 11) : Hub :=
  h.setAmap { h.amap with setTable := SMap.set (fun _ => 0) h.amap.setTable i v }

/-- The deck of partition p with entry i replaced. -/
def Hub.putDeckEntry (h : Hub) (p i : Nat) (v : BitVec 16) : Hub :=
  h.setAmap { h.amap with deck := SMap.set (fun _ => 0) h.amap.deck (p * 4096 + i) v }

/-- Bank b of list l with entry i replaced. -/
def Hub.putGateEntry (h : Hub) (l b i : Nat) (v : Word) : Hub :=
  h.setTm { h.tm with entries := SMap.set (fun _ => 0) h.tm.entries ((l * 2 + b) * 64 + i) v }

theorem Hub.store_setData (h : Hub) (v : Word) :
    h.store .map pMap 0x74 v = h.putSetEntry (h.fld pMap 0x70 0 11) (v.setWidth 11) := rfl
theorem Hub.store_deckData (h : Hub) (v : Word) :
    h.store .map pMap 0x804 v = h.putDeckEntry (h.fld pMap 0x800 16 6) (h.fld pMap 0x800 0 12) (v.setWidth 16) := rfl
theorem Hub.store_entryData (h : Hub) (v : Word) :
    h.store .gate pGate 0x48 v = h.putGateEntry h.gateSel.1 h.gateSel.2 (h.fld pGate 0x44 0 6) v := rfl

theorem Hub.setEntry_putSetEntry (h : Hub) (i j : Nat) (v : BitVec 11) :
    (h.putSetEntry i v).setEntry j = if j = i then v.toNat else h.setEntry j := by
  simp only [Hub.setEntry, Hub.putSetEntry, Hub.setAmap_fields, SMap.get_set, apply_ite BitVec.toNat]

theorem Hub.deckEntry_putDeckEntry (h : Hub) (p i : Nat) (v : BitVec 16) : (h.putDeckEntry p i v).deckEntry p i = v.toNat := by
  simp [Hub.deckEntry, Hub.putDeckEntry]

theorem Hub.gateEntry_putGateEntry (h : Hub) (l b i : Nat) (v : Word) : (h.putGateEntry l b i v).gateEntry l b i = v := by
  simp [Hub.gateEntry, Hub.putGateEntry]

@[simp] theorem Hub.setEntry_moveOn (h : Hub) (page sel n i : Nat) : (h.moveOn page sel n).setEntry i = h.setEntry i := by
  simp [Hub.setEntry]
@[simp] theorem Hub.deckEntry_moveOn (h : Hub) (page sel n p i : Nat) : (h.moveOn page sel n).deckEntry p i = h.deckEntry p i := by
  simp [Hub.deckEntry]
@[simp] theorem Hub.gateEntry_moveOn (h : Hub) (page sel n l b i : Nat) :
    (h.moveOn page sel n).gateEntry l b i = h.gateEntry l b i := by
  simp [Hub.gateEntry]

theorem Hub.show_setData (h : Hub) (f : Fuses) :
    h.show f .map pMap 0x74 = BitVec.ofNat 32 (h.setEntry (h.fld pMap 0x70 0 11)) := BitVec.and_allOnes

theorem Hub.show_entryData (h : Hub) (f : Fuses) :
    h.show f .gate pGate 0x48 = h.gateEntry h.gateSel.1 h.gateSel.2 (h.fld pGate 0x44 0 6) := BitVec.and_allOnes

theorem Hub.readEffects_setData (h : Hub) (f : Fuses) (init : Initiator) :
    h.readEffects f init .map pMap 0x74 = h.moveOn pMap 0x70 11 := rfl

theorem Hub.readValue_setData (h : Hub) (f : Fuses) (init : Initiator) :
    h.readValue f init .map pMap 0x74 = BitVec.ofNat 32 (h.setEntry (h.fld pMap 0x70 0 11)) :=
  (if_neg (by decide)).trans (h.show_setData f)

/-- Settles O51: a selector's write runs the load of its staging copy, a data register's write or read reaches one entry and moves its
selector on. -/
theorem selectorsLoadAndTablesAreReached : Obligations.SelectorsLoadAndTablesAreReached := by
  obtain ⟨kwSel, pwSel, hwSel, expSel⟩ := selectorRegisters
  obtain ⟨setData, deckData, entryData⟩ := dataRegisters
  unfold Obligations.SelectorsLoadAndTablesAreReached
  refine ⟨fun s init data hw => ?_, fun s init data hw => ?_, fun s init data hw => ?_, fun s init data hw => ?_,
    fun s init data hw => ?_, fun s init ht => ?_, fun s init data hw => ?_, fun s init data hw => ?_⟩
  · refine ends_selectorWrite (n := 4) kwSel (by decide) (by decide) hw s.hub.store_kwSel fun v hv hmem => ?_
    obtain ⟨hsel, hbase, hunits, hctrl⟩ := s.hub.loadKw_stages v
    simp only [Hub.rd_respondMmio, Hub.rd64_respondMmio]
    exact ⟨v, hsel, hv, hbase, hunits, hctrl, rfl, hmem⟩
  · refine ends_selectorWrite (n := 8) pwSel (by decide) (by decide) hw s.hub.store_pwSel fun v hv hmem => ?_
    obtain ⟨hsel, hbase, hunits, htarget, hctrl⟩ := s.hub.loadPw_stages v
    simp only [Hub.rd_respondMmio, Hub.rd64_respondMmio]
    exact ⟨v, hsel, hv, hbase, hunits, htarget, hctrl, rfl, hmem⟩
  · refine ends_selectorWrite (n := 4) hwSel (by decide) (by decide) hw s.hub.store_hwSel fun v hv hmem => ?_
    obtain ⟨hsel, hbase, hunits, hctrl⟩ := s.hub.loadHw_stages v
    simp only [Hub.rd_respondMmio, Hub.rd64_respondMmio]
    exact ⟨v, hsel, hv, hbase, hunits, hctrl, rfl, hmem⟩
  · refine ends_selectorWrite (n := 8) expSel (by decide) (by decide) hw s.hub.store_expSel fun v hv hmem => ?_
    obtain ⟨hsel, hbase, hsize, hpeers, hctrl⟩ := s.hub.loadExp_stages v
    simp only [Hub.rd_respondMmio]
    exact ⟨v, hsel, hv, hbase, hsize, hpeers, hctrl, rfl, hmem⟩
  · refine ends_rwWrite setData hw ?_
    rw [Hub.autoinc_setData, Hub.store_setData]
    refine ⟨?_, fun i hi => ?_, Hub.fld_moveOn _ pMap 0x70 (by decide), (Hub.moveOn_keeps ..).2.2⟩
    · refine (Hub.setEntry_moveOn ..).trans ((Hub.setEntry_putSetEntry ..).trans ((if_pos rfl).trans ?_))
      rw [toNat_setWidth_eq_bitsNat, bitsNat_mergeRw _ _ (by decide)]
    · exact (Hub.setEntry_moveOn ..).trans ((Hub.setEntry_putSetEntry ..).trans (if_neg hi))
  · refine ⟨_, readReg_taken ht, ?_⟩
    rw [Hub.readEffects_setData, Hub.readValue_setData]
    exact ⟨rfl, Hub.fld_moveOn _ pMap 0x70 (by decide), (Hub.moveOn_keeps ..).2.2⟩
  · refine ends_rwWrite deckData hw ?_
    rw [Hub.autoinc_deckData, Hub.store_deckData]
    refine ⟨?_, Hub.fld_moveOn _ pMap 0x800 (by decide), (Hub.moveOn_keeps ..).2.2⟩
    refine (Hub.deckEntry_moveOn ..).trans ((Hub.deckEntry_putDeckEntry ..).trans ?_)
    rw [toNat_setWidth_eq_bitsNat, bitsNat_mergeRw _ _ (by decide)]
  · refine ends_rwWrite entryData hw ?_
    rw [Hub.autoinc_entryData, Hub.store_entryData, Hub.show_entryData]
    have hentry (v : Word) := (Hub.gateEntry_moveOn _ pGate 0x44 6 ..).trans
      (s.hub.gateEntry_putGateEntry s.hub.gateSel.1 s.hub.gateSel.2 (s.hub.fld pGate 0x44 0 6) v)
    refine ⟨?_, ?_, Hub.fld_moveOn _ pGate 0x44 (by decide), (Hub.moveOn_keeps ..).2.2⟩
    · exact (congrArg (· &&& 0xFFFFF1FF) (hentry _)).trans (mergeRw_and_rw ..)
    · exact (congrArg (· &&& 0xE00) (hentry _)).trans (mergeRw_and_outside _ _ (by decide))

end Sys2Proof.Machine

end

section

/-! SUPPORT. Reduction updates, arriving sectors and narrow returns: O26. -/

namespace Sys2Proof.Machine

/-! Reduction updates (R172, R173) -/

/-- The update of a line in REDUCING that has all it needs: the line takes the computed elements and the operation leaves. -/
theorem Hub.updateEnd_of_reducing {h h1 h2 : Hub} {p l k : Nat} {o o' : LineOp} {x : Line}
    (hfirst : h.lines.ordered.find? (fun o => o.part.toNat == p && o.line == l) = some o) (hkind : o.kind = .reduce)
    (hway : h.findWay p l = some k) (hst : (h.way k).st = .reducing) (hread : h.readTarget o = (o', h1))
    (hpresent : o'.sectors &&& ~~~(h1.way k).v = 0) (hcompute : h1.computeUpdate o' (h1.way k).data = (x, h2)) :
    h.updateEnd p l =
      ((h2.putWay k { h1.way k with
          st := .valid, m := (h1.way k).m ||| (o'.sectors &&& ~~~o'.skip), data := x
          flaw := rewritten (h1.way k).flaw (o'.sectors &&& ~~~o'.skip) }).dropOp o'.id).settleOn := by
  have hreduce : ¬ (o.kind != .reduce) = true := by simp [hkind]
  have hreducing : ¬ (h.way k).st ≠ .reducing := not_not_intro hst
  have hnothingLost : ¬ o'.sectors &&& ~~~(h1.way k).v ≠ 0 := not_not_intro hpresent
  simp only [Hub.updateEnd, hfirst, if_neg hreduce, hway, if_neg hreducing, hread, if_neg hnothingLost, hcompute]

/-! Arriving sectors (R134, R331, R333) -/

/-- A fetch that lost nothing and whose MAC agrees reports nothing and poisons nothing. -/
theorem Hub.reportFound_of_good (h : Hub) (f : Fetch) {r : Found} (source : Nat) (hlost : r.lost = []) (hmac : r.macFail = false) :
    h.reportFound f r source = h := by
  simp [Hub.reportFound, hlost, hmac]

/-- Good sectors are placed, and what waits for them is served first. -/
theorem Hub.dataArrival_of_good {h h1 : Hub} {f : Fetch} {errs : Flips} {r : Found} (hjudge : h.judge f errs = (r, h1))
    (hlost : r.lost = []) (hmac : r.macFail = false) :
    h.dataArrival f errs =
      (((((h1.placeFetch f r).reduceLost f r).dropFetch f.id).settleLine f.part f.line).orderClears).advanceRepairs := by
  have hstays : ¬ (r.lost ≠ [] ∧ h1.fromTarget f = true) := fun hc => hc.1 hlost
  simp only [Hub.dataArrival, hjudge, if_neg hstays, h1.reportFound_of_good f _ hlost hmac]

/-- The operations that wait for a fetch no longer do. -/
def Hub.freeWaiting (h : Hub) (id : Nat) : Hub :=
  h.setLines { h.lines with ordered := h.lines.ordered.map fun o => if o.fetch = id then { o with fetch := 0 } else o }

theorem Hub.freeWaiting_fetches (h : Hub) (id : Nat) : (h.freeWaiting id).lines.fetches = h.lines.fetches := rfl
theorem Hub.freeWaiting_cache (h : Hub) (id : Nat) : (h.freeWaiting id).cache = h.cache := rfl

/-- A clean metadata sector fetched for the metadata caches enters them, and what waited for it goes on. -/
theorem Hub.metaArrival_of_clean {h : Hub} {f : Fetch} {errs : Flips} {w : Nat × Code} {i : Nat} (hkind : f.kind = .word)
    (hi : (List.range 4).find? (bit f.want) = some i) (hwords : f.words = [w])
    (hclean : (rsDecode (received w.2 errs w.1)).1 = .clean) :
    h.metaArrival f errs =
      ((((h.dropFetch f.id).landSector f.slab f.off i).freeWaiting f.id).gatherOn.settleOn).advanceRepairs := by
  have hfound : (f.words.map fun w => (rsDecode (received w.2 errs w.1)).1).headD .clean = .clean := by
    rw [hwords, List.map_cons, hclean, List.headD_cons]
  have hstays : ¬ (Judged.clean = .uncorrectable ∧ h.fromTarget f = true) := by simp
  have hnotRmw : ¬ f.kind = .rmw := by simp [hkind]
  simp only [Hub.metaArrival, hfound, if_neg hstays, if_neg hnotRmw, hi, Option.getD_some]
  rfl

/-- A whole fetch made for a line's sectors arrives as data. -/
theorem Hub.fillArrival_of_data {h : Hub} {id : Nat} {f : Fetch} (errs : Flips) (hfind : h.findFetch id = some f)
    (hgot : f.got = f.want)
    (hkind : f.kind = .fill ∨ f.kind = .merge ∨ f.kind = .reduce ∨ f.kind = .wb ∨ f.kind = .clear) :
    h.fillArrival id errs = h.dataArrival f errs := by
  have hwhole : ¬ f.got ≠ f.want := not_not_intro hgot
  simp only [Hub.fillArrival, hfind, if_neg hwhole]
  rcases hkind with hk | hk | hk | hk | hk <;> rw [hk]

/-- A whole fetch made for a metadata cache arrives as metadata. -/
theorem Hub.fillArrival_of_word {h : Hub} {id : Nat} {f : Fetch} (errs : Flips) (hfind : h.findFetch id = some f)
    (hgot : f.got = f.want) (hkind : f.kind = .word) : h.fillArrival id errs = h.metaArrival f errs := by
  have hwhole : ¬ f.got ≠ f.want := not_not_intro hgot
  simp only [Hub.fillArrival, hfind, if_neg hwhole]
  rw [hkind]

/-! Narrow returns (R147) -/

/-- The good bytes of a narrow read of a line that is not poisoned answer it. -/
theorem Hub.narrowReturn_of_good {h h1 : Hub} {id : Nat} {f : Fetch} {errs : Flips} {r : Found} {o : LineOp}
    (hfind : h.findFetch id = some f) (hgot : f.got = f.want) (hkind : f.kind = .narrow) (hjudge : h.judge f errs = (r, h1))
    (hlost : r.lost = []) (hmac : r.macFail = false)
    (hop : (h1.dropFetch id).lines.ordered.find? (fun o => o.id == f.op) = some o)
    (hpoison : ((h1.dropFetch id).lineMeta f.part.toNat f.line).poison = false) :
    h.narrowReturn id errs =
      ((h1.dropFetch id).finishRead o 0 (r.data.map (·.2)) (decide (o.hdr.hint = 3))).settleOn := by
  have hwhole : ¬ (f.kind ≠ .narrow ∨ f.got ≠ f.want) := by simp [hkind, hgot]
  have hstays : ¬ (r.lost ≠ [] ∧ h1.fromTarget f = true) := fun hc => hc.1 hlost
  simp only [Hub.narrowReturn, hfind, if_neg hwhole, hjudge, if_neg hstays, h1.reportFound_of_good f _ hlost hmac, hop, hpoison,
    Bool.false_eq_true, if_false]

/-! Room in the journal's queue (R461) -/

/-- With room in the journal's queue a command that may leave an entry takes its effect. -/
theorem becomes_withRoom {s : State} {f : Hub → Hub} {h : Hub} (hroom : s.hub.journalFull = false) (e : f s.hub = h) :
    Becomes (onHub s fun h => h.withRoom f) s h :=
  becomes_onHub (f := fun h => h.withRoom f) ((Hub.withRoom_free f hroom).trans e)

/-- Settles O26: the reduction unit's update, the arrivals of good sectors and of a metadata sector, and the narrow return. -/
theorem updatesAndFetchesEnd : Obligations.UpdatesAndFetchesEnd := by
  unfold Obligations.UpdatesAndFetchesEnd
  refine ⟨fun s part line o o' k x h h' hfirst hkind hway hst hread hpresent hcompute => ?_,
    fun s id errs f r h hfind hgot hkind hroom hjudge hlost hmac => ?_,
    fun s id errs f w i hfind hgot hkind hroom hi hwords hclean => ?_,
    fun s id errs f r h o hfind hgot hkind hroom hjudge hlost hmac hop hpoison => ?_⟩
  · exact becomes_onHub (f := fun h => h.updateEnd part.toNat line.toNat)
      (Hub.updateEnd_of_reducing hfirst hkind hway hst hread hpresent hcompute)
  · exact becomes_withRoom (f := fun h => h.fillArrival id errs) hroom
      ((Hub.fillArrival_of_data errs hfind hgot hkind).trans (Hub.dataArrival_of_good hjudge hlost hmac))
  · exact ⟨((s.hub.dropFetch f.id).landSector f.slab f.off i).freeWaiting f.id, Hub.freeWaiting_fetches .., Hub.freeWaiting_cache ..,
      becomes_withRoom (f := fun h => h.fillArrival id errs) hroom
        ((Hub.fillArrival_of_word errs hfind hgot hkind).trans (Hub.metaArrival_of_clean hkind hi hwords hclean))⟩
  · exact becomes_withRoom (f := fun h => h.narrowReturn id errs) hroom
      (Hub.narrowReturn_of_good hfind hgot hkind hjudge hlost hmac hop hpoison)

end Sys2Proof.Machine

end

section

/-! SUPPORT. Requests that their arbiter passes at once: O20. -/

namespace Sys2Proof.Machine

/-- A request that its arbiter's next choice passes leaves the hub as that choice does (R187, R249). -/
theorem Hub.passSoon_of_passes {h : Hub} {id : Nat} {port : BitVec 5} (hpass : h.passesAtOnce id port) :
    h.passSoon (.port port) id = h.choose (port.toNat / 2) := by
  simp only [Hub.passSoon, Src.arb]
  split
  · next r hr => exact if_neg (hpass r hr)
  · rfl

theorem Hub.acceptNow_of_passes {h g : Hub} {id : Nat} {port : BitVec 5} {hd : Header} {flits : List Sector}
    (haccept : h.accept port hd flits = (id, g)) (hid : id ≠ 0) (hpass : g.passesAtOnce id port) :
    h.acceptNow port hd flits = g.choose (port.toNat / 2) := by
  simp only [Hub.acceptNow, haccept, if_neg hid, Hub.passSoon_of_passes hpass]

/-- A command whose operands make one command of the table becomes what its change of the hub gives. -/
theorem becomes_onHubIf {ok : Bool} {s : State} {f : Hub → Hub} {h : Hub} (hok : ok = true) (e : f s.hub = h) :
    Becomes (onHubIf ok s f) s h := onHubIf_next.mpr ⟨hok, by rw [e]⟩

/-- Settles O20: each of the seven requests is accepted and then passed by one rule. -/
theorem immediateRequestsPass : Obligations.ImmediateRequestsPass := by
  unfold Obligations.ImmediateRequestsPass
  intro s port hd flits id h haccept hid hpass
  have passed {ok : Bool} (hok : ok = true) :
      Becomes (onHubIf ok s fun h => h.acceptNow port hd flits) s (h.choose (port.toNat / 2)) :=
    becomes_onHubIf (f := fun h => h.acceptNow port hd flits) hok (Hub.acceptNow_of_passes haccept hid hpass)
  have bare {o : BitVec 4} (ho : hd.opcode = o) (hflits : flits = []) :
      Becomes (onHubIf (wfOp o hd) s fun h => h.acceptNow port hd []) s (h.choose (port.toNat / 2)) :=
    hflits ▸ passed (by simp [wfOp, ho])
  exact ⟨bare, fun ho hl => passed (by simp [wfData, wfOp, ho, hl]), bare, bare, bare, bare, bare⟩

end Sys2Proof.Machine
end

section

/-! SUPPORT. The records of the tricks and of the page manager: what leaves them as they were, and what the making present of a line
does to the tricks (R193, R194). -/

namespace Sys2Proof.Machine

/-! Operations that leave both records -/

/-- The records of the tricks and of the page manager of g are those of h. -/
@[simp] abbrev Hub.SameRecords (g h : Hub) : Prop := g.tricks = h.tricks ∧ g.pages = h.pages

@[simp] theorem Hub.ite_records (c : Prop) [Decidable c] (a b : Hub) :
    (if c then a else b : Hub).tricks = (if c then a.tricks else b.tricks) ∧
    (if c then a else b : Hub).pages = (if c then a.pages else b.pages) :=
  ⟨apply_ite .., apply_ite ..⟩

@[simp] theorem foldl_records {α : Type} (f : Hub → α → Hub) (H : ∀ h a, (f h a).SameRecords h) (l : List α) (h : Hub) :
    (l.foldl f h).SameRecords h :=
  ⟨foldl_keeps Hub.tricks f (fun h a => (H h a).1) l h, foldl_keeps Hub.pages f (fun h a => (H h a).2) l h⟩

@[simp] theorem Hub.giveBackDma_records (h : Hub) (wr : Bool) (c : Nat) : (h.giveBackDma wr c).SameRecords h := by
  simp [Hub.giveBackDma]

/-- An answer touches neither record. -/
@[simp] theorem Hub.answer_records (h : Hub) (id idx code result : Nat) (data : List Sector) :
    (h.answer id idx code result data).SameRecords h := by
  unfold Hub.answer
  split
  · exact ⟨rfl, rfl⟩
  · next r _ =>
    extract_lets r' last h1 lat isRead ev h2 h3 h4
    have e4 : h4.SameRecords h := by simp [h4, h3, h2, h1, ev]
    clear_value h4
    cases r.src with
    | port p => simp [e4]
    | dma c =>
      dsimp only
      split <;> simp [e4]
    | remote ctx => exact e4
    | dump =>
      dsimp only
      split
      · exact e4
      · simp [e4]
    | kitty => exact e4

@[simp] theorem Hub.engCount_records (h : Hub) (pcIdx ev amt : Nat) (part : Option (BitVec 6)) :
    (h.engCount pcIdx ev amt part).SameRecords h := by simp [Hub.engCount]

@[simp] theorem Hub.fresh_records (h : Hub) : h.fresh.2.SameRecords h := ⟨rfl, rfl⟩
@[simp] theorem Hub.dropFetch_records (h : Hub) (id : Nat) : (h.dropFetch id).SameRecords h := ⟨rfl, rfl⟩

@[simp] theorem Hub.capture_records (h : Hub) (id sector : Nat) (w : Code) : (h.capture id sector w).SameRecords h := by
  unfold Hub.capture
  split <;> exact ⟨rfl, rfl⟩

@[simp] theorem Hub.pushRead_records (h : Hub) (e : RdEntry) : (h.pushRead e).SameRecords h := by
  unfold Hub.pushRead
  dsimp only
  split <;> simp

@[simp] theorem Hub.openFetch_records (h : Hub) (f : Fetch) : (h.openFetch f).2.SameRecords h := by simp [Hub.openFetch]

@[simp] theorem Hub.bgFetch_records (h : Hub) (kind : FetchKind) (p : BitVec 6) (l ps s k : Nat) (want : BitVec 4) :
    (h.bgFetch kind p l ps s k want).2.SameRecords h := by simp [Hub.bgFetch]

@[simp] theorem Hub.fetchOf_records (h : Hub) (kind : FetchKind) (p l ps k off : Nat) (want : BitVec 4) (c : Cause) (op : Nat) :
    (h.fetchOf kind p l ps k off want c op).2.SameRecords h := by simp [Hub.fetchOf]

@[simp] theorem Hub.startFetch_records (h : Hub) (kind : FetchKind) (p l : Nat) (want : BitVec 4) (c : Cause) (op : Nat) :
    (h.startFetch kind p l want c op).2.SameRecords h := by
  unfold Hub.startFetch
  split <;> simp

@[simp] theorem Hub.fetchWord_records (h : Hub) (p l : Nat) (c : Cause) : (h.fetchWord p l c).2.SameRecords h := by
  unfold Hub.fetchWord Hub.fetchWordAt
  split
  · simp
  · dsimp only
    split <;> simp

/-! Metadata words and sectors read in the slices -/

@[simp] theorem Hub.setWords_records (h : Hub) (ws : List MetaWord) : (h.setWords ws).SameRecords h := ⟨rfl, rfl⟩
@[simp] theorem Hub.dropWords_records (h : Hub) (f : MetaWord → Bool) : (h.dropWords f).SameRecords h := ⟨rfl, rfl⟩

@[simp] theorem Hub.cacheWord_records (h : Hub) (k s : Nat) (m : Meta) : (h.cacheWord k s m).SameRecords h := by
  unfold Hub.cacheWord Hub.enterWord
  split <;> simp

@[simp] theorem Hub.putMeta_records (h : Hub) (k s : Nat) (m : Meta) : (h.putMeta k s m).SameRecords h := by
  simp [Hub.putMeta, Hub.startRmw]

@[simp] theorem Hub.poisonLine_records (h : Hub) (p l : Nat) : (h.poisonLine p l).SameRecords h := by
  unfold Hub.poisonLine Hub.putLineMeta
  dsimp only
  repeat' split
  all_goals simp

@[simp] theorem Hub.noteCacheUe_records (h : Hub) : h.noteCacheUe.SameRecords h := by simp [Hub.noteCacheUe]
@[simp] theorem Hub.noteCacheCe_records (h : Hub) : h.noteCacheCe.SameRecords h := by simp [Hub.noteCacheCe]

@[simp] theorem Hub.readWord_records (h : Hub) (k s : Nat) : (h.readWord k s).SameRecords h := by
  unfold Hub.readWord
  dsimp only
  repeat' split
  all_goals simp

@[simp] theorem Hub.readLineWord_records (h : Hub) (p l : Nat) : (h.readLineWord p l).SameRecords h := by
  unfold Hub.readLineWord
  split <;> simp

@[simp] theorem Hub.readUnit_records (h : Hub) (k i : Nat) : (h.readUnit k i).SameRecords h := by
  unfold Hub.readUnit
  dsimp only
  split <;> simp

@[simp] theorem Hub.readWay_records (h : Hub) (k : Nat) (mask : BitVec 4) : (h.readWay k mask).SameRecords h := by
  simp [Hub.readWay]

@[simp] theorem Hub.putWb_records (h : Hub) (e : WbEntry) : (h.putWb e).SameRecords h := ⟨rfl, rfl⟩
@[simp] theorem Hub.dropWb_records (h : Hub) (p l : Nat) : (h.dropWb p l).SameRecords h := ⟨rfl, rfl⟩

@[simp] theorem Hub.readWb_records (h : Hub) (p l : Nat) (mask : BitVec 4) : (h.readWb p l mask).SameRecords h := by
  refine foldl_records _ (fun h i => ?_) _ h
  dsimp only
  repeat' split
  all_goals simp

@[simp] theorem Hub.readUnits_records (h : Hub) (p l : Nat) (mask : BitVec 4) : (h.readUnits p l mask).SameRecords h := by
  unfold Hub.readUnits
  split <;> simp

/-! Ways and write-back entries -/

@[simp] theorem Hub.fillWay_records (h : Hub) (k : Nat) (x : Line) (dirty : Bool) : (h.fillWay k x dirty).SameRecords h := ⟨rfl, rfl⟩

@[simp] theorem Hub.dropTags_records (h : Hub) (p l : Nat) : (h.dropTags p l).SameRecords h := by
  unfold Hub.dropTags
  split <;> simp

@[simp] theorem Hub.askTags_records (h : Hub) (p l : Nat) (want : BitVec 4) : (h.askTags p l want).SameRecords h := by
  unfold Hub.askTags
  repeat' split
  all_goals simp

@[simp] theorem Hub.unchoose_records (h : Hub) (p l : Nat) : (h.unchoose p l).SameRecords h := ⟨rfl, rfl⟩
@[simp] theorem Hub.setChosen_records (h : Hub) (v : List (Nat × Nat × Nat)) : (h.setChosen v).SameRecords h := ⟨rfl, rfl⟩

@[simp] theorem Hub.rerank_records (h : Hub) (ks : List Nat) : (h.rerank ks).SameRecords h := by simp [Hub.rerank]
@[simp] theorem Hub.protect_records (h : Hub) (set k : Nat) : (h.protect set k).SameRecords h := by simp [Hub.protect]

@[simp] theorem Hub.touch_records (h : Hub) (k hint : Nat) (insert : Bool) : (h.touch k hint insert).SameRecords h := by
  simp [Hub.touch]

@[simp] theorem Hub.dropLine_records (h : Hub) (p l : Nat) : (h.dropLine p l).SameRecords h := by
  unfold Hub.dropLine
  split <;> simp

@[simp] theorem Hub.retag_records (h : Hub) (p l : Nat) : (h.retag p l).SameRecords h := by
  unfold Hub.retag
  split <;> simp

/-! Lines that tricks lose while they are made present (R194) -/

/-- The tricks of g are those of h, but for the lines each has lost since its phase one (R194). -/
def Hub.LosesOnlyLines (g h : Hub) : Prop := ∀ i, ∃ ls, g.trick i = { h.trick i with lost := ls }

theorem Hub.LosesOnlyLines.of_records {g h : Hub} (e : g.SameRecords h) : g.LosesOnlyLines h :=
  fun i => ⟨(h.trick i).lost, by rw [Hub.trick, e.1]; rfl⟩

theorem Hub.LosesOnlyLines.refl (h : Hub) : h.LosesOnlyLines h := .of_records ⟨rfl, rfl⟩

theorem Hub.LosesOnlyLines.trans {f g h : Hub} (a : f.LosesOnlyLines g) (b : g.LosesOnlyLines h) : f.LosesOnlyLines h := by
  intro i
  obtain ⟨ls, hf⟩ := a i
  obtain ⟨_, hg⟩ := b i
  exact ⟨ls, by rw [hf, hg]⟩

/-- What leaves the records of g as they were loses no line more than g has lost. -/
theorem Hub.LosesOnlyLines.then_records {f g h : Hub} (b : g.LosesOnlyLines h) (e : f.SameRecords g) : f.LosesOnlyLines h :=
  (of_records e).trans b

/-- A map whose every entry stays in its place holds at each key what is related to what stood there, when each entry is. -/
theorem SMap.get_map_rel {α : Type} {R : α → α → Prop} (d : Nat → α) {f : Nat × α → Nat × α} (hkey : ∀ e, (f e).1 = e.1)
    (hrel : ∀ e, R (f e).2 e.2) (hrefl : ∀ k, R (d k) (d k)) (m : SMap α) (k : Nat) :
    R (SMap.get d (m.map f) k) (SMap.get d m k) := by
  induction m with
  | nil => exact hrefl k
  | cons e m ih =>
    rw [List.map_cons, SMap.get, SMap.get, hkey]
    split
    · exact hrel e
    · exact ih

theorem Hub.noteEvicted_losesOnlyLines (h : Hub) (p l : Nat) : (h.noteEvicted p l).LosesOnlyLines h := fun i =>
  SMap.get_map_rel (R := fun t u : Trick => ∃ ls, t = { u with lost := ls }) _ (fun e => by split <;> rfl)
    (fun e => by
      split
      · exact ⟨_, rfl⟩
      · exact ⟨_, rfl⟩)
    (fun _ => ⟨_, rfl⟩) h.tricks i

theorem Hub.evict_losesOnlyLines {h g : Hub} {k : Nat} (he : h.evict k = some g) : g.LosesOnlyLines h := by
  unfold Hub.evict at he
  extract_lets w0 n h1 w p h2 e at he
  have lost : h2.LosesOnlyLines h :=
    (Hub.noteEvicted_losesOnlyLines _ p w.line).trans (.of_records (by simp [h1]))
  clear_value h2
  split_ifs at he <;> cases he
  · exact .of_records (by simp)
  · exact lost
  · exact lost.then_records (by simp)

theorem Hub.allocate_losesOnlyLines (h : Hub) (p l hint : Nat) : (h.allocate p l hint).2.LosesOnlyLines h := by
  unfold Hub.allocate
  extract_lets set base fillIn plain
  have hfill (h : Hub) (k : Nat) (w : Way) : (fillIn h k w).SameRecords h := by
    simp only [fillIn]
    split <;> simp
  have hplain (h : Hub) (hint : Nat) : (plain h hint).2.LosesOnlyLines h := by
    simp only [plain]
    split
    · exact .refl h
    · split
      · exact .of_records (by simp)
      · next he => exact (Hub.evict_losesOnlyLines he).then_records (by simp [hfill])
  split
  · exact hplain h hint
  · dsimp only
    split
    · exact .of_records (hfill ..)
    · have hp := hplain h 0
      split
      · next he => exact (he ▸ hp).then_records (by simp)
      · exact hp

/-- A line made present takes from the tricks at most the lines of the way it is given (R193, R194). -/
theorem Hub.gather_losesOnlyLines (h : Hub) (p l : Nat) (c : Cause) : (h.gather p l c).LosesOnlyLines h := by
  unfold Hub.gather
  extract_lets fill h1 h2
  have hfill (h : Hub) (k : Nat) (want : BitVec 4) : (fill h k want).SameRecords h := by simp [fill]
  have e1 : h1.SameRecords h := by simp [h1]
  have e2 : h2.SameRecords h := by simp [h2, h1]
  clear_value h1 h2 fill
  split
  · exact .of_records (by simp [e1])
  · split
    · dsimp only
      split
      · exact .of_records e2
      · exact .of_records (by simp [hfill, e2])
    · have ha : (h2.allocate p l 0).2.LosesOnlyLines h := (h2.allocate_losesOnlyLines p l 0).trans (.of_records e2)
      split
      · exact .of_records e2
      · split
        · next he => simpa only [he] using ha
        · next he =>
          rw [he] at ha
          exact ha.then_records (by simp [hfill])

theorem Hub.gatherAll_losesOnlyLines (h : Hub) (p : Nat) (c : Cause) (ls : List Nat) :
    (ls.foldl (fun h l => h.gather p l c) h).LosesOnlyLines h := by
  induction ls generalizing h with
  | nil => exact .refl h
  | cons l ls ih => exact (ih _).trans (h.gather_losesOnlyLines p l c)

end Sys2Proof.Machine
end

section

/-! SUPPORT. What a passed trick request does to its slot: O21. -/

namespace Sys2Proof.Machine

/-! Staging (R184 to R192) -/

@[simp] theorem Hub.trick_answer (h : Hub) (id idx code result : Nat) (data : List Sector) (i : Nat) :
    (h.answer id idx code result data).trick i = h.trick i := by
  simp only [Hub.trick, (h.answer_records id idx code result data).1]

@[simp] theorem Hub.trick_putTrick_same (h : Hub) (i : Nat) (t : Trick) : (h.putTrick i t).trick i = t := by
  rw [Hub.trick_putTrick, if_pos rfl]

/-- An OPEN takes the lowest FREE slot of its segment (R184, R187). -/
theorem Hub.trick_recordOpen {h : Hub} {r : Req} {p : BitVec 5} {i : Nat} (hsrc : r.src = .port p)
    (hfree : (List.range 64).find? (fun j => (h.trick (64 * (p.toNat / 8) + j)).st == 0) = some i) :
    (h.recordOpen r).trick (64 * (p.toNat / 8) + i) =
      { Trick.free with st := 1, port := p, part := r.hdr.part, opened := h.now, limit := h.fld pTrick 0x48 0 16 } := by
  have hslot : ((List.range 64).map (fun j => 64 * (p.toNat / 8) + j)).find? (fun j => (h.trick j).st == 0) =
      some (64 * (p.toNat / 8) + i) := by
    rw [List.find?_map]
    exact congrArg (Option.map _) hfree
  simp only [Hub.recordOpen, hsrc, Src.seg, hslot, Hub.trick_answer, Hub.trick_putTrick_same]

/-- A COMPARE of an OPEN slot with room for it stages its condition (R188, R191); the line it may ask for changes the slot only in what
it has lost. -/
theorem Hub.trick_recordCompare {h : Hub} {r : Req} {t : Trick} (ht : h.trick r.hdr.trickId.toNat = t) (howns : t.owns r = true)
    (hst : t.st = 1) (hsize : t.tooLarge = 0) (hroom : t.conds.length < 4) :
    ∃ ls, (h.recordCompare r).trick r.hdr.trickId.toNat =
      { t with conds := t.conds ++ [⟨r.line, r.hdr.operand64, bit r.hdr.mod 0⟩], lost := ls } := by
  have hopen : ¬ (t.st ≠ 1 ∨ (!t.owns r) = true) := by simp [hst, howns]
  have hfits : ¬ 4 ≤ t.conds.length := by omega
  simp only [Hub.recordCompare, ht, if_neg hopen, if_neg (not_not_intro hsize), if_neg hfits, Hub.trick_answer]
  split
  · simpa using Hub.gather_losesOnlyLines (h.putTrick r.hdr.trickId.toNat _) _ _ _ r.hdr.trickId.toNat
  · exact ⟨t.lost, Hub.trick_putTrick_same ..⟩

/-- A COMMIT of a record that is not empty enters COMMITTING, in phase one (R185, R192). -/
theorem Hub.trick_recordCommit {h : Hub} {r : Req} {t : Trick} (ht : h.trick r.hdr.trickId.toNat = t) (howns : t.owns r = true)
    (hst : t.st = 1) (hsize : t.tooLarge = 0) (hrecord : ¬ (t.lines = [] ∧ t.conds = [])) :
    ∃ ls, (h.recordCommit r).trick r.hdr.trickId.toNat =
      { t with st := 2, phase := 1, req := r.id, accepted := r.accepted, lost := ls } := by
  have hopen : ¬ ((!t.owns r) = true ∨ (t.st ≠ 1 ∧ t.st ≠ 3)) := by simp [hst, howns]
  have hnotExpired : ¬ t.st = 3 := by simp [hst]
  simp only [Hub.recordCommit, ht, if_neg hopen, if_neg hnotExpired, if_neg (not_not_intro hsize), if_neg hrecord]
  simpa using Hub.gatherAll_losesOnlyLines (h.putTrick r.hdr.trickId.toNat _) _ _ _ r.hdr.trickId.toNat

/-- An ABORT of a slot that is OPEN or EXPIRED frees it (R185). -/
theorem Hub.trick_recordAbort {h : Hub} {r : Req} {t : Trick} (ht : h.trick r.hdr.trickId.toNat = t) (howns : t.owns r = true)
    (hst : t.st = 1 ∨ t.st = 3) : (h.recordAbort r).trick r.hdr.trickId.toNat = Trick.free := by
  have htaken : ¬ ((!t.owns r) = true ∨ (t.st ≠ 1 ∧ t.st ≠ 3)) := by
    rcases hst with hst | hst <;> simp [hst, howns]
  simp only [Hub.recordAbort, ht, if_neg htaken, Hub.trick_answer, Hub.trick_putTrick_same]

/-- Settles O21: one rule per request, each for the slot that the request names. -/
theorem trickRequestsActOnTheirSlot : Obligations.TrickRequestsActOnTheirSlot := by
  unfold Obligations.TrickRequestsActOnTheirSlot
  refine ⟨fun h r p i hsrc hfree => ?_, fun h r howns hst hsize hroom => ?_, fun h r howns hst hsize hrecord => ?_,
    fun h r howns hst => Hub.trick_recordAbort rfl howns hst⟩
  · rw [Hub.trick_recordOpen hsrc hfree]
    exact ⟨rfl, rfl, rfl, rfl⟩
  · obtain ⟨ls, e⟩ := Hub.trick_recordCompare rfl howns hst hsize hroom
    rw [e]
  · obtain ⟨ls, e⟩ := Hub.trick_recordCommit rfl howns hst hsize hrecord
    rw [e]
    exact ⟨rfl, rfl, rfl⟩

end Sys2Proof.Machine
end

section

/-! SUPPORT. A commit's locks, its decision, its time-out, and the expiry of an open slot: O28. -/

namespace Sys2Proof.Machine

/-! The locks of phase two (R192 step 3, R195) -/

/-- The lock operation of a committing trick on a line. -/
def Trick.lockOp (t : Trick) (c : Cause) (slot id now l : Nat) : LineOp :=
  ⟨id, .lock (BitVec.ofNat 8 slot), .port t.port, 0, 0, t.part, l, c.hdr, 0, 0, now, 0, true, 0, false, 0, false, false⟩

/-- The slot votes COLLISION for a line that another trick holds. -/
def Hub.voteCollision (h : Hub) (slot l : Nat) : Hub :=
  h.putTrick slot { h.trick slot with votes := (h.trick slot).votes ++ [(l, .collision)] }

/-- The lock of a slot is placed on a line after all that is ordered there. -/
def Hub.addLock (h : Hub) (c : Cause) (slot l : Nat) : Hub :=
  h.fresh.2.setLines { h.fresh.2.lines with ordered := h.fresh.2.lines.ordered ++ [(h.trick slot).lockOp c slot h.fresh.1 h.now l] }

/-- One line of a trick at the end of phase one: its lock is placed, or fails (R195). -/
def Hub.placeLock (c : Cause) (p slot : Nat) (h : Hub) (l : Nat) : Hub :=
  if h.lockedByOther p l slot then h.voteCollision slot l else h.addLock c slot l

/-- The lock of a slot stands on a line of a partition. -/
def Hub.hasLock (h : Hub) (slot : Nat) (part : BitVec 6) (l : Nat) : Prop :=
  ∃ o : LineOp, o ∈ h.lines.ordered ∧ o.kind = .lock (BitVec.ofNat 8 slot) ∧ o.line = l ∧ o.part = part

theorem Hub.trick_addLock (h : Hub) (c : Cause) (slot l i : Nat) : (h.addLock c slot l).trick i = h.trick i := rfl

theorem Hub.ordered_addLock (h : Hub) (c : Cause) (slot l : Nat) :
    (h.addLock c slot l).lines.ordered = h.lines.ordered ++ [(h.trick slot).lockOp c slot h.fresh.1 h.now l] := rfl

theorem Hub.trick_voteCollision (h : Hub) (slot l : Nat) :
    (h.voteCollision slot l).trick slot = { h.trick slot with votes := (h.trick slot).votes ++ [(l, .collision)] } :=
  h.trick_putTrick_same ..

theorem Hub.ordered_voteCollision (h : Hub) (slot l : Nat) : (h.voteCollision slot l).lines.ordered = h.lines.ordered := rfl

/-- A line's placing changes of the slot its votes alone. -/
theorem Hub.placeLock_keeps (c : Cause) (p slot : Nat) (h : Hub) (l : Nat) :
    ((h.placeLock c p slot l).trick slot).phase = (h.trick slot).phase ∧
    ((h.placeLock c p slot l).trick slot).part = (h.trick slot).part := by
  unfold Hub.placeLock
  split
  · rw [Hub.trick_voteCollision]
    exact ⟨rfl, rfl⟩
  · exact ⟨rfl, rfl⟩

/-- Line l has been dealt with for the slot: its lock stands in the slot's partition, or it has voted COLLISION. -/
def Hub.placed (slot l : Nat) (h : Hub) : Prop :=
  h.hasLock slot (h.trick slot).part l ∨ (l, Vote.collision) ∈ (h.trick slot).votes

theorem Hub.placeLock_places (c : Cause) (p slot : Nat) (h : Hub) (l : Nat) : (h.placeLock c p slot l).placed slot l := by
  unfold Hub.placeLock
  split
  · exact .inr (by simp [Hub.trick_voteCollision])
  · exact .inl ⟨(h.trick slot).lockOp c slot h.fresh.1 h.now l, by simp [Hub.ordered_addLock], rfl, rfl, rfl⟩

theorem Hub.placed_placeLock (c : Cause) (p slot : Nat) (h : Hub) (l m : Nat) (hm : h.placed slot m) :
    (h.placeLock c p slot l).placed slot m := by
  unfold Hub.placed Hub.hasLock at *
  rw [(h.placeLock_keeps c p slot l).2]
  unfold Hub.placeLock
  split
  · simp only [Hub.trick_voteCollision, Hub.ordered_voteCollision, List.mem_append]
    exact hm.imp_right .inl
  · simp only [Hub.trick_addLock, Hub.ordered_addLock, List.mem_append]
    exact hm.imp_left fun ⟨o, ho, hop⟩ => ⟨o, .inl ho, hop⟩

/-- Every line of a trick is dealt with once its locks are placed, and the slot is as before but for its votes. -/
theorem Hub.placeLocks_place (c : Cause) (p slot : Nat) (ls : List Nat) (h : Hub) :
    ((ls.foldl (Hub.placeLock c p slot) h).trick slot).phase = (h.trick slot).phase ∧
    ((ls.foldl (Hub.placeLock c p slot) h).trick slot).part = (h.trick slot).part ∧
    ∀ l ∈ ls, (ls.foldl (Hub.placeLock c p slot) h).placed slot l :=
  ⟨foldl_keeps (fun h => (h.trick slot).phase) _ (fun h l => (h.placeLock_keeps c p slot l).1) ls h,
    foldl_keeps (fun h => (h.trick slot).part) _ (fun h l => (h.placeLock_keeps c p slot l).2) ls h,
    fun _ hl => foldl_reaches (Q := fun l h => h.placed slot l) (fun h l => h.placeLock_places c p slot l)
      (fun h l m => h.placed_placeLock c p slot l m) hl h⟩

/-- The lines of a trick in phase one are asked for once more, before its locks are placed (R193). -/
def Hub.gatherTrick (h : Hub) (t : Trick) : Hub := t.all.foldl (fun h' l => h'.gather t.part.toNat l (h.trickCause t)) h

/-- A trick at the start of phase two. -/
def Trick.deciding (t : Trick) : Trick := { t with phase := 2, votes := [], lost := [] }

/-- With every line present, phase two begins: the locks are placed line by line. -/
theorem Hub.phaseOneDone_of_present {h : Hub} {slot : Nat} {t : Trick} (ht : h.trick slot = t) (hst : t.st = 2) (hphase : t.phase = 1)
    (hpresent : t.all.all (fun l => (h.gatherTrick t).present t.part.toNat l) = true) :
    h.phaseOneDone slot =
      (t.all.foldl (Hub.placeLock (h.trickCause t) t.part.toNat slot) ((h.gatherTrick t).putTrick slot t.deciding)).settle := by
  have hcommitting : ¬ (t.st ≠ 2 ∨ t.phase ≠ 1) := by simp [hst, hphase]
  unfold Hub.gatherTrick at hpresent
  simp only [Hub.phaseOneDone, ht, if_neg hcommitting, hpresent]
  rfl

/-! The decision (R192 steps 4 to 6, R197) -/

/-- Every line has voted that its condition is met, there is room, and every line is still present: the trick is written. -/
theorem Hub.phaseTwoDone_of_holds {h : Hub} {slot : Nat} {t : Trick} (ht : h.trick slot = t) (hst : t.st = 2) (hphase : t.phase = 2)
    (hall : ∀ l ∈ t.all, ∃ v ∈ t.votes, v.1 = l) (hholds : ∀ v ∈ t.votes, v.2 = .holds)
    (hroom : h.roomFor t.req (h.newChunks t) = true) (hpresent : (h.readLocked t).allPresent t = true) :
    h.phaseTwoDone slot = ((h.readLocked t).applyTrick slot).conclude slot 0 0 := by
  have hvoted : t.all.all (fun l => t.votes.any (fun v => v.1 == l)) = true := by simpa using hall
  have hready : ¬ (t.st ≠ 2 ∨ t.phase ≠ 2 ∨ (!t.all.all (fun l => t.votes.any (fun v => v.1 == l))) = true) := by
    simp [hst, hphase, hvoted]
  have hvotes : ∀ v ∈ t.votes.map (·.2), v = .holds := List.forall_mem_map.mpr hholds
  have hnone (f : Vote → Bool) (hf : f .holds = false) : (t.votes.map (·.2)).any f = false :=
    List.any_eq_false.mpr fun v hv => by simp [hvotes v hv, hf]
  have hmet : (t.votes.map (·.2)).filterMap Vote.failed = [] :=
    List.filterMap_eq_nil_iff.mpr fun v hv => by rw [hvotes v hv]; rfl
  simp only [Hub.phaseTwoDone, ht, if_neg hready, hnone Vote.isRegather rfl, hnone Vote.isPoisoned rfl,
    hnone Vote.isCollision rfl, hmet, List.min?_nil, hroom, hpresent, Bool.not_true, Bool.false_eq_true, if_false]

/-! Time limits (R190, R198) -/

/-- A commit that is not decided in time is answered NOT_READY. -/
theorem Hub.commitTimeout_of_committing {h : Hub} {slot : Nat} {t : Trick} (ht : h.trick slot = t) (hst : t.st = 2) :
    h.commitTimeout slot =
      ((((h.reach (t.accepted + 750)).releaseLocks slot).bump pHub 0x140 0 16 1).endTrick slot t.req 4 0 0).settle := by
  simp only [Hub.commitTimeout, ht, if_neg (not_not_intro hst)]

/-- What an expired slot holds: its record is discarded (R190). -/
def Trick.expired (t : Trick) : Trick := { t with st := 3, lines := [], conds := [], tooLarge := 0 }

/-- An open slot with a limit expires when the limit is reached. -/
theorem Hub.openLimit_of_open {h : Hub} {slot : Nat} {t : Trick} (ht : h.trick slot = t) (hst : t.st = 1) (hlimit : t.limit ≠ 0) :
    h.openLimit slot =
      (((h.reach (t.opened + 100 * t.limit)).putTrick slot t.expired).bump pTrick 0x60 0 32 1).raise pTrick 1 := by
  have hopen : ¬ (t.st ≠ 1 ∨ t.limit = 0) := by simp [hst, hlimit]
  simp only [Hub.openLimit, ht, if_neg hopen]
  rfl

/-- The expiry of a slot: its interrupt is raised, time has come to the limit, the other slots stand. -/
theorem Hub.openLimit_expires {h : Hub} {slot : Nat} {t : Trick} (ht : h.trick slot = t) (hst : t.st = 1) (hlimit : t.limit ≠ 0) :
    (h.openLimit slot).trick slot = t.expired ∧ bit ((h.openLimit slot).rd pTrick 0x10) 1 = true ∧
    (h.openLimit slot).now = max h.now (t.opened + 100 * t.limit) ∧
    (∀ j, j ≠ slot → (h.openLimit slot).trick j = h.trick j) ∧ (h.openLimit slot).mem = h.mem := by
  rw [Hub.openLimit_of_open ht hst hlimit]
  have htricks (g : Hub) (j : Nat) : ((g.bump pTrick 0x60 0 32 1).raise pTrick 1).trick j = g.trick j := by simp [Hub.trick]
  refine ⟨by rw [htricks, Hub.trick_putTrick_same], ?_, by simp [Hub.reach], fun j hj => ?_, by simp⟩
  · rw [Hub.rd_raise, if_pos rfl, bit_putBit_same _ _ (by decide)]
  · rw [htricks, Hub.trick_putTrick, if_neg hj]
    rfl

/-- Settles O28: the locks of phase two, the decision of a trick whose conditions hold, and the two time limits. -/
theorem tricksDecide : Obligations.TricksDecide := by
  unfold Obligations.TricksDecide
  refine ⟨fun s slot hst hphase => ?_, fun s slot hst hphase hall hholds hroom hpresent => ?_, fun s slot hst => ?_,
    fun s slot hst hlimit => ?_⟩
  · intro t h hpresent
    obtain ⟨hp, hpart, hplaced⟩ := Hub.placeLocks_place (s.hub.trickCause t) t.part.toNat slot.toNat t.all (h.putTrick slot.toNat t.deciding)
    rw [Hub.trick_putTrick_same] at hp hpart
    refine ⟨_, becomes_onHub (f := fun h => (h.phaseOneDone slot.toNat).orderClears)
      (congrArg Hub.orderClears (Hub.phaseOneDone_of_present rfl hst hphase hpresent)), hp, fun l hl => ?_⟩
    have hl := hplaced l hl
    rwa [Hub.placed, hpart] at hl
  · exact becomes_onHub (f := fun h => (h.phaseTwoDone slot.toNat).orderClears)
      (congrArg Hub.orderClears (Hub.phaseTwoDone_of_holds rfl hst hphase hall hholds hroom hpresent))
  · exact becomes_onHub (f := fun h => (h.commitTimeout slot.toNat).orderClears)
      (congrArg Hub.orderClears (Hub.commitTimeout_of_committing rfl hst))
  · obtain ⟨htrick, hirq, hnow, hothers, hmem⟩ := Hub.openLimit_expires rfl hst hlimit
    exact ⟨{ s with hub := s.hub.openLimit slot.toNat }, rfl, congrArg Trick.st htrick, congrArg Trick.lines htrick,
      congrArg Trick.conds htrick, hirq, hnow, hothers, hmem⟩

end Sys2Proof.Machine
end

section

/-! SUPPORT. Page moves, zeroing, allocation and release: O29. -/

namespace Sys2Proof.Machine

/-! Registers that an answer leaves as they were -/

theorem Hub.giveBackDma_regs (h : Hub) (wr : Bool) (c : Nat) : (h.giveBackDma wr c).regs = h.regs := by
  simp only [Hub.giveBackDma, apply_ite Hub.regs, putDport_fields, topUp_fields, putPool_fields, ite_self]

/-- An answer changes no register but the event counters' and the poisoned answers' (R445). -/
theorem Hub.rd_answer (h : Hub) (id idx code result : Nat) (data : List Sector) {p o : Nat} (hperf : p ≠ pPerf) (hras : p ≠ pRas)
    (ho : o < 4096) : (h.answer id idx code result data).rd p o = h.rd p o := by
  unfold Hub.answer
  split
  · rfl
  · next r _ =>
    extract_lets r' last h1 lat isRead ev h2 h3 h4
    have hev (h : Hub) (k amt : Nat) : (ev h k amt).rd p o = h.rd p o := h.rd_countLine _ _ _ _ _ _ hperf ho
    have e1 : h1.rd p o = h.rd p o := by
      simp only [h1]
      split <;> rfl
    have e2 : h2.rd p o = h1.rd p o := by
      simp only [h2]
      split_ifs
      · exact hev ..
      · exact (Hub.rd_bump_page _ _ _ _ hras ho (by decide)).trans (hev ..)
      · exact hev ..
      · rfl
    have e3 : h3.rd p o = h2.rd p o := by
      simp only [h3]
      split
      · exact hev ..
      · rfl
    have e4 : h4.rd p o = h3.rd p o := by
      simp only [h4]
      split
      · exact hev ..
      · rfl
    rw [← e1, ← e2, ← e3, ← e4]
    clear_value h4
    cases r.src with
    | port q =>
      dsimp only
      split <;> exact Hub.rd_of_regs (by simp) p o
    | dma c =>
      dsimp only
      split
      · rfl
      · exact Hub.rd_of_regs (Hub.giveBackDma_regs ..) p o
    | remote ctx => rfl
    | dump =>
      dsimp only
      split
      · rfl
      · exact (Hub.rd_raise_page _ _ hperf ho).trans (Hub.rd_wr_page _ _ hperf ho (by decide))
    | kitty => rfl

/-! The page manager's record -/

/-- The judging of STATUS.LOW changes of the page manager's record only what it saw, and no operation (R218). -/
theorem Hub.noteLow_changes (h : Hub) (p : Nat) : (h.noteLow p).lines = h.lines ∧
    ∃ seen, (h.noteLow p).pages = { h.pages with lowSeen := seen } := by
  unfold Hub.noteLow
  dsimp only
  split
  · exact ⟨by simp, _, by simp only [Hub.raise_fields]; rfl⟩
  · exact ⟨rfl, _, rfl⟩

theorem Hub.fwd_noteLow (h : Hub) (q p w : Nat) : (h.noteLow q).fwd p w = h.fwd p w := by
  obtain ⟨-, seen, e⟩ := h.noteLow_changes q
  rw [Hub.fwd, e]
  rfl

theorem Hub.moveIn_noteLow (h : Hub) (q g : Nat) : (h.noteLow q).moveIn g = h.moveIn g := by
  obtain ⟨-, seen, e⟩ := h.noteLow_changes q
  rw [Hub.moveIn, e]
  rfl

theorem Hub.fwd_putFwd_same (h : Hub) (p w : Nat) (v : BitVec 64) : (h.putFwd p w v).fwd p w = v := SMap.get_set_same ..
theorem Hub.fwd_putMove (h : Hub) (g : Nat) (m : Option PageMove) (p w : Nat) : (h.putMove g m).fwd p w = h.fwd p w := rfl
theorem Hub.fwd_putRev (h : Hub) (q b : Nat) (v : BitVec 64) (p w : Nat) : (h.putRev q b v).fwd p w = h.fwd p w := rfl
theorem Hub.fwd_freeDirty (h : Hub) (q b p w : Nat) : (h.freeDirty q b).fwd p w = h.fwd p w := rfl
theorem Hub.moveIn_putMove_same (h : Hub) (g : Nat) (m : Option PageMove) : (h.putMove g m).moveIn g = m := SMap.get_set_same ..
theorem Hub.moveIn_bgCharge (h : Hub) (p bytes g : Nat) : (h.bgCharge p bytes).moveIn g = h.moveIn g := rfl

theorem Hub.moveIn_retagAll (ls : List (Nat × Nat)) (h : Hub) (g : Nat) :
    (ls.foldl (fun h e => h.retag e.1 e.2) h).moveIn g = h.moveIn g := by
  rw [Hub.moveIn, (foldl_records _ (fun h e => h.retag_records e.1 e.2) ls h).2, Hub.moveIn]

/-! Page moves (R212) -/

/-- The hub once sixteen lines of a move stand at its target and its internal trick has ended. -/
def Hub.copied (h : Hub) (g : Nat) (m : PageMove) (t : ITrick) (errs : Flips) : Hub :=
  let p := m.part.toNat
  let h := (h.moveItems m).zipIdx.foldl (fun h e =>
    let (x, w, h) := h.copyValue t e.2 e.1 errs
    let (k, s) := h.shuffle p (256 * m.dst + m.mw + e.2)
    h.storeLine p k s x w.poison w.void) h
  let h := ((h.endItrick t).unreserve m.lines).bump pTrick 0x64 0 32 1
  let h := (h.putMove g (some { m with mw := m.mw + 16, tries := 0, blocked := [] })).bgCharge p 8192
  m.lines.foldl (fun h e => h.retag e.1 e.2) h

/-- The end of a move whose lines have all been copied: the page is ALLOCATED at its target, its old place is FREE_DIRTY. -/
def Hub.endMove (h : Hub) (g : Nat) (m : PageMove) : Hub :=
  ((((h.putFwd m.part.toNat m.page (mkFwd m.dst 1 (fwdVoids (h.fwd m.part.toNat m.page)))).putRev m.part.toNat m.dst
    (mkRev m.page 2)).freeDirty m.part.toNat m.src).putMove g none).noteLow m.part.toNat

theorem Hub.commitMove_eq (h : Hub) (g : Nat) (m : PageMove) (t : ITrick) (errs : Flips) :
    h.commitMove g m t errs =
      (if m.mw + 16 < 256 then h.copied g m t errs else (h.copied g m t errs).endMove g m).settleOn :=
  (apply_ite Hub.settleOn ..).symm

theorem Hub.moveIn_copied (h : Hub) (g : Nat) (m : PageMove) (t : ITrick) (errs : Flips) :
    (h.copied g m t errs).moveIn g = some { m with mw := m.mw + 16, tries := 0, blocked := [] } := by
  simp only [Hub.copied, Hub.moveIn_retagAll, Hub.moveIn_bgCharge, Hub.moveIn_putMove_same]

theorem Hub.moveIn_endMove (h : Hub) (g : Nat) (m : PageMove) : (h.endMove g m).moveIn g = none := by
  rw [Hub.endMove, Hub.moveIn_noteLow, Hub.moveIn_putMove_same]

theorem Hub.fwd_endMove (h : Hub) (g : Nat) (m : PageMove) :
    (h.endMove g m).fwd m.part.toNat m.page = mkFwd m.dst 1 (fwdVoids (h.fwd m.part.toNat m.page)) := by
  rw [Hub.endMove, Hub.fwd_noteLow, Hub.fwd_putMove, Hub.fwd_freeDirty, Hub.fwd_putRev, Hub.fwd_putFwd_same]

/-- An internal trick whose lines are all at hand commits (R202). -/
theorem Hub.itrickStep_of_ready {h h1 : Hub} {items : List CopyItem} {errs : Flips} {commit : ITrick → Hub → Hub} {t t' : ITrick}
    (ht : h.pages.itricks.find? (fun x => x.ctx == t.ctx) = some t)
    (hask : items.foldl (fun h i => h.askCopy t.ctx i) (h.dropLostReads t items errs) = h1)
    (ht' : h1.pages.itricks.find? (fun x => x.ctx == t.ctx) = some t') (hready : ∀ i ∈ items, h1.copyReady t' i = true) :
    h.itrickStep t.ctx items errs commit = commit t' h1 := by
  simp only [Hub.itrickStep, ht, hask, ht', List.all_eq_true.mpr hready, if_true]

/-- The move of a segment whose internal trick holds its locks goes on with that trick. -/
theorem Hub.moveBatch_of_locked {h : Hub} {g : Nat} {errs : Flips} {m : PageMove} {t : ITrick} (hm : h.moveIn g = some m)
    (hturn : h.bgTurn m.part.toNat = true) (ht : h.moveTrick g = some t) :
    h.moveBatch g errs = (h.putMove g (some m)).itrickStep t.ctx ((h.putMove g (some m)).moveItems m) errs
      (fun t h => h.commitMove g m t errs) := by
  have ht' : (h.putMove g (some m)).moveTrick g = some t := ht
  simp only [Hub.moveBatch, hm, hturn, ht, ht', Option.isSome_some, Bool.not_true, Bool.false_eq_true, if_false, if_true]

/-- A move starts at the highest allocated page of its segment, towards the lowest zeroed page below it. -/
theorem Hub.startMove_of_turn {h : Hub} {p g b w x : Nat} (hturn : h.bgTurn p = true) (hfree : h.moveIn g = none)
    (hcompacting : h.compacting p = true) (hhigh : h.highestIn p g = some (b, w))
    (hzero : h.lowestZero p true 0 (min b (h.pageLimit p)) = some x) :
    h.startMove p g = (((h.putFwd p w (mkFwd b 2 (fwdVoids (h.fwd p w)))).putRev p x (mkRev w 3)).putMove g
      (some ⟨BitVec.ofNat 6 p, w, b, x, 0, 0, []⟩)).noteLow p := by
  have hnext : h.nextMove p g = some (b, w, x) := by
    simp [Hub.nextMove, hfree, hcompacting, hhigh, hzero]
  simp only [Hub.startMove, hturn, hnext, if_true]

/-! Zeroing (R212, R213) -/

/-- The page that is zeroed next, with EAGER and without. -/
theorem Hub.nextZero_eq {h : Hub} {p b : Nat}
    (hnext : (bit (h.rd pPagemgr 0x804) 0 = true ∧ h.lowestDirty p true 0 (h.table p).p = some b) ∨
      (bit (h.rd pPagemgr 0x804) 0 = false ∧ (∃ top, h.topPage p = some top ∧ h.pageLimit p ≤ top) ∧
        h.lowestZero p true 0 (h.pageLimit p) = none ∧ h.lowestDirty p true 0 (h.pageLimit p) = some b)) :
    h.nextZero p = some b := by
  rcases hnext with ⟨heager, hdirty⟩ | ⟨hlazy, ⟨top, htop, hlimit⟩, hzero, hdirty⟩
  · simp only [Hub.nextZero, heager, if_true, hdirty]
  · simp only [Hub.nextZero, hlazy, Bool.false_eq_true, if_false, htop, hlimit, hzero, Option.isNone_none, and_self, if_true, hdirty]

theorem Hub.zeroNext_of_turn {h : Hub} {p b : Nat} (hturn : h.bgTurn p = true) (hnext : h.nextZero p = some b) :
    h.zeroNext p = ((h.zeroPage p b false).putRev p b (mkRev 0 1)).bgCharge p 65536 := by
  simp only [Hub.zeroNext, hturn, hnext, if_true]

/-! Allocation (R207 to R209) -/

/-- An operation that is withdrawn leaves the queue before its order instant, and no register changes. -/
theorem Hub.withdrawOp_changes (h : Hub) (o : LineOp) : (h.withdrawOp o).regs = h.regs ∧
    (h.withdrawOp o).lines.ready = h.lines.ready.filter (fun x => x.id != o.id) := ⟨rfl, rfl⟩

/-- NO_SPACE: counted and raised, the operation withdrawn and answered (R209). -/
def Hub.answerNoSpace (h : Hub) (o : LineOp) : Hub :=
  let p := o.part.toNat
  let n := satAdd (2 ^ 32 - 1) (SMap.get (fun _ => 0) h.pages.noSpace p) 1
  (((h.setPages { h.pages with noSpace := SMap.set (fun _ => 0) h.pages.noSpace p n }).raise pPagemgr 1).withdrawOp o).answer o.req
    o.idx 7 0 []

/-- The first write of a page that has no backing page gets one, or NO_SPACE. -/
theorem Hub.allocateFor_of_first {h : Hub} {id : Nat} {o : LineOp}
    (hfind : h.lines.ready.find? (fun o => o.id == id && (o.kind == .write || o.kind == .reduce)) = some o)
    (hmanaged : (h.part o.part.toNat).managed = true) (hown : h.behindOwn o = false)
    (hstate : h.pageState o.part.toNat o.line = 0 ∨ h.pageState o.part.toNat o.line = 3) :
    h.allocateFor id = (h.allocPage o.part.toNat (o.line / 256)).getD (h.answerNoSpace o) := by
  have htaken : ¬ ((!(h.part o.part.toNat).managed) = true ∨
      (h.pageState o.part.toNat o.line ≠ 0 ∧ h.pageState o.part.toNat o.line ≠ 3) ∨ h.behindOwn o = true) := by
    rcases hstate with hs | hs <;> simp [hmanaged, hown, hs]
  simp only [Hub.allocateFor, hfind, if_neg htaken]
  cases h.allocPage o.part.toNat (o.line / 256) <;> rfl

theorem Hub.answerNoSpace_ends (h : Hub) (o : LineOp) : bit ((h.answerNoSpace o).rd pPagemgr 0x10) 1 = true ∧
    (∀ x ∈ (h.answerNoSpace o).lines.ready, x.id ≠ o.id) ∧ (h.answerNoSpace o).mem = h.mem := by
  refine ⟨?_, fun x hx => ?_, by simp [Hub.answerNoSpace]⟩
  · rw [Hub.answerNoSpace, Hub.rd_answer (p := pPagemgr) (o := 0x10) _ _ _ _ _ _ (by decide) (by decide) (by decide),
      Hub.rd_of_regs (Hub.withdrawOp_changes ..).1, Hub.rd_raise, if_pos rfl, bit_putBit_same _ _ (by decide)]
  · rw [Hub.answerNoSpace, (Hub.answer_ready_ordered ..).1, (Hub.withdrawOp_changes ..).2] at hx
    simpa using (List.mem_filter.mp hx).2

/-! Release (R210) -/

/-- A release whose holds are all first of their lines takes its order instant. -/
theorem Hub.commitRelease_of_held {h : Hub} {p w : Nat} {rel : PageRel}
    (hfind : h.pages.releases.find? (fun x => x.part.toNat == p && x.page == w) = some rel)
    (hholds : ∀ o ∈ h.lines.ordered, o.kind = .hold → o.req = rel.req → h.firstOfLine o = true) :
    h.commitRelease p w = ((h.unmapPage rel p w).answer rel.req 0 0 0 []).settle := by
  have hall : (h.lines.ordered.filter (fun o => o.kind == .hold && o.req == rel.req)).all (fun o => h.firstOfLine o) = true :=
    List.all_eq_true.mpr fun o ho => by
      obtain ⟨hmem, hhold⟩ := List.mem_filter.mp ho
      obtain ⟨hkind, hreq⟩ : o.kind = .hold ∧ o.req = rel.req := by simpa using hhold
      exact hholds o hmem hkind hreq
  simp only [Hub.commitRelease, hfind, hall, Bool.not_true, Bool.false_eq_true, if_false]

/-- A released page is UNALLOCATED, and nothing of its request is left. -/
theorem Hub.unmapPage_unmaps (h : Hub) (rel : PageRel) (p w : Nat) :
    (h.unmapPage rel p w).fwd p w = mkFwd 0 0 0 ∧ (∀ x ∈ (h.unmapPage rel p w).pages.releases, x.req ≠ rel.req) ∧
    (∀ o ∈ (h.unmapPage rel p w).lines.ordered, o.kind = .hold → o.req ≠ rel.req) := by
  unfold Hub.unmapPage
  generalize List.range 256 = lines
  extract_lets e h1 h2 h3 lines3 h4 pages4 h5
  have hfwd : h5.fwd p w = mkFwd 0 0 0 := by
    have hdrop : h3.pages = h2.pages := (foldl_records _ (fun h i => h.dropLine_records p (256 * w + i)) _ h2).2
    calc h5.fwd p w = h3.fwd p w := rfl
      _ = h2.fwd p w := by rw [Hub.fwd, hdrop]; rfl
      _ = mkFwd 0 0 0 := Hub.fwd_putFwd_same ..
  have hreleases : ∀ x ∈ h5.pages.releases, x.req ≠ rel.req := fun x hx => by simpa using (List.mem_filter.mp hx).2
  have hholds : ∀ o ∈ h5.lines.ordered, o.kind = .hold → o.req ≠ rel.req := fun o ho hk => by
    simpa [hk] using (List.mem_filter.mp ho).2
  obtain ⟨hlines, seen, hpages⟩ := h5.noteLow_changes p
  exact ⟨(Hub.fwd_noteLow ..).trans hfwd, by rw [hpages]; exact hreleases, by rw [hlines]; exact hholds⟩

/-- Settles O29: the move, the zeroing, the allocation and the release, each by the rule of its command. -/
theorem pageManagerWorks : Obligations.PageManagerWorks := by
  unfold Obligations.PageManagerWorks
  refine ⟨⟨?_, fun s part g b w x hturn hfree hcompacting hhigh hzero => ?_, fun s part b hturn hnext => ?_,
    fun s id o hfind hmanaged hown hstate => ?_, fun s part page rel hfind hholds => ?_⟩, Hub.unmapPage_unmaps⟩
  · intro s g errs m t t' hm hturn hroom ht h ht0 items h1 ht1 hready
    have hstep := Hub.itrickStep_of_ready (h1 := h1) (commit := fun t h => h.commitMove g.toNat m t errs) ht0 rfl ht1 hready
    have hbatch : s.hub.moveBatch g.toNat errs =
        (if m.mw + 16 < 256 then h1.copied g.toNat m t' errs else (h1.copied g.toNat m t' errs).endMove g.toNat m).settleOn := by
      rw [Hub.moveBatch_of_locked hm hturn ht, hstep, Hub.commitMove_eq]
    refine ⟨_, becomes_withRoom (f := fun h => h.moveBatch g.toNat errs) hroom hbatch, fun hmore => ?_, fun hdone => ?_⟩
    · rw [if_pos hmore]
      exact Hub.moveIn_copied ..
    · rw [if_neg (Nat.not_lt.mpr hdone)]
      exact ⟨Hub.moveIn_endMove .., _, Hub.fwd_endMove ..⟩
  · exact becomes_onHub (f := fun h => h.startMove part.toNat g.toNat)
      (Hub.startMove_of_turn hturn hfree hcompacting hhigh hzero)
  · exact becomes_onHub (f := fun h => h.zeroNext part.toNat) (Hub.zeroNext_of_turn hturn (Hub.nextZero_eq hnext))
  · have hfirst := Hub.allocateFor_of_first hfind hmanaged hown hstate
    refine ⟨fun h hpage => becomes_onHub (f := fun h => h.allocateFor id) (by rw [hfirst, hpage, Option.getD_some]), fun hnone => ?_⟩
    rw [hnone, Option.getD_none] at hfirst
    have hid : o.id = id := by
      have hok := List.find?_some hfind
      simp only [Bool.and_eq_true, beq_iff_eq] at hok
      exact hok.1
    obtain ⟨hirq, hready, hmem⟩ := s.hub.answerNoSpace_ends o
    rw [hid] at hready
    exact ⟨{ s with hub := s.hub.allocateFor id }, rfl, by simpa only [hfirst] using ⟨hirq, hready, hmem⟩⟩
  · exact becomes_onHub (f := fun h => (h.commitRelease part.toNat page.toNat).orderClears)
      (congrArg Hub.orderClears (Hub.commitRelease_of_held hfind hholds))

end Sys2Proof.Machine
end

section

/-! SUPPORT. Readings of the temperature sources: O12. -/

namespace Sys2Proof.Machine

/-! Readings (R428, R429, R432) -/

/-- A source once a reading of it is taken: a broken one counts as 106 °C. -/
def Source.taken (x : Source) (broken : Bool) (e : Int) : Source :=
  let v := if broken then brokenEighths else e
  ⟨(v :: x.hist).take 11, v, true, broken, decide (tripEighths < v)⟩

theorem Hub.source_of_therm {g h : Hub} (e : g.therm = h.therm) (j : Nat) : g.source j = h.source j := by
  rw [Hub.source, Hub.source, e]

theorem Hub.source_startTrip (h : Hub) (i : Nat) (e : Int) (broken : Bool) (j : Nat) :
    (h.startTrip i e broken).source j = h.source j := by
  unfold Hub.startTrip
  split
  · rfl
  · exact Hub.source_of_therm (g := _) (h := h.setTherm { h.therm with trip := 1, tripAt := h.now }) (by simp) j

theorem Hub.rd_startTrip (h : Hub) (i : Nat) (e : Int) (broken : Bool) {p o : Nat}
    (hout : ∀ r ∈ [0x78, 0x44, 0x10], 4096 * p + o ≠ 4096 * pTherm + r) : (h.startTrip i e broken).rd p o = h.rd p o := by
  unfold Hub.startTrip
  split
  · rfl
  · rw [Hub.rd_raise, if_neg (hout _ (by simp)), Hub.rd_wrFld, if_neg (hout _ (by simp)), Hub.rd_wr_ne _ _ (hout _ (by simp))]
    rfl

/-- An ordinary entry that is dropped is counted in the journal's page; no other register changes. -/
theorem Hub.rd_submitO_page (h : Hub) (typ : Nat) (flags : Byte) (payload : List Byte) {p o : Nat} (hp : p ≠ pJournal)
    (ho : o < 4096) : (h.submitO typ flags payload).rd p o = h.rd p o := by
  unfold Hub.submitO
  split
  · exact h.rd_bump_page _ _ _ hp ho (by decide)
  · rfl

/-- What a reading leaves: the source, its bit of FAILED, and every register of the other pages but the journal's. -/
theorem Hub.readSource_takes (h : Hub) {i : Nat} (broken : Bool) (e : Int) (hi : i < 32) :
    (h.readSource i broken e).source i = (h.source i).taken broken e ∧
    bit ((h.readSource i broken e).rd pTherm 0x5C) i = broken ∧
    (∀ p o, p ≠ pTherm → p ≠ pJournal → o < 4096 → (h.readSource i broken e).rd p o = h.rd p o) := by
  unfold Hub.readSource
  extract_lets x v hot h1 h2 h3
  have source2 : h2.source i = x.taken broken e := (Hub.source_putSource ..).trans (if_pos rfl)
  have failed2 : bit (h2.rd pTherm 0x5C) i = broken := by
    rw [Hub.rd_wr_same, bit_putBit_same _ _ hi]
  have other2 p o (hp : p ≠ pTherm) (ho : o < 4096) : h2.rd p o = h.rd p o := Hub.rd_wr_page _ _ hp ho (by decide)
  have source3 : h3.source i = h2.source i := by
    simp only [h3]
    split
    · exact Hub.source_of_therm (by simp) i
    · rfl
  have rd3 p o (hp : p ≠ pJournal) (ho : o < 4096) (hirq : 4096 * p + o ≠ 4096 * pTherm + 0x10) : h3.rd p o = h2.rd p o := by
    simp only [h3]
    split
    · rw [Hub.rd_submitO_page _ _ _ _ hp ho, Hub.rd_raise, if_neg hirq]
    · rfl
  have failed3 : bit (h3.rd pTherm 0x5C) i = broken := by rw [rd3 _ _ (by decide) (by decide) (by decide), failed2]
  have other3 p o (hp : p ≠ pTherm) (hj : p ≠ pJournal) (ho : o < 4096) : h3.rd p o = h.rd p o := by
    rw [rd3 _ _ hj ho (by omega), other2 _ _ hp ho]
  split
  · refine ⟨by rw [Hub.source_startTrip, source3, source2], by rw [Hub.rd_startTrip _ _ _ _ (by decide), failed3],
      fun p o hp hj ho => ?_⟩
    rw [Hub.rd_startTrip _ _ _ _ (by simp; omega), other3 _ _ hp hj ho]
  · exact ⟨source3.trans source2, failed3, other3⟩

/-! TEMP of a stack (R238) -/

/-- TEMP after a reading: degrees and VALID of one that succeeds, FAIL of one that fails. -/
def tempWord (old : Word) (ok : Bool) (deg : BitVec 8) : Word :=
  if ok then putBit (putBits (putBits old 0 8 deg.toNat) 8 1 1) 9 false else putBit old 9 true

theorem Hub.stackTemp_of_awake {h : Hub} {st : Nat} (hr : h.inReset = false) (hawake : h.awake st = true) (ok : Bool) (deg : BitVec 8) :
    h.stackTemp st ok deg = (h.wr (pStk st) 0x64 (tempWord (h.rd (pStk st) 0x64) ok deg)).readSource (16 + st)
      (!ok || decide (deg.toInt < -40)) (deg.toInt * 8) := by
  simp [Hub.stackTemp, hr, hawake, tempWord]

theorem bitsNat_putBits_below {w : Nat} (x : BitVec w) {lo n lo' n' : Nat} (v : Nat) (hlo : lo' + n' ≤ lo) :
    bitsNat (putBits x lo n v) lo' n' = bitsNat x lo' n' := by
  refine Nat.eq_of_testBit_eq fun i => ?_
  rw [testBit_bitsNat, testBit_bitsNat]
  by_cases hi : i < n'
  · rw [bit_putBits_below x (by omega)]
  · simp [hi]

theorem tempWord_shows (old : Word) (ok : Bool) (deg : BitVec 8) :
    (ok = true → bitsNat (tempWord old ok deg) 0 8 = deg.toNat ∧ bit (tempWord old ok deg) 8 = true) ∧
    bit (tempWord old ok deg) 9 = !ok := by
  cases ok with
  | false => exact ⟨nofun, bit_putBit_same _ _ (by decide)⟩
  | true =>
    refine ⟨fun _ => ⟨?_, ?_⟩, bit_putBit_same _ _ (by decide)⟩
    · calc bitsNat (putBits (putBits (putBits old 0 8 deg.toNat) 8 1 1) 9 1 0) 0 8 = deg.toNat % 2 ^ 8 := by
            rw [bitsNat_putBits_below _ _ (by decide), bitsNat_putBits_below _ _ (by decide), bitsNat_putBits _ _ (by decide)]
        _ = deg.toNat := Nat.mod_eq_of_lt deg.isLt
    · exact (bit_putBits_below _ (by decide)).trans (bit_putBit_same _ true (by decide))

/-- A stack's own reading is a reading of source 16 + s, and shows in TEMP. -/
theorem Hub.stackTemp_takes {h : Hub} {st : Nat} (hst : st < 8) (hr : h.inReset = false) (hawake : h.awake st = true) (ok : Bool)
    (deg : BitVec 8) :
    (h.stackTemp st ok deg).source (16 + st) =
      (h.source (16 + st)).taken (!ok || decide (deg.toInt < -40)) (deg.toInt * 8) ∧
    bit ((h.stackTemp st ok deg).rd pTherm 0x5C) (16 + st) = (!ok || decide (deg.toInt < -40)) ∧
    (h.stackTemp st ok deg).rd (pStk st) 0x64 = tempWord (h.rd (pStk st) 0x64) ok deg := by
  rw [Hub.stackTemp_of_awake hr hawake]
  obtain ⟨hsource, hfailed, hother⟩ := (h.wr (pStk st) 0x64 (tempWord (h.rd (pStk st) 0x64) ok deg)).readSource_takes
    (!ok || decide (deg.toInt < -40)) (deg.toInt * 8) (show 16 + st < 32 by omega)
  exact ⟨hsource, hfailed,
    (hother _ _ (by simp [pStk, pTherm]; omega) (by simp [pStk, pJournal]; omega) (by decide)).trans (Hub.rd_wr_same ..)⟩

/-! How the two commands of a reading end -/

theorem ends_stackTempRead {s : State} {st : BitVec 3} {ok : Bool} {deg : BitVec 8} {P : State → Prop}
    (hfit : s.hub.pins.stackFit.getLsbD st.toNat = true) (hP : P { s with hub := s.hub.stackTemp st.toNat ok deg }) :
    Ends (exec (.stackTempRead st ok deg) s) P :=
  ⟨_, onStack_next.mpr ⟨hfit, rfl⟩, hP⟩

/-- A hub sensor's reading; one outside −40 to 150 °C is broken (R429). -/
theorem ends_sensorRead {s : State} {i : BitVec 4} {ok : Bool} {e : BitVec 12} {P : State → Prop} (broken : Bool)
    (hr : s.hub.inReset = false) (hbroken : (!ok || decide (e.toInt < -320) || decide (1200 < e.toInt)) = broken)
    (hP : P { s with hub := s.hub.readSource i.toNat broken e.toInt }) : Ends (exec (.sensorRead i ok e) s) P := by
  refine ⟨_, rfl, ?_⟩
  simpa only [hr, hbroken, Bool.false_eq_true, if_false] using hP

/-- Settles O12: every reading is taken by one rule, which a broken one enters with 106 °C. -/
theorem sourcesAreRead : Obligations.SourcesAreRead := by
  unfold Obligations.SourcesAreRead
  refine ⟨fun s st ok deg hfit hr hawake => ends_stackTempRead hfit ?_, fun s i e hr hlo hhi => ?_, fun s i ok e hr hbroken => ?_⟩
  · obtain ⟨hsource, hfailed, htemp⟩ := Hub.stackTemp_takes st.isLt hr hawake ok deg
    obtain ⟨hdeg, hfail⟩ := tempWord_shows (s.hub.rd (pStk st.toNat) 0x64) ok deg
    dsimp only
    rw [hsource, hfailed, htemp]
    refine ⟨?_, rfl, hdeg, hfail, rfl, by simp⟩
    cases ok
    · rfl
    · by_cases hcold : deg.toInt < -40
      · simp [Source.taken, brokenEighths, hcold]
      · simp [Source.taken, hcold, Int.not_lt.mp hcold]
  · obtain ⟨hsource, hfailed, -⟩ := s.hub.readSource_takes (i := i.toNat) false e.toInt (by omega)
    refine ends_sensorRead false hr (by simp; omega) ?_
    dsimp only
    rw [hsource, hfailed]
    exact ⟨rfl, rfl, rfl, rfl, by simp⟩
  · obtain ⟨hsource, hfailed, -⟩ := s.hub.readSource_takes (i := i.toNat) true e.toInt (by omega)
    refine ends_sensorRead true hr (by simpa [or_assoc] using hbroken) ?_
    dsimp only
    rw [hsource, hfailed]
    exact ⟨rfl, rfl, rfl, rfl, by simp⟩

end Sys2Proof.Machine
end

section

/-! SUPPORT. Command slots, the ages of reads and the refresh windows of a pseudo-channel: O34. -/

namespace Sys2Proof.Machine

/-! The slot counters of the pseudo-channels -/

/-- No pseudo-channel of g stands at another slot than in h. -/
structure Hub.KeepsSlots (g h : Hub) : Prop where
  slot : ∀ j, (g.pc j).slot = (h.pc j).slot

theorem Hub.pc_of_pcs {g h : Hub} (e : g.pcs = h.pcs) (j : Nat) : g.pc j = h.pc j := by rw [Hub.pc, Hub.pc, e]

theorem Hub.KeepsSlots.refl (h : Hub) : h.KeepsSlots h := ⟨fun _ => rfl⟩
theorem Hub.KeepsSlots.trans {f g h : Hub} (a : f.KeepsSlots g) (b : g.KeepsSlots h) : f.KeepsSlots h :=
  ⟨fun j => (a.slot j).trans (b.slot j)⟩
theorem Hub.KeepsSlots.of_pcs {g h : Hub} (e : g.pcs = h.pcs) : g.KeepsSlots h := ⟨fun j => congrArg Pc.slot (Hub.pc_of_pcs e j)⟩

theorem Hub.KeepsSlots.putPc {h : Hub} {i : Nat} {v : Pc} (e : v.slot = (h.pc i).slot) : (h.putPc i v).KeepsSlots h := by
  refine ⟨fun j => ?_⟩
  rw [Hub.pc_putPc]
  split
  · next hj => rw [hj, e]
  · rfl

@[simp] theorem Hub.ite_pcs (c : Prop) [Decidable c] (a b : Hub) : (if c then a else b : Hub).pcs = if c then a.pcs else b.pcs :=
  apply_ite ..

@[simp] theorem Hub.engCount_pcs (h : Hub) (i ev amt : Nat) (part : Option (BitVec 6)) : (h.engCount i ev amt part).pcs = h.pcs := by
  unfold Hub.engCount
  split
  · rfl
  · exact foldl_keeps Hub.pcs _ (fun h n => by split <;> rfl) _ h

@[simp] theorem Hub.countStack_pcs (h : Hub) (code i : Nat) (part : Option (BitVec 6)) : (h.countStack code i part).pcs = h.pcs := by
  simp [Hub.countStack]

@[simp] theorem Hub.capture_pcs (h : Hub) (id sector : Nat) (w : Code) : (h.capture id sector w).pcs = h.pcs := by
  unfold Hub.capture
  split <;> rfl

@[simp] theorem Hub.putCode_pcs (h : Hub) (ps off sector : Nat) (w : Code) : (h.putCode ps off sector w).pcs = h.pcs := rfl

/-! Commands of a slot (R223, R227, R231) -/

theorem Hub.doActivate_keepsSlots (h : Hub) (i : Nat) (e : Cand) : (h.doActivate i e).KeepsSlots h := by
  unfold Hub.doActivate
  extract_lets c part sh h1
  have kept1 : h1.KeepsSlots h := .trans (.of_pcs (by simp [h1])) (.putPc (i := i) (v := c.activate e) rfl)
  clear_value sh
  split
  · dsimp only
    split
    · exact .trans (.of_pcs (by simp)) kept1
    · exact kept1
  · exact kept1

theorem Hub.doRead_keepsSlots (h : Hub) (i : Nat) (s : Stack) (e : RdEntry) : (h.doRead i s e).KeepsSlots h := by
  unfold Hub.doRead
  extract_lets c k lvl8 w waited b c1 c2 h1 h2 h3 h4
  have kept1 : h1.KeepsSlots h := .putPc rfl
  exact .trans (.of_pcs (by simp [h4, h3, h2])) kept1

theorem Hub.doWrite_keepsSlots (h : Hub) (i : Nat) (s : Stack) (e : WrEntry) : (h.doWrite i s e).KeepsSlots h := by
  unfold Hub.doWrite
  extract_lets c k c1 h1 h2
  have kept1 : h1.KeepsSlots h := .putPc rfl
  exact .trans (.of_pcs (by simp [h2])) kept1

theorem Hub.doColumn_keepsSlots (h : Hub) (i : Nat) (s : Stack) (e : Cand) : (h.doColumn i s e).KeepsSlots h := by
  unfold Hub.doColumn
  dsimp only
  repeat' split
  · exact h.doWrite_keepsSlots ..
  · exact .refl h
  · exact h.doRead_keepsSlots ..
  · exact .refl h

theorem Hub.doRefresh_keepsSlots (h : Hub) (i : Nat) (s : Stack) (k : Nat) (forced : Bool) :
    (h.doRefresh i s k forced).KeepsSlots h := by
  unfold Hub.doRefresh
  extract_lets c b h1
  exact .trans (.of_pcs (by simp [h1])) (.putPc (i := i) (v := c.putBank k { b with debt := b.debt - 1, refUntil := c.slot + s.rfc }) rfl)

theorem Hub.precharge_keepsSlots (h : Hub) (i k : Nat) : (h.putPc i ((h.pc i).precharge k)).KeepsSlots h := .putPc rfl

theorem Hub.rowCommand_keepsSlots (h : Hub) (i : Nat) (s : Stack) (cs : List Cand) (inner : Option Cand) :
    (h.rowCommand i s cs inner).1.KeepsSlots h := by
  unfold Hub.rowCommand
  dsimp only
  repeat' split
  all_goals dsimp only
  · exact h.precharge_keepsSlots ..
  · exact h.doRefresh_keepsSlots ..
  · exact .refl h
  · exact h.doActivate_keepsSlots ..
  · exact h.precharge_keepsSlots ..
  · exact h.doRefresh_keepsSlots ..
  · exact h.precharge_keepsSlots ..
  · exact .refl h

/-- A row command issues only while the row bus is free. -/
theorem Hub.KeepsSlots.rowTurn {g h : Hub} (kept : g.KeepsSlots h) (row : Bool) (i : Nat) (s : Stack) (cs : List Cand)
    (inner : Option Cand) : (if row then g.rowCommand i s cs inner else (g, false)).1.KeepsSlots h := by
  cases row
  · exact kept
  · exact (g.rowCommand_keepsSlots ..).trans kept

/-! One slot of a pseudo-channel -/

theorem Hub.drainMode_keepsSlots (h : Hub) (i : Nat) : (h.drainMode i).KeepsSlots h := by
  have enter (n : Nat) : ((h.putPc i { h.pc i with drain := n }).engCount i 14 1 none).KeepsSlots h :=
    .trans (.of_pcs (by simp)) (.putPc (i := i) (v := { h.pc i with drain := n }) rfl)
  have leave : (h.putPc i { h.pc i with drain := 0 }).KeepsSlots h := .putPc rfl
  unfold Hub.drainMode
  dsimp only
  repeat' split
  · exact enter 1
  · exact enter 2
  · exact .refl h
  · exact leave
  · exact .refl h
  · exact leave
  · exact .refl h

theorem Hub.account_keepsSlots (h : Hub) (i : Nat) (cat : SlotCat) : (h.account i cat).KeepsSlots h := by
  refine .of_pcs ?_
  cases cat <;> simp [Hub.account]

theorem Hub.reissueColumn_keepsSlots (h : Hub) (i : Nat) (s : Stack) : (h.reissueColumn i s).1.KeepsSlots h := by
  unfold Hub.reissueColumn
  dsimp only
  split
  · exact .refl h
  · next x rest _ =>
    split
    · have taken : (h.putPc i { h.pc i with reissue := rest }).KeepsSlots h := .putPc rfl
      dsimp only
      split
      · exact (Hub.doRead_keepsSlots ..).trans taken
      · exact (Hub.doWrite_keepsSlots ..).trans taken
      · exact taken
    · exact .refl h

theorem Hub.recoverSlot_keepsSlots (h : Hub) (i : Nat) (s : Stack) (row col : Bool) : (h.recoverSlot i s row col).1.KeepsSlots h := by
  unfold Hub.recoverSlot
  dsimp only
  split
  · exact .putPc rfl
  · have column : (if col then h.reissueColumn i s else (h, false) : Hub × Bool).1.KeepsSlots h := by
      split
      · exact h.reissueColumn_keepsSlots i s
      · exact .refl h
    exact column.rowTurn ..

/-- The next slot of a pseudo-channel begins. -/
def Hub.nextSlot (h : Hub) (i : Nat) : Hub := h.putPc i { h.pc i with slot := (h.pc i).slot + 1 }

theorem Hub.pcSlot_keepsSlots (h : Hub) (i : Nat) (row col : Bool) : (h.pcSlot i row col).1.KeepsSlots (h.nextSlot i) := by
  unfold Hub.pcSlot
  extract_lets s p h1 c h2 h3
  change Hub.KeepsSlots _ h1
  split
  · exact .refl h1
  · have kept3 : h3.KeepsSlots h1 := by
      refine (Hub.account_keepsSlots ..).trans ?_
      simp only [h2]
      split
      · exact .refl h1
      · exact h1.drainMode_keepsSlots i
    clear_value h3
    split
    · exact .trans (.putPc rfl) kept3
    · split
      · exact (Hub.recoverSlot_keepsSlots ..).trans kept3
      · generalize h3.slotCands i = x
        obtain ⟨cs, inner⟩ := x
        dsimp only
        generalize (if col = true then s.columnChoice (h3.pc i) cs inner else none) = choice
        cases choice with
        | none => exact kept3.rowTurn ..
        | some e => exact ((h3.doColumn_keepsSlots i s e).trans kept3).rowTurn ..

/-- A slot of a pseudo-channel moves its own counter by one, whatever it issues (R227). -/
theorem Hub.slot_pcSlot (h : Hub) (i : Nat) (row col : Bool) : ((h.pcSlot i row col).1.pc i).slot = (h.pc i).slot + 1 := by
  rw [(h.pcSlot_keepsSlots i row col).slot i, Hub.nextSlot, Hub.pc_putPc, if_pos rfl]

/-- The pseudo-channel whose turn it is goes first; the other has the buses that it left free (R227). The three values are variables
because unfolding two whole slots to compare them is too costly. -/
theorem Hub.commandSlot_eq (h : Hub) (e a b : Nat) (first : Hub × Bool × Bool) (ha : a = 2 * e + (h.pc (2 * e)).slot % 2)
    (hb : b = 4 * e + 1 - a) (hfirst : first = h.pcSlot a true true) :
    h.commandSlot e = (first.1.pcSlot b first.2.1 first.2.2).1 := by
  subst ha hb hfirst
  rfl

/-! Ages (R225) -/

/-- A read that entered its queue 0.8 µs ago or earlier stands at level 8. -/
def RdEntry.aged (now : Nat) (x : RdEntry) : RdEntry :=
  if x.entered.any (fun t => decide (t + 80 ≤ now)) then { x with level := 8 } else x

theorem RdEntry.entered_aged (now : Nat) (x : RdEntry) : (x.aged now).entered = x.entered := by
  unfold RdEntry.aged
  split <;> rfl

theorem RdEntry.level_aged {now a : Nat} {x : RdEntry} (hx : x.entered = some a) (hdue : a + 80 ≤ now) : (x.aged now).level = 8 := by
  simp [RdEntry.aged, hx, hdue]

/-- The ages rise when the oldest read below level 8 has waited 0.8 µs (log 39). -/
theorem Hub.raiseAges_of_waiting {h : Hub} {i : Nat} {x : RdEntry}
    (hx : (h.pc i).queued.find? (fun e => decide (e.cand.level < 8)) = some x) :
    h.raiseAges i = (h.reach (x.entered.getD h.now + 80)).putPc i
      { h.pc i with rd := (h.pc i).rd.map (RdEntry.aged (max h.now (x.entered.getD h.now + 80))) } := by
  simp only [Hub.raiseAges, hx]
  rfl

/-! Refresh windows (R231) -/

/-- A bank owes one refresh more. -/
def Pc.owe (c : Pc) (k : Nat) : Pc := c.putBank k { c.bank k with debt := (c.bank k).debt + 1 }

theorem Pc.bank_putBank (c : Pc) (k j : Nat) (b : Bank) : (c.putBank k b).bank j = if j = k then b else c.bank j := by
  simp only [Pc.bank, Pc.putBank, SMap.get_set]

theorem Pc.debt_owe (c : Pc) (k j : Nat) : ((c.owe k).bank j).debt = if j = k then (c.bank j).debt + 1 else (c.bank j).debt := by
  rw [Pc.owe, Pc.bank_putBank]
  split
  · next hj => rw [hj]
  · rfl

/-- Every one of the first n banks owes one refresh more; the windows do not move. -/
theorem Pc.foldl_owe (c : Pc) (n : Nat) : ((List.range n).foldl Pc.owe c).windowAt = c.windowAt ∧
    ∀ k, (((List.range n).foldl Pc.owe c).bank k).debt = if k < n then (c.bank k).debt + 1 else (c.bank k).debt := by
  induction n with
  | zero => exact ⟨rfl, fun k => rfl⟩
  | succ n ih =>
    obtain ⟨hwindow, hdebt⟩ := ih
    rw [List.range_succ, List.foldl_append, List.foldl_cons, List.foldl_nil]
    refine ⟨hwindow, fun k => ?_⟩
    rw [Pc.debt_owe, hdebt]
    by_cases hk : k = n
    · simp [hk]
    · simp [hk, Nat.le_iff_lt_or_eq]

/-- A window that is due on a serving pseudo-channel leaves every bank owing one refresh more. -/
theorem Hub.pc_refreshWindow {h : Hub} {i : Nat} (hst : (h.pc i).st = 1 ∨ (h.pc i).st = 2 ∨ (h.pc i).st = 3)
    (hdue : (h.pc i).windowAt ≤ 2 * (h.pc i).slot) (j : Nat) : (h.refreshWindow i).pc j =
      if j = i then h.bankKeys.foldl Pc.owe { h.pc i with windowAt := (h.pc i).windowAt + (h.stack (i / 64)).refi } else h.pc j := by
  unfold Hub.refreshWindow
  dsimp only
  rw [if_neg (Nat.not_lt.mpr hdue), if_neg (by tauto), Hub.pc_wrFld, Hub.pc_putPc]
  rfl

/-- Settles O34: a slot moves its own counter only, the aged reads rise together, and a window adds to each bank once. -/
theorem slotsAgesAndRefreshDebt : Obligations.SlotsAgesAndRefreshDebt := by
  unfold Obligations.SlotsAgesAndRefreshDebt
  refine ⟨fun s e => ?_, fun s e pc x => ?_, fun s e pc => ?_⟩
  · intro a b first
    exact ⟨becomes_onHub (f := fun h => h.commandSlot e.toNat) (s.hub.commandSlot_eq e.toNat a b first rfl rfl rfl),
      s.hub.slot_pcSlot a true true, first.1.slot_pcSlot b first.2.1 first.2.2⟩
  · intro i hx
    refine ⟨{ s with hub := s.hub.raiseAges i }, rfl, ?_⟩
    dsimp only
    rw [Hub.raiseAges_of_waiting hx, Hub.pc_putPc, if_pos rfl]
    refine ⟨by simp [Hub.reach], fun y hy a ha hdue => ?_, List.length_map .., fun j hj => ?_, by simp⟩
    · obtain ⟨z, -, rfl⟩ := List.mem_map.mp hy
      rw [RdEntry.entered_aged] at ha
      exact RdEntry.level_aged ha hdue
    · rw [Hub.pc_putPc, if_neg hj]
      rfl
  · intro i hst hdue
    refine ⟨{ s with hub := s.hub.refreshWindow i }, rfl, ?_⟩
    dsimp only
    rw [Hub.pc_refreshWindow hst hdue, if_pos rfl]
    obtain ⟨hwindow, hdebt⟩ :=
      Pc.foldl_owe { s.hub.pc i with windowAt := (s.hub.pc i).windowAt + (s.hub.stack (i / 64)).refi } (16 * s.hub.amap.sids)
    refine ⟨hwindow, fun k hk => ?_, fun j hj => ?_, by simp⟩
    · exact (hdebt k).trans (if_pos hk)
    · rw [Hub.pc_refreshWindow hst hdue, if_neg hj]

end Sys2Proof.Machine
end

section

/-! SUPPORT. A parity error of a pseudo-channel: O35. -/

namespace Sys2Proof.Machine

/-! Recovery (R233) -/

/-- A pseudo-channel that recovers: its rows closed, its last commands to be issued again before the others. -/
def Pc.recovering (c : Pc) (s : Stack) : Pc :=
  { c.closeRows (c.slot + s.parRec) with
    reissue := keepIssued s c ++ c.reissue, issued := [], recover := s.parRec + s.tm 0 2 }

/-- A bank whose row is closed at a slot. -/
def Bank.closed (b : Bank) (slot : Nat) : Bank := if b.row.isSome then { b with row := none, pre := slot } else b

theorem Bank.row_closed (b : Bank) (slot : Nat) : (b.closed slot).row = none := by
  unfold Bank.closed
  split
  · rfl
  · next hrow => exact Option.not_isSome_iff_eq_none.mp hrow

theorem Pc.row_closeRows (c : Pc) (slot k : Nat) : ((c.closeRows slot).bank k).row = none :=
  SMap.get_map_rel (R := fun b _ => b.row = none) (fun _ => Bank.idle) (f := fun e => (e.1, e.2.closed slot)) (fun _ => rfl)
    (fun e => e.2.row_closed slot) (fun _ => rfl) c.banks k

/-- A recovery changes its pseudo-channel, and what its last reads returned (R233). -/
theorem Hub.recoverPc_changes (h : Hub) (i : Nat) :
    (h.recoverPc i).pc i = (h.pc i).recovering (h.stack (i / 64)) ∧ (h.recoverPc i).now = h.now := by
  have hnow (g : Hub) (e : RdEntry) : (g.uncapture e).now = g.now := by
    unfold Hub.uncapture
    split <;> rfl
  exact ⟨(Hub.pc_putPc ..).trans (if_pos rfl), foldl_keeps Hub.now _ hnow _ h⟩

/-! Counting (R234) -/

/-- The parity errors of a pseudo-channel within the last second. -/
def Hub.lateParity (h : Hub) (i : Nat) : List Nat := (h.pc i).parity.filter (fun t => decide (h.now < t + 100000000))

/-- A parity error is counted in CHE.PAR_STATUS and STK.PAR_CNT and raises the stack's cause bit 1. -/
def Hub.countParity (h : Hub) (i : Nat) : Hub :=
  ((h.bump (pChe (i / 2)) 0x54 (8 * (i % 2)) 8 1).bump (pStk (i / 64)) 0x6C 0 32 1).raise (pStk (i / 64)) 1

theorem Hub.pc_countParity (h : Hub) (i j : Nat) : (h.countParity i).pc j = h.pc j := Hub.pc_of_pcs (by simp [Hub.countParity]) j

/-- The recovery of a pseudo-channel with its error noted and counted. -/
def Hub.parityNoted (h : Hub) (i : Nat) : Hub :=
  ((h.recoverPc i).putPc i { (h.recoverPc i).pc i with
    parity := (h.recoverPc i).lateParity i ++ [(h.recoverPc i).now] }).countParity i

/-- The third error within a second has the pseudo-channel left (R234, R353). -/
theorem Hub.parityError_eq (h : Hub) (i : Nat) : h.parityError i =
    if 2 ≤ (h.lateParity i).length then
      ((h.parityNoted i).abandonWhere (fun b => slabPc b == i)).retireList ((h.parityNoted i).liveOf i false) 1 (i / 2)
    else h.parityNoted i := by
  obtain ⟨hpc, hnow⟩ := h.recoverPc_changes i
  have hlate : (h.recoverPc i).lateParity i = h.lateParity i := by
    rw [Hub.lateParity, hpc, hnow]
    rfl
  have hthird : 3 ≤ ((h.recoverPc i).lateParity i ++ [(h.recoverPc i).now]).length ↔ 2 ≤ (h.lateParity i).length := by
    rw [hlate, List.length_append, List.length_singleton, Nat.succ_le_succ_iff]
  rw [← if_congr hthird rfl rfl]
  rfl

theorem Hub.parityNoted_shows (h : Hub) (i : Nat) :
    (h.parityNoted i).pc i = { (h.pc i).recovering (h.stack (i / 64)) with parity := h.lateParity i ++ [h.now] } ∧
    bit ((h.parityNoted i).rd (pStk (i / 64)) 0x10) 1 = true ∧ (h.parityNoted i).mem = h.mem := by
  obtain ⟨hpc, hnow⟩ := h.recoverPc_changes i
  unfold Hub.parityNoted
  refine ⟨?_, ?_, by simp [Hub.countParity]⟩
  · rw [Hub.pc_countParity, Hub.pc_putPc, if_pos rfl, Hub.lateParity, hpc, hnow]
    rfl
  · rw [Hub.countParity, Hub.rd_raise, if_pos rfl, bit_putBit_same _ _ (by decide)]

/-- Settles O35: the noted error is the state that the third one adds the retirements to. -/
theorem parityErrorsRecover : Obligations.ParityErrorsRecover := by
  unfold Obligations.ParityErrorsRecover
  intro s e pc hfit i recent
  have hstack : i / 64 = e.toNat / 32 := by omega
  obtain ⟨hpc, hirq, hmem⟩ := s.hub.parityNoted_shows i
  rw [hstack] at hirq
  refine ⟨_, onStack_next.mpr ⟨hfit, rfl⟩, s.hub.parityNoted i, s.hub.parityError_eq i, ?_⟩
  rw [hpc]
  exact ⟨rfl, rfl, rfl, Pc.row_closeRows _ _, hirq, rfl, hmem⟩

end Sys2Proof.Machine
end

section

/-! SUPPORT. Retraining slices and the training of an OFFLINE channel: O36. -/

namespace Sys2Proof.Machine

/-! Refreshes before a slice -/

@[simp] theorem Hub.engCount_stk_now (h : Hub) (i ev amt : Nat) (part : Option (BitVec 6)) :
    (h.engCount i ev amt part).stk = h.stk ∧ (h.engCount i ev amt part).now = h.now := by
  unfold Hub.engCount
  split
  · exact ⟨rfl, rfl⟩
  · exact ⟨foldl_keeps Hub.stk _ (fun h n => by split <;> rfl) _ h, foldl_keeps Hub.now _ (fun h n => by split <;> rfl) _ h⟩

@[simp] theorem Hub.doRefresh_stk_now (h : Hub) (i : Nat) (s : Stack) (k : Nat) (forced : Bool) :
    (h.doRefresh i s k forced).stk = h.stk ∧ (h.doRefresh i s k forced).now = h.now := by
  cases forced <;> simp [Hub.doRefresh, Hub.countStack]

/-- A serving pseudo-channel that is stopped enters SLICE; no stack and no time passes. -/
theorem Hub.stopPc_of_serving {h : Hub} {i : Nat} (hserving : (h.pc i).serving = true) (s : Stack) :
    ((h.stopPc i s).pc i).st = 2 ∧ (h.stopPc i s).stk = h.stk ∧ (h.stopPc i s).now = h.now := by
  simp only [Hub.stopPc, hserving, Bool.not_true, Bool.false_eq_true, if_false]
  refine ⟨by rw [Hub.pc_putPc, if_pos rfl], ?_, ?_⟩
  · exact foldl_keeps Hub.stk _ (fun h k => by split <;> simp) _ h
  · exact foldl_keeps Hub.now _ (fun h k => by split <;> simp) _ h

/-! A data slice (R235) -/

/-- A stack whose next data slice has been taken. -/
def Stack.dataTaken (s : Stack) : Stack := { s with nextData := s.nextData + 1 }

/-- A stack whose slice runs on the data lanes of a pseudo-channel. -/
def Stack.slicing (s : Stack) (pcNo : Nat) : Stack := { s with slice := 1, slicePc := pcNo, opSlice := false }

theorem Hub.startSlice_of_serving {h : Hub} {st pcNo : Nat} (hserving : (h.pc (st * 64 + pcNo)).serving = true) :
    (h.startSlice st 1 pcNo false).stack st = (h.stack st).slicing pcNo ∧
    ((h.startSlice st 1 pcNo false).pc (st * 64 + pcNo)).st = 2 ∧ (h.startSlice st 1 pcNo false).now = h.now := by
  obtain ⟨hst, hstk, hnow⟩ :=
    Hub.stopPc_of_serving (h := h.putStack st ((h.stack st).slicing pcNo)) (i := st * 64 + pcNo) hserving (h.stack st)
  refine ⟨?_, hst, hnow⟩
  calc (h.startSlice st 1 pcNo false).stack st = (h.putStack st ((h.stack st).slicing pcNo)).stack st :=
        congrArg (fun m => SMap.get (fun _ => Stack.absent) m st) hstk
    _ = (h.stack st).slicing pcNo := (Hub.stack_putStack ..).trans (if_pos rfl)

theorem Hub.periodicSlice_of_dataDue {h : Hub} {st : Nat} (hon : h.fld (pStk st) 0x58 31 1 = 1) (hslice : (h.stack st).slice = 0)
    (hop : (h.stack st).opSlice = false) (hself : (h.stack st).selfRefresh = false) (hepisode : h.therm.episode = false)
    (hservice : bit (h.rd (pStk st) 0x40) 1 = true) (hdue : (h.sliceDue st).1 < (h.sliceDue st).2) (hnext : (h.stack st).nextData < 63)
    (hserving : (h.pc (st * 64 + (h.stack st).nextData)).serving = true) :
    h.periodicSlice st =
      ((h.reach (h.sliceDue st).1).putStack st (h.stack st).dataTaken).startSlice st 1 (h.stack st).nextData false := by
  have hruns : ¬(h.fld (pStk st) 0x58 31 1 = 0 ∨ (h.stack st).slice ≠ 0 ∨ (h.stack st).opSlice ∨ (h.stack st).selfRefresh ∨
      h.therm.episode ∨ !bit (h.rd (pStk st) 0x40) 1) := by simp [hon, hslice, hop, hself, hepisode, hservice]
  unfold Hub.periodicSlice
  dsimp only
  rw [if_neg hruns, if_neg (Nat.not_le.mpr hdue), if_neg (Nat.ne_of_lt hnext)]
  exact if_pos hserving

theorem Hub.pc_putStack (h : Hub) (st j : Nat) (v : Stack) : (h.putStack st v).pc j = h.pc j := rfl

/-! The end of a slice (R235, R236) -/

theorem Hub.resumePc_of_slice {h : Hub} {i : Nat} (hst : (h.pc i).st = 2) :
    h.resumePc i = h.putPc i { h.pc i with st := (h.pc i).prior } := if_pos hst

theorem Hub.opSliceNext_of_none {h : Hub} {st : Nat} (hop : h.opOf (pStk st) = none) : h.opSliceNext st = h := by
  simp only [Hub.opSliceNext, hop]

theorem Hub.fld_bump_same (h : Hub) (p o k : Nat) {lo n : Nat} (hw : lo + n ≤ 32) :
    (h.bump p o lo n k).fld p o lo n = satAdd (2 ^ n - 1) (h.fld p o lo n) k := by
  have hfits : satAdd (2 ^ n - 1) (h.fld p o lo n) k < 2 ^ n :=
    Nat.lt_of_le_of_lt (Nat.min_le_left ..) (Nat.sub_one_lt (Nat.two_pow_pos n).ne')
  rw [Hub.fld, Hub.bump, Hub.rd_wrFld, if_pos rfl, bitsNat_putBits _ _ hw, Nat.mod_eq_of_lt hfits]

theorem Hub.fld_wrFld_above (h : Hub) (p o v : Nat) {lo n lo' n' : Nat} (hlo : lo' + n' ≤ lo) :
    (h.wrFld p o lo n v).fld p o lo' n' = h.fld p o lo' n' := by
  rw [Hub.fld, Hub.rd_wrFld, if_pos rfl, bitsNat_putBits_below _ _ hlo, Hub.fld]

/-- A stack whose slice has ended with its lanes measured. -/
def Stack.sliced (s : Stack) (lanes : List LaneReport) : Stack := { s.measure lanes with slice := 0 }

theorem Hub.sliceEnd_of_measured {h : Hub} {st : Nat} {lanes : List LaneReport} (hslice : (h.stack st).slice = 1)
    (hdrift : (h.stack st).drifts lanes = false) (hop : (h.stack st).opSlice = false) :
    h.sliceEnd st lanes true = (((h.resumePc (st * 64 + (h.stack st).slicePc)).putStack st ((h.stack st).sliced lanes)).bump
      (pStk st) 0x5C 0 24 1).wrFld (pStk st) 0x5C 24 6 (h.stack st).slicePc := by
  simp [Hub.sliceEnd, hslice, hdrift, hop, Stack.sliced]

/-- The end of a slice that no lane drifts in: the stack's lanes, its pseudo-channel, the count of slices (R235 steps 3 and 4). -/
theorem Hub.sliceEnd_shows {h : Hub} {st : Nat} {lanes : List LaneReport} (hslice : (h.stack st).slice = 1)
    (hdrift : (h.stack st).drifts lanes = false) (hop : (h.stack st).opSlice = false)
    (hst : (h.pc (st * 64 + (h.stack st).slicePc)).st = 2) :
    (h.sliceEnd st lanes true).stack st = (h.stack st).sliced lanes ∧
    ((h.sliceEnd st lanes true).pc (st * 64 + (h.stack st).slicePc)).st = (h.pc (st * 64 + (h.stack st).slicePc)).prior ∧
    (h.sliceEnd st lanes true).fld (pStk st) 0x5C 0 24 = satAdd (2 ^ 24 - 1) (h.fld (pStk st) 0x5C 0 24) 1 ∧
    (h.sliceEnd st lanes true).ops = h.ops := by
  rw [Hub.sliceEnd_of_measured hslice hdrift hop, Hub.resumePc_of_slice hst]
  refine ⟨?_, ?_, ?_, by simp⟩
  · exact (Hub.stack_putStack ..).trans (if_pos rfl)
  · rw [Hub.pc_wrFld, Hub.bump, Hub.pc_wrFld, Hub.pc_putStack, Hub.pc_putPc, if_pos rfl]
  · rw [Hub.fld_wrFld_above _ _ _ _ (by decide), Hub.fld_bump_same _ _ _ _ (by decide)]
    rfl

/-! Training (R236, R354, R405) -/

theorem Hub.rd_endOp_page (h : Hub) {page : Nat} (code : Nat) {p o : Nat} (hp : p ≠ page) (ho : o < 4096) :
    (h.endOp page code).rd p o = h.rd p o := by
  unfold Hub.endOp
  split
  · next o' c _ _ =>
    have hoff : (opResultOf c).1 < 4096 := by cases c <;> decide
    dsimp only
    rw [Hub.rd_raise_page _ _ hp ho, Hub.rd_wrFld_page _ _ _ _ hp ho (by decide), Hub.rd_putLongOp, Hub.rd_wr_page _ _ hp ho hoff]
  · rfl

/-- The pseudo-channels of g, and its registers outside the RAS page, are those of h. -/
structure Hub.SameChannels (g h : Hub) : Prop where
  pcs : g.pcs = h.pcs
  regs : ∀ p o, p ≠ pRas → o < 4096 → g.rd p o = h.rd p o

theorem Hub.rd_submit (h : Hub) (typ : Nat) (critical : Bool) (payload : List Byte) (p o : Nat) :
    (h.submit typ critical payload).rd p o = h.rd p o := rfl

theorem Hub.rd_setRas (h : Hub) (v : Ras) (p o : Nat) : (h.setRas v).rd p o = h.rd p o := rfl

theorem Hub.startRetire_sameChannels (h : Hub) (ps cause : Nat) : (h.startRetire ps cause).SameChannels h := by
  unfold Hub.startRetire
  dsimp only
  constructor
  · repeat' split
    all_goals simp
  · intro p o hp ho
    have ho' : 0x68 < 4096 := by decide
    repeat' split
    all_goals simp [Hub.rd_submit, Hub.rd_setRas, Hub.rd_raise_page _ _ hp ho, Hub.rd_bump_page _ _ _ _ hp ho ho']

theorem Hub.retireAgain_sameChannels (h : Hub) : h.retireAgain.SameChannels h := by
  unfold Hub.retireAgain
  repeat' split
  · exact ⟨rfl, fun _ _ _ _ => rfl⟩
  · exact ⟨by simp, fun p o hp ho => Hub.rd_endOp_page _ _ hp ho⟩
  · exact Hub.startRetire_sameChannels ..
  · exact ⟨rfl, fun _ _ _ _ => rfl⟩

theorem Hub.startPending_of_none {h : Hub} (hpending : h.ras.pending = []) : h.startPending = h.retireAgain := by
  simp only [Hub.startPending, hpending]

/-- A channel whose training has passed, before any retirement that waited for it. -/
def Hub.trainedChannel (h : Hub) (engine repaired : Nat) : Hub :=
  let g := (h.wr (pStk (engine / 32)) 0x68 (BitVec.ofNat 32 repaired)).lanesSet (engine / 32)
    (fun j => j / 2 == engine % 32 || j == 64 + engine % 32)
  let g := (g.putPc (2 * engine) (g.pc (2 * engine)).trained).putPc (2 * engine + 1) (g.pc (2 * engine + 1)).trained
  g.wr (pStk (engine / 32)) 0x60 (putBit (g.rd (pStk (engine / 32)) 0x60) (engine % 32) false)

/-- Spare lanes are switched in where they are allowed; a training that needs none passes either way (R405). -/
theorem Hub.channelTrained_of_passed {h : Hub} {engine repaired : Nat} (hst : (h.pc (2 * engine)).st = 4)
    (hspare : h.sparing = true ∨ repaired = 0) :
    h.channelTrained engine true repaired = (h.trainedChannel engine repaired).startPending := by
  rcases hspare with hspare | rfl
  · simp [Hub.channelTrained, Hub.trainedChannel, hst, hspare]
  · simp [Hub.channelTrained, Hub.trainedChannel, hst]

theorem Hub.trainedChannel_serves (h : Hub) (engine repaired : Nat) :
    ((h.trainedChannel engine repaired).pc (2 * engine)).st = 1 ∧ ((h.trainedChannel engine repaired).pc (2 * engine + 1)).st = 1 ∧
    bit ((h.trainedChannel engine repaired).rd (pStk (engine / 32)) 0x60) (engine % 32) = false ∧
    (h.trainedChannel engine repaired).rd (pStk (engine / 32)) 0x68 = BitVec.ofNat 32 repaired := by
  unfold Hub.trainedChannel
  extract_lets g g1
  have hpc j : (Hub.wr g1 (pStk (engine / 32)) 0x60 (putBit (g1.rd (pStk (engine / 32)) 0x60) (engine % 32) false)).pc j = g1.pc j := rfl
  refine ⟨?_, ?_, ?_, ?_⟩
  · rw [hpc, Hub.pc_putPc, if_neg (by omega), Hub.pc_putPc, if_pos rfl]
    rfl
  · rw [hpc, Hub.pc_putPc, if_pos rfl]
    rfl
  · rw [Hub.rd_wr_same, bit_putBit_same _ _ (Nat.mod_lt _ (by decide))]
  · rw [Hub.rd_wr_ne _ _ (by omega)]
    exact Hub.rd_wr_same ..

/-- Settles O36: a slice that starts, a slice that ends measured, and a training that passes. -/
theorem slicesAndTraining : Obligations.SlicesAndTraining := by
  unfold Obligations.SlicesAndTraining
  refine ⟨fun s st hfit hon hslice hop hself hepisode hservice hdue hnext hserving => ?_,
    fun s st lanes hfit hslice hdrift hop hnone hst => ?_, fun s e repaired hfit hst hpending hspare => ?_⟩
  · have hstart := Hub.periodicSlice_of_dataDue hon hslice hop hself hepisode hservice hdue hnext hserving
    obtain ⟨hstack, hpc, hnow⟩ := Hub.startSlice_of_serving (pcNo := (s.hub.stack st.toNat).nextData)
      (h := (s.hub.reach (s.hub.sliceDue st.toNat).1).putStack st.toNat (s.hub.stack st.toNat).dataTaken) hserving
    rw [Hub.stack_putStack, if_pos rfl] at hstack
    refine ⟨_, onStack_next.mpr ⟨hfit, rfl⟩, ?_⟩
    dsimp only
    rw [hstart, hstack]
    exact ⟨rfl, rfl, rfl, hpc, hnow, by simp⟩
  · obtain ⟨hstack, hpc, hcount, hops⟩ := Hub.sliceEnd_shows hslice hdrift hop hst
    refine ⟨_, onStack_next.mpr ⟨hfit, rfl⟩, ?_⟩
    dsimp only
    rw [Hub.opSliceNext_of_none ((Hub.opOf_of_ops hops _).trans hnone), hstack, hpc, hcount]
    exact ⟨rfl, rfl, rfl, rfl, by simp⟩
  · obtain ⟨hpc0, hpc1, hneed, hlanes⟩ := s.hub.trainedChannel_serves e.toNat repaired.toNat
    obtain ⟨hpcs, hregs⟩ := (s.hub.trainedChannel e.toNat repaired.toNat).retireAgain_sameChannels
    have hpage : pStk (e.toNat / 32) ≠ pRas := by simp [pStk, pRas]; omega
    have htrained : s.hub.channelTrained e.toNat true repaired.toNat = (s.hub.trainedChannel e.toNat repaired.toNat).retireAgain :=
      (Hub.channelTrained_of_passed hst (hspare.imp_right (congrArg BitVec.toNat))).trans (Hub.startPending_of_none hpending)
    refine ⟨_, onStack_next.mpr ⟨hfit, rfl⟩, ?_⟩
    dsimp only
    refine ⟨?_, ?_, ?_, ?_, by simp⟩
    · rw [htrained, Hub.pc_of_pcs hpcs, hpc0]
    · rw [htrained, Hub.pc_of_pcs hpcs, hpc1]
    · rw [htrained, hregs _ _ hpage (by decide), hneed]
    · rw [htrained, hregs _ _ hpage (by decide), hlanes]

end Sys2Proof.Machine
end

section

/-! SUPPORT. What the gate lists and the epoch count leave as they were, and a list's change to another entry: O17, O18. -/

namespace Sys2Proof.Machine

/-! The clock of the gates (R244 to R246) -/

/-- The epoch count, the time of the last tick, the interval counter and the registers of the HUB page of g are those of h. -/
structure Hub.SameClock (g h : Hub) : Prop where
  epoch : g.tm.epoch = h.tm.epoch
  lastTick : g.tm.lastTick = h.tm.lastTick
  now : g.now = h.now
  hub : ∀ o < 4096, g.rd pHub o = h.rd pHub o

theorem Hub.SameClock.refl (h : Hub) : h.SameClock h := ⟨rfl, rfl, rfl, fun _ _ => rfl⟩

theorem Hub.SameClock.trans {f g h : Hub} (a : f.SameClock g) (b : g.SameClock h) : f.SameClock h :=
  ⟨a.epoch.trans b.epoch, a.lastTick.trans b.lastTick, a.now.trans b.now, fun o ho => (a.hub o ho).trans (b.hub o ho)⟩

theorem foldl_sameClock {α : Type} {f : Hub → α → Hub} (H : ∀ h a, (f h a).SameClock h) (l : List α) (h : Hub) :
    (l.foldl f h).SameClock h :=
  List.foldlRecOn l f (motive := fun g => g.SameClock h) (.refl h) fun g hg a _ => (H g a).trans hg

theorem Hub.putGate_sameClock (h : Hub) (l : Nat) (v : GateList) : (h.putGate l v).SameClock h := ⟨rfl, rfl, rfl, fun _ _ => rfl⟩

theorem Hub.putGframe_sameClock (h : Hub) (n : Nat) (v : GFrame) : (h.putGframe n v).SameClock h := ⟨rfl, rfl, rfl, fun _ _ => rfl⟩

theorem Hub.setPerf_sameClock (h : Hub) (v : Perf) : (h.setPerf v).SameClock h := ⟨rfl, rfl, rfl, fun _ _ => rfl⟩

theorem Hub.raise_sameClock (h : Hub) {p : Nat} (n : Nat) (hp : pHub ≠ p) : (h.raise p n).SameClock h :=
  ⟨by simp, by simp, by simp, fun _ ho => Hub.rd_raise_page h n hp ho⟩

theorem Hub.wr_sameClock (h : Hub) {p o : Nat} (v : Word) (hp : pHub ≠ p) (ho : o < 4096) : (h.wr p o v).SameClock h :=
  ⟨by simp, by simp, by simp, fun _ ho' => Hub.rd_wr_page h v hp ho' ho⟩

theorem Hub.bump_sameClock (h : Hub) {p o : Nat} (lo n k : Nat) (hp : pHub ≠ p) (ho : o < 4096) : (h.bump p o lo n k).SameClock h :=
  h.wr_sameClock _ hp ho

/-! What changes beside the place of the lists -/

/-- Where a gate list stands: its state, its bank and the entry in force. -/
def GateList.place (g : GateList) : BitVec 2 × BitVec 1 × Nat := (g.st, g.bank, g.cur)

/-- g and h have the same clock, the same place of every list, and STARTED alike in the interrupt status of the GATE page (R273). -/
structure Hub.SamePlaces (g h : Hub) : Prop where
  clock : g.SameClock h
  place : ∀ l, (g.gate l).place = (h.gate l).place
  started : bit (g.rd pGate 0x10) 2 = bit (h.rd pGate 0x10) 2

theorem Hub.SamePlaces.refl (h : Hub) : h.SamePlaces h := ⟨.refl h, fun _ => rfl, rfl⟩

theorem Hub.SamePlaces.trans {f g h : Hub} (a : f.SamePlaces g) (b : g.SamePlaces h) : f.SamePlaces h :=
  ⟨a.clock.trans b.clock, fun l => (a.place l).trans (b.place l), a.started.trans b.started⟩

theorem foldl_samePlaces {α : Type} {f : Hub → α → Hub} (H : ∀ h a, (f h a).SamePlaces h) (l : List α) (h : Hub) :
    (l.foldl f h).SamePlaces h :=
  List.foldlRecOn l f (motive := fun g => g.SamePlaces h) (.refl h) fun g hg a _ => (H g a).trans hg

theorem Hub.putGframe_samePlaces (h : Hub) (n : Nat) (v : GFrame) : (h.putGframe n v).SamePlaces h :=
  ⟨h.putGframe_sameClock n v, fun _ => rfl, rfl⟩

theorem Hub.putGate_samePlaces (h : Hub) {l : Nat} {v : GateList} (hv : v.place = (h.gate l).place) : (h.putGate l v).SamePlaces h := by
  refine ⟨h.putGate_sameClock l v, fun k => ?_, rfl⟩
  rw [Hub.gate_putGate]
  split
  · next hk => rw [hk, hv]
  · rfl

theorem Hub.raise_oversize_samePlaces (h : Hub) : (h.raise pGate 3).SamePlaces h := by
  refine ⟨h.raise_sameClock 3 (by decide), fun _ => by simp [Hub.gate], ?_⟩
  rw [Hub.rd_raise, if_pos rfl]
  exact bit_putBits_below _ (by decide)

/-- An event's credit is written on the page of its channel, above the pages 0 to 15. -/
theorem Hub.dmaEventTo_keeps (h : Hub) (ch : Nat) : (h.dmaEventTo ch).tm = h.tm ∧ (h.dmaEventTo ch).now = h.now ∧
    ∀ p o, p < 16 → o < 4096 → (h.dmaEventTo ch).rd p o = h.rd p o := by
  have hpage {p : Nat} (hp : p < 16) : p ≠ pDma ch := by unfold pDma; omega
  have hcredit : 0x70 < 4096 := by decide
  have hover : 0x84 < 4096 := by decide
  unfold Hub.dmaEventTo
  dsimp only
  repeat' split
  all_goals exact ⟨by simp, by simp, fun p o hp ho => by
    simp [Hub.rd_raise_page _ _ (hpage hp) ho, Hub.rd_bump_page _ _ _ _ (hpage hp) ho hover,
      Hub.rd_wrFld_page _ _ _ _ (hpage hp) ho hcredit]⟩

theorem Hub.dmaEventTo_samePlaces (h : Hub) (ch : Nat) : (h.dmaEventTo ch).SamePlaces h := by
  obtain ⟨htm, hnow, hrd⟩ := h.dmaEventTo_keeps ch
  exact ⟨⟨by rw [htm], by rw [htm], hnow, fun o ho => hrd pHub o (by decide) ho⟩, fun _ => by simp only [Hub.gate, htm],
    by rw [hrd pGate _ (by decide) (by decide)]⟩

theorem Hub.dmaEvent_samePlaces (h : Hub) (completion : Bool) (i : Nat) : (h.dmaEvent completion i).SamePlaces h := by
  refine foldl_samePlaces (fun g ch => ?_) _ _
  split
  · exact g.dmaEventTo_samePlaces ch
  · exact .refl g

/-- The checks at the start of a window change frames and the list's counts (R265, R266). -/
theorem Hub.recheck_samePlaces (h : Hub) (l c : Nat) : (h.recheck l c).SamePlaces h := by
  refine foldl_samePlaces (fun g n => ?_) _ _
  dsimp only
  have hcount {v : GateList} {f : GFrame} (hv : v.place = (g.gate l).place) : ((g.putGframe n f).putGate l v).SamePlaces g :=
    (Hub.putGate_samePlaces (g.putGframe n f) hv).trans (g.putGframe_samePlaces n f)
  repeat' split
  · exact g.putGframe_samePlaces ..
  · exact hcount rfl
  · exact (Hub.raise_oversize_samePlaces _).trans (hcount rfl)
  · exact hcount rfl

/-! Entries and deals (R258 to R263) -/

/-- The hub with entry i of a bank in force in list l. -/
def Hub.atEntry (h : Hub) (l bank i : Nat) : Hub :=
  h.putGate l { h.gate l with cur := i, left := entryDur (h.gateEntry l bank i) }

theorem Hub.place_atEntry (h : Hub) (l bank i : Nat) : ((h.atEntry l bank i).gate l).place = ((h.gate l).st, (h.gate l).bank, i) := by
  rw [Hub.atEntry, Hub.gate_putGate, if_pos rfl]
  rfl

/-- Beside the entry in force, a change of the gates reaches the DMA channels that hear it and the frames that wait. -/
theorem Hub.changeEntry_samePlaces (h : Hub) (l : Nat) (old : Word) (bank i : Nat) :
    (h.changeEntry l old bank i).SamePlaces (h.atEntry l bank i) := by
  have hstart : (h.startEntry l bank i).SamePlaces (h.atEntry l bank i) := by
    unfold Hub.startEntry
    dsimp only
    split
    · exact Hub.dmaEvent_samePlaces ..
    · exact .refl _
  exact (foldl_samePlaces (fun g c => g.recheck_samePlaces l c) _ _).trans hstart

theorem Hub.changeEntry_sameClock (h : Hub) (l : Nat) (old : Word) (bank i : Nat) : (h.changeEntry l old bank i).SameClock h :=
  (h.changeEntry_samePlaces l old bank i).clock.trans (h.putGate_sameClock ..)

/-- The hub with the waiting deal of list l begun: its bank is the active one. -/
def Hub.dealBegun (h : Hub) (l : Nat) : Hub := (h.putGate l { h.gate l with st := 2, bank := (h.gate l).pend }).raise pGate 2

theorem Hub.gate_dealBegun (h : Hub) (l : Nat) : (h.dealBegun l).gate l = { h.gate l with st := 2, bank := (h.gate l).pend } := by
  have htm : (h.dealBegun l).gate l = (h.putGate l { h.gate l with st := 2, bank := (h.gate l).pend }).gate l := by
    simp only [Hub.dealBegun, Hub.gate, Hub.raise_fields]
  rw [htm, Hub.gate_putGate, if_pos rfl]

theorem Hub.dealBegun_started (h : Hub) (l : Nat) : bit ((h.dealBegun l).rd pGate 0x10) 2 = true := by
  rw [Hub.dealBegun, Hub.rd_raise, if_pos rfl, bit_putBit_same _ _ (by decide)]

/-- A due deal makes its bank the active one, at entry 0. -/
theorem Hub.startDeal_samePlaces {h : Hub} {l : Nat} (hdue : h.dealDue l = true) :
    (h.startDeal l).SamePlaces ((h.dealBegun l).atEntry l (h.gate l).pend.toNat 0) := by
  unfold Hub.startDeal
  rw [if_neg (by simp [hdue])]
  exact Hub.changeEntry_samePlaces ..

/-- The entry after the last one is the first. -/
theorem Hub.nextEntry_samePlaces {h : Hub} {l : Nat} (hdeal : h.dealDue l = false) (hdue : h.entryDue l = true) :
    (h.nextEntry l).SamePlaces (h.atEntry l (h.gate l).bank.toNat
      (((h.gate l).cur + 1) % max 1 (h.bankLen l (h.gate l).bank.toNat))) := by
  unfold Hub.nextEntry
  rw [if_neg (by simp [hdeal]), if_neg (by simp [hdue])]
  exact Hub.changeEntry_samePlaces ..

/-- Settles O18: the next entry of the active bank, and the deal's start as the change to entry 0 of the bank that waited. -/
theorem gateListsAdvance : Obligations.GateListsAdvance := by
  unfold Obligations.GateListsAdvance
  refine ⟨fun s l hdeal hdue => ⟨{ s with hub := s.hub.nextEntry l.toNat }, rfl, ?_⟩,
    fun s l hdeal => ⟨{ s with hub := s.hub.startDeal l.toNat }, rfl, ?_⟩⟩
  · obtain ⟨-, hplace, -⟩ := Hub.nextEntry_samePlaces hdeal hdue
    obtain ⟨hst, hbank, hcur⟩ := by simpa only [GateList.place, Prod.mk.injEq] using (hplace l.toNat).trans (Hub.place_atEntry ..)
    exact ⟨hcur, hbank, hst, (s.hub.nextEntry_stores l.toNat).1⟩
  · obtain ⟨-, hplace, hstarted⟩ := Hub.startDeal_samePlaces hdeal
    have hat := (hplace l.toNat).trans (Hub.place_atEntry ..)
    rw [Hub.gate_dealBegun] at hat
    obtain ⟨hst, hbank, hcur⟩ := by simpa only [GateList.place, Prod.mk.injEq] using hat
    exact ⟨hst, hbank, hcur, hstarted.trans (s.hub.dealBegun_started l.toNat), (s.hub.startDeal_stores l.toNat).1⟩

end Sys2Proof.Machine
end

section

/-! SUPPORT. Epoch ticks, the lost strobe, and the buckets of policers and shapers: O17. -/

namespace Sys2Proof.Machine

/-! What a tick leaves of the clock (R245, R262) -/

theorem Hub.startDeal_sameClock (h : Hub) (l : Nat) : (h.startDeal l).SameClock h := by
  cases hdue : h.dealDue l with
  | false => rw [Hub.startDeal, hdue]; exact .refl h
  | true =>
    have hbegun : (h.dealBegun l).SameClock h := (Hub.raise_sameClock _ 2 (by decide)).trans (h.putGate_sameClock ..)
    exact (Hub.startDeal_samePlaces hdue).clock.trans ((Hub.putGate_sameClock ..).trans hbegun)

theorem Hub.nextEntry_sameClock (h : Hub) (l : Nat) : (h.nextEntry l).SameClock h := by
  unfold Hub.nextEntry
  split
  · exact h.startDeal_sameClock l
  · split
    · exact .refl h
    · exact h.changeEntry_sameClock ..

theorem Hub.dumpWrite_sameClock (h : Hub) (o : Nat) (bs : List Byte) : (h.dumpWrite o bs).SameClock h := by
  unfold Hub.dumpWrite
  dsimp only
  repeat' split
  · exact .refl h
  · exact (Hub.raise_sameClock _ 4 (by decide)).trans ((Hub.wr_sameClock _ _ (by decide) (by decide)).trans (h.setPerf_sameClock _))
  · exact ⟨rfl, rfl, rfl, fun _ _ => rfl⟩

theorem Hub.dumpBegin_sameClock (h : Hub) (now : Bool) : (h.dumpBegin now).SameClock h := by
  unfold Hub.dumpBegin
  dsimp only
  exact (Hub.dumpWrite_sameClock ..).trans ((Hub.wr_sameClock _ _ (by decide) (by decide)).trans (h.setPerf_sameClock _))

theorem Hub.dumpDue_sameClock (h : Hub) : h.dumpDue.SameClock h := by
  unfold Hub.dumpDue
  dsimp only
  repeat' split
  · exact .refl h
  · exact h.setPerf_sameClock _
  · exact (Hub.bump_sameClock _ 0 32 1 (by decide) (by decide)).trans ((Hub.setPerf_sameClock ..).trans (h.setPerf_sameClock _))
  · exact (Hub.dumpBegin_sameClock ..).trans (h.setPerf_sameClock _)

theorem Hub.fixStart_sameClock (h : Hub) (l c : Nat) : (h.fixStart l c).SameClock h := by
  unfold Hub.fixStart
  dsimp only
  split
  · exact h.putGate_sameClock ..
  · exact (Hub.raise_sameClock _ 1 (by decide)).trans (h.putGate_sameClock ..)

theorem Hub.rejudge_sameClock (h : Hub) : h.rejudge.SameClock h := by
  refine foldl_sameClock (fun g l => ?_) _ _
  dsimp only
  split
  · exact g.fixStart_sameClock ..
  · exact .refl g

theorem Hub.stopList_sameClock (h : Hub) (l : Nat) : (h.stopList l).SameClock h := by
  unfold Hub.stopList
  dsimp only
  split
  · exact .refl h
  · exact (foldl_sameClock (fun g n => g.putGframe_sameClock n _) _ _).trans (h.putGate_sameClock ..)

theorem Hub.listTick_sameClock (h : Hub) (l : Nat) : (h.listTick l).SameClock h := by
  unfold Hub.listTick
  dsimp only
  split
  · exact (Hub.putGate_sameClock ..).trans (h.stopList_sameClock l)
  · exact h.stopList_sameClock l

theorem Hub.fillBuckets_sameClock (h : Hub) : h.fillBuckets.SameClock h := ⟨rfl, rfl, rfl, fun _ _ => rfl⟩

/-! The tick -/

/-- The hub once what fell due before the tick has happened, the strobe found again. -/
def Hub.dueDone (h : Hub) : Hub :=
  ((List.range 16).foldl (fun h l => (h.startDeal l).nextEntry l) (h.wrFld pHub 0x178 1 1 0)).dumpDue

theorem Hub.dueDone_sameClock (h : Hub) : h.dueDone.SameClock (h.wrFld pHub 0x178 1 1 0) :=
  (Hub.dumpDue_sameClock _).trans (foldl_sameClock (fun g l => (Hub.nextEntry_sameClock _ l).trans (g.startDeal_sameClock l)) _ _)

/-- The hub with a count in force from now on, and no load armed any more. -/
def Hub.counted (h : Hub) (c : BitVec 64) : Hub := (h.setTm { h.tm with epoch := c, lastTick := h.now }).wrFld pHub 0x178 0 2 0

/-- The buckets, deals and lists that follow the count at a tick leave the clock as it was. -/
theorem Hub.tick_sameClock (h : Hub) : h.tick.SameClock (h.dueDone.counted h.dueDone.nextCount) := by
  unfold Hub.tick
  extract_lets _ _ _ _ counted filled judged listed
  have hfilled : filled.SameClock (h.dueDone.counted h.dueDone.nextCount) := Hub.fillBuckets_sameClock _
  have hjudged : judged.SameClock filled := by
    unfold judged
    split
    · exact filled.rejudge_sameClock
    · exact .refl filled
  have hlisted : listed.SameClock judged := foldl_sameClock (fun g l => g.listTick_sameClock l) _ judged
  have hcount := hlisted.trans (hjudged.trans hfilled)
  split
  · exact (listed.setPerf_sameClock _).trans hcount
  · exact hcount

/-- The load and the count are judged as they stood before the tick: finding the strobe again clears LOST alone. -/
theorem Hub.nextCount_dueDone (h : Hub) : h.dueDone.nextCount = h.nextCount := by
  obtain ⟨hepoch, -, -, hhub⟩ := h.dueDone_sameClock
  have hstand {o : Nat} (ho : o < 4096) (hne : o ≠ 0x178) : h.dueDone.rd pHub o = h.rd pHub o := by
    rw [hhub o ho, Hub.rd_wrFld, if_neg (by omega)]
  have hload : bit (h.dueDone.rd pHub 0x178) 0 = bit (h.rd pHub 0x178) 0 := by
    rw [hhub _ (by decide), Hub.rd_wrFld, if_pos rfl, bit_putBits_below _ (by decide)]
  rw [Hub.nextCount, hload, hepoch, Hub.rd64, hstand (by decide) (by decide), hstand (by decide) (by decide)]
  rfl

theorem Hub.fld_bit (h : Hub) (p o i : Nat) : h.fld p o i 1 = (bit (h.rd p o) i).toNat := by
  rw [Hub.fld, bitsNat, bit, BitVec.getLsbD, Nat.toNat_testBit, Nat.shiftRight_eq_div_pow, pow_one]

/-- A tick puts the next count in force at the present time, with no load armed and the strobe not lost. -/
theorem Hub.tick_counts (h : Hub) : h.tick.tm.epoch = h.nextCount ∧ h.tick.tm.lastTick = h.now ∧
    h.tick.fld pHub 0x178 0 1 = 0 ∧ h.tick.lost = false := by
  obtain ⟨hepoch, hlast, -, hhub⟩ := h.tick_sameClock
  have hstatus : h.tick.rd pHub 0x178 = putBits (h.dueDone.rd pHub 0x178) 0 2 0 := by
    rw [hhub _ (by decide)]
    exact Hub.rd_wr_same ..
  have hclear {i : Nat} (hi : i < 2) : bit (h.tick.rd pHub 0x178) i = false := by
    rw [hstatus, bit_putBits_zero _ (Nat.zero_le i) (by omega) (by omega)]
  refine ⟨hepoch.trans h.nextCount_dueDone, hlast.trans h.dueDone_sameClock.now, ?_, hclear (by decide)⟩
  rw [Hub.fld_bit, hclear (by decide)]
  rfl

/-- The strobe, not yet lost, is flagged as lost by LOST and LOST_SEEN, with EPOCH in the interrupt status of the HUB page (R246). -/
theorem Hub.loseStrobe_flags {h : Hub} (hreset : h.inReset = false) (hlost : h.lost = false) :
    h.loseStrobe.lost = true ∧ bit (h.loseStrobe.rd pHub 0x10) 6 = true ∧ h.loseStrobe.tm = h.tm := by
  have hrd (g : Hub) {o : Nat} (ho : o < 4096) : (g.submitO 0x21 0 []).rd pHub o = g.rd pHub o :=
    Hub.rd_submitO_page g 0x21 0 [] (by decide) ho
  unfold Hub.loseStrobe
  rw [if_neg (by simp [hreset, hlost])]
  refine ⟨?_, ?_, by simp⟩
  · rw [Hub.lost, hrd _ (by decide), Hub.rd_raise, if_neg (by decide), Hub.rd_wrFld, if_pos rfl,
      bit_putBits _ 3 (i := 0) (by decide) (by decide)]
    rfl
  · rw [hrd _ (by decide), Hub.rd_raise, if_pos rfl, bit_putBit_same _ _ (by decide)]

/-! Buckets (R253, R255, R257) -/

theorem SMap.get_of_lt {α : Type} [DecidableEq α] {d : Nat → α} (m : SMap α) {lo k : Nat} (hwf : SMap.wfFrom d lo m = true)
    (hk : k < lo) : SMap.get d m k = d k := by
  induction m generalizing lo with
  | nil => rfl
  | cons e m ih =>
    simp only [SMap.wfFrom, Bool.and_eq_true, decide_eq_true_eq] at hwf
    obtain ⟨⟨hlo, -⟩, hm⟩ := hwf
    rw [SMap.get, if_neg (by omega), ih hm (by omega)]

/-- A map whose entries are all advanced by f reads everywhere as f of what stood there, when f keeps what an unlisted address reads
as. -/
theorem SMap.get_map_filter {α : Type} [DecidableEq α] {c : α} {f : α → α} (hf : f c = c) (m : SMap α) {lo : Nat}
    (hwf : SMap.wfFrom (fun _ => c) lo m = true) (k : Nat) :
    SMap.get (fun _ => c) ((m.map (fun e => (e.1, f e.2))).filter (fun e => e.2 ≠ c)) k = f (SMap.get (fun _ => c) m k) := by
  induction m generalizing lo with
  | nil => exact hf.symm
  | cons e m ih =>
    obtain ⟨i, v⟩ := e
    simp only [SMap.wfFrom, Bool.and_eq_true] at hwf
    obtain ⟨-, hm⟩ := hwf
    rw [List.map_cons, List.filter_cons, SMap.get]
    by_cases hik : i = k
    · rw [if_pos hik]
      split
      · exact if_pos hik
      · next hdrop =>
        rw [ih hm, SMap.get_of_lt m hm (by omega), hf]
        exact (by simpa using hdrop : f v = c).symm
    · rw [if_neg hik, ← ih hm]
      split
      · exact if_neg hik
      · rfl

theorem Hub.policer_fillBuckets {h : Hub} (hwf : SMap.wf (fun _ => Policer.off) h.tm.pol = true) (k : Nat) :
    h.fillBuckets.policer k = (h.policer k).tick := SMap.get_map_filter rfl _ hwf k

theorem Hub.shaper_fillBuckets {h : Hub} (hwf : SMap.wf (fun _ => Shaper.off) h.tm.shp = true) (k : Nat) :
    h.fillBuckets.shaper k = (h.shaper k).tick h.throttle := SMap.get_map_filter (by simp [Shaper.tick, Shaper.off]) _ hwf k

/-- Settles O17: a tick's clock is that of its next count, and every bucket ticks by itself. -/
theorem epochTicks : Obligations.EpochTicks := by
  unfold Obligations.EpochTicks
  have htick {s : State} (hreset : s.hub.inReset = false) : exec .epochTick s = .next { s with hub := s.hub.tick } := by
    change onHub s (fun h => if h.inReset then h else h.tick) = _
    rw [onHub_next, if_neg (by simp [hreset])]
  refine ⟨fun s hreset harm => ⟨_, htick hreset, ?_⟩, fun s hreset harm => ⟨_, htick hreset, ?_⟩,
    fun s hreset hlost => ⟨{ s with hub := s.hub.loseStrobe }, rfl, ?_⟩, fun h k hwf hon => ?_, fun h k hwf hon => ?_⟩
  · obtain ⟨hepoch, hlast, -, hlost⟩ := s.hub.tick_counts
    rw [Hub.fld_bit, Bool.toNat_eq_zero] at harm
    exact ⟨hepoch.trans (if_neg (by simp [harm])), hlast, hlost⟩
  · obtain ⟨hepoch, -, hfld, hlost⟩ := s.hub.tick_counts
    rw [Hub.fld_bit, Bool.toNat_eq_one] at harm
    exact ⟨hepoch.trans (if_pos harm), hfld, hlost⟩
  · obtain ⟨hflag, hirq, htm⟩ := Hub.loseStrobe_flags hreset hlost
    exact ⟨hflag, hirq, htm, s.hub.loseStrobe_stores.1⟩
  · rw [Hub.policer_fillBuckets hwf]
    simp [Policer.tick, hon]
  · rw [Hub.shaper_fillBuckets hwf]
    simp [Shaper.tick, hon]

end Sys2Proof.Machine
end

section

/-! SUPPORT. The hold limit of an arbiter and the deadline of a line operation: O24. -/

namespace Sys2Proof.Machine

/-! The hold limit (R249, R251, R257) -/

theorem Hub.arbiterTurn_of_held {h : Hub} {a cycle : Nat} {r : Req} (hcycle : cycle < 8 - h.throttle) (hhead : h.holdHead a = some r)
    (hdue : r.accepted + 100 ≤ h.now) : h.arbiterTurn a cycle = h.passHeld a r := by
  have hheld : (h.holdHead a).filter (fun r => decide (r.accepted + 100 ≤ h.now)) = some r := by
    rw [hhead, Option.filter_some, if_pos (decide_eq_true hdue)]
  simp only [Hub.arbiterTurn, if_pos hcycle, Hub.choose, hheld]

theorem Hub.holdExpiry_of_held {h : Hub} {a : Nat} {r : Req} (hhead : h.holdHead a = some r) :
    h.holdExpiry a = (h.reach (r.accepted + 100)).passHeld a r := by
  simp only [Hub.holdExpiry, hhead]

/-! The deadline (R69) -/

/-- A line operation whose source is a port, a channel or the dump is answered at its deadline; one of a peer or of the kitty is not. -/
theorem Hub.deadline_of_found {h : Hub} {id : Nat} {o : LineOp}
    (hfind : (h.lines.ready ++ h.lines.ordered.filter (fun o => o.kind == .read)).find? (fun o => o.id == id) = some o)
    (hremote : ∀ c, o.src ≠ .remote c) (hkitty : o.src ≠ .kitty) :
    h.deadline id = ((((h.reach (o.accepted + 750)).withdrawOp o).bump pHub 0x140 0 16 1).answer o.req o.idx 4 0 []).settleOn := by
  simp only [Hub.deadline, hfind]
  cases hsrc : o.src with
  | remote c => exact absurd hsrc (hremote c)
  | kitty => exact absurd hsrc hkitty
  | port p => rfl
  | dma c => rfl
  | dump => rfl

/-- An operation that is withdrawn leaves both queues of its slice. -/
theorem Hub.id_ne_of_mem_withdrawOp {h : Hub} {o x : LineOp}
    (hx : x ∈ (h.withdrawOp o).lines.ready ++ (h.withdrawOp o).lines.ordered) : x.id ≠ o.id := by
  have hordered : (h.withdrawOp o).lines.ordered = h.lines.ordered.filter (fun x => x.id != o.id) := rfl
  rw [(Hub.withdrawOp_changes ..).2, hordered, ← List.filter_append, List.mem_filter] at hx
  exact bne_iff_ne.mp hx.2

/-- Settles O24: the choice and the limit pass the same request by one rule, and the deadline withdraws what it answers. -/
theorem timeLimitsPassAndAnswer : Obligations.TimeLimitsPassAndAnswer := by
  unfold Obligations.TimeLimitsPassAndAnswer
  refine ⟨⟨fun s a cycle r hcycle hhead hdue => ?_, fun s a r hhead => ?_⟩, fun s id o hfind hremote hkitty => ⟨?_, fun x hx => ?_⟩⟩
  · exact becomes_onHub (f := fun h => h.arbiterTurn a.toNat cycle.toNat) (Hub.arbiterTurn_of_held hcycle hhead hdue)
  · exact becomes_onHub (f := fun h => h.holdExpiry a.toNat) (Hub.holdExpiry_of_held hhead)
  · exact becomes_onHub (f := fun h => h.deadline id) (Hub.deadline_of_found hfind hremote hkitty)
  · exact Hub.id_ne_of_mem_withdrawOp hx

end Sys2Proof.Machine
end

section

/-! SUPPORT. The host-memory interface: O40. -/

namespace Sys2Proof.Machine

/-- The hub with granted credits added to those of a host-memory interface. -/
def Hub.hmmGranted (h : Hub) (g rd wr : Nat) : Hub :=
  h.putHmm g { h.hmmIf g with rd := (h.hmmIf g).rd + rd, wr := (h.hmmIf g).wr + wr }

theorem becomes_hmmCreditGrant {s : State} (g : BitVec 2) (rd wr : BitVec 7) (hreset : s.hub.inReset = false) :
    Becomes (exec (.hmmCreditGrant g rd wr) s) s
      ((s.hub.hmmGranted g.toNat rd.toNat wr.toNat).hmmSend g.toNat (s.hub.hmmIf g.toNat).waiting.length) := by
  have hopen : ¬s.hub.inReset = true := by simp [hreset]
  show Becomes (execHmmCreditGrant g rd wr s) s _
  exact becomes_onHub (if_neg hopen)

/-- Settles O40: a grant sends what waits, nothing where nothing waits; an answer and a time-out find the sent request by its tag. -/
theorem hostMemoryAnswers : Obligations.HostMemoryAnswers := by
  unfold Obligations.HostMemoryAnswers
  refine ⟨fun s g rd wr hreset hwaiting => ?_, fun s g rd wr hreset => becomes_hmmCreditGrant g rd wr hreset,
    fun s g tag line code data e r hsent hreq hline hopen => ⟨_, rfl, ?_⟩, fun s g tag e hsent => ?_⟩
  · have hgrant := becomes_hmmCreditGrant g rd wr hreset
    rwa [hwaiting] at hgrant
  · have hanswers : ¬(r.lines ≤ line.toNat ∨ r.answered.contains line.toNat = true) := by rw [hopen]; simpa using hline
    show Becomes (execHmmResponse g tag line code data s) s _
    refine becomes_onHub ?_
    simp only [hsent, hreq]
    exact if_neg hanswers
  · show Becomes (execHmmTimeout g tag s) s _
    refine becomes_onHub ?_
    simp only [hsent]

end Sys2Proof.Machine
end

section

/-! SUPPORT. What the steps of a DMA channel leave as they were: the issue of requests, the entry of a state, counters and interrupt
causes of its page, events: O39. -/

namespace Sys2Proof.Machine

/-! Counters and interrupt causes of a page (R484) -/

/-- A 32-bit counter goes up by one, to its largest value. -/
def countedWord (x : Word) : Word := putBits x 0 32 (satAdd (2 ^ 32 - 1) (bitsNat x 0 32) 1)

theorem Hub.rd_bump_same (h : Hub) (p o : Nat) : (h.bump p o 0 32 1).rd p o = countedWord (h.rd p o) :=
  (Hub.rd_wrFld ..).trans (if_pos rfl)

theorem toNat_countedWord (x : Word) : (countedWord x).toNat = min (2 ^ 32 - 1) (x.toNat + 1) := by
  have hword (x : Word) : bitsNat x 0 32 = x.toNat := by rw [bitsNat, Nat.shiftRight_zero, Nat.mod_eq_of_lt x.isLt]
  rw [← hword (countedWord x), countedWord, bitsNat_putBits _ _ (by decide), hword, satAdd, Nat.mod_eq_of_lt (by omega)]

theorem Hub.toNat_rd_bump (h : Hub) (p o : Nat) :
    ((h.bump p o 0 32 1).rd p o).toNat = min (2 ^ 32 - 1) ((h.rd p o).toNat + 1) := by
  rw [Hub.rd_bump_same, toNat_countedWord]

theorem Hub.rd_bump_ne (h : Hub) {p o o' : Nat} (lo n k : Nat) (hn : o ≠ o') : (h.bump p o' lo n k).rd p o = h.rd p o :=
  Hub.rd_wr_ne h _ (by omega)

theorem Hub.rd_raise_ne (h : Hub) {p o : Nat} (n : Nat) (ho : o ≠ 0x10) : (h.raise p n).rd p o = h.rd p o := by
  rw [Hub.rd_raise, if_neg (by omega)]

theorem bit_putBit_of_bit {x : Word} {i : Nat} (n : Nat) (hi : bit x i = true) : bit (putBit x n true) i = true := by
  have hw : i < 32 := BitVec.lt_of_getLsbD hi
  have hx : x.getLsbD i = true := hi
  simp [bit, putBit, putBits, hx, hw]

theorem Hub.bit_raise_same (h : Hub) (p : Nat) {n : Nat} (hn : n < 32) : bit ((h.raise p n).rd p 0x10) n = true := by
  rw [Hub.rd_raise, if_pos rfl, bit_putBit_same _ _ hn]

theorem Hub.bit_raise_of_bit {h : Hub} {p i : Nat} (n : Nat) (hi : bit (h.rd p 0x10) i = true) :
    bit ((h.raise p n).rd p 0x10) i = true := by
  rw [Hub.rd_raise, if_pos rfl]
  exact bit_putBit_of_bit n hi

theorem Hub.bit_endOp_of_bit {h : Hub} {p i : Nat} (code : Nat) (hi : bit (h.rd p 0x10) i = true) :
    bit ((h.endOp p code).rd p 0x10) i = true := by
  cases hop : h.opOf p with
  | none => simpa only [Hub.endOp, hop] using hi
  | some o =>
    cases hclass : pageClass p with
    | none => simpa only [Hub.endOp, hop, hclass] using hi
    | some c =>
      have hresult : (opResultOf c).1 ≠ 0x10 := by cases c <;> decide
      have hne : 4096 * p + 0x10 ≠ 4096 * p + (opResultOf c).1 := by omega
      rw [Hub.endOp_eq code hop hclass]
      refine Hub.bit_raise_of_bit 0 ?_
      rwa [Hub.rd_wrFld, if_neg (by omega), Hub.rd_putLongOp, Hub.rd_wr_ne _ _ hne]

theorem pageClass_pDma (c : BitVec 6) : pageClass (pDma c.toNat) = some .dma := by
  have hc := c.isLt
  rw [pageClass, if_neg (by unfold pDma; omega), if_pos (by unfold pDma; omega)]

/-- An operation's end on a channel's page changes OP_RESULT, FAULT and OP_DONE, and no other register of it. -/
theorem Hub.rd_endOp_dma (h : Hub) (c : BitVec 6) (code : Nat) {o : Nat} (hresult : o ≠ 0x8C) (hstatus : o ≠ 0x0C) (hirq : o ≠ 0x10) :
    (h.endOp (pDma c.toNat) code).rd (pDma c.toNat) o = h.rd (pDma c.toNat) o := by
  cases hop : h.opOf (pDma c.toNat) with
  | none => simp only [Hub.endOp, hop]
  | some op => exact Hub.rd_endOp_other code rfl hop (pageClass_pDma c) hresult hstatus hirq

/-! The entry of a state (R290, R292) -/

def Hub.putSt (h : Hub) (ch : Nat) (st : BitVec 3) : Hub := h.putDma ch { h.dmaCh ch with st := st }

/-- What the registers of a channel show of the state it enters: no credit in IDLE, the interrupt cause of HALTED and of
PAUSED_BY_POWER. -/
def Hub.stateShown (g : Hub) (ch : Nat) (st : BitVec 3) : Hub :=
  if st = 1 then g.wr (pDma ch) 0x70 0 else if st = 6 then g.raise (pDma ch) 3 else if st = 5 then g.raise (pDma ch) 4 else g

/-- A channel enters its state, and then an operation that waited for that state may end. -/
theorem Hub.dmaEnter_cases (h : Hub) (ch : Nat) (st : BitVec 3) :
    h.dmaEnter ch st = (h.putSt ch st).stateShown ch st ∨
      ∃ code, h.dmaEnter ch st = ((h.putSt ch st).stateShown ch st).endOp (pDma ch) code := by
  unfold Hub.dmaEnter
  extract_lets _ g g'
  have hg : g' = (h.putSt ch st).stateShown ch st := rfl
  rw [hg]
  split
  · exact .inl rfl
  · split_ifs
    · exact .inl rfl
    · exact .inr ⟨_, rfl⟩
    · exact .inr ⟨_, rfl⟩
    · exact .inr ⟨_, rfl⟩
    · exact .inr ⟨_, rfl⟩
    · exact .inr ⟨_, rfl⟩
    · exact .inl rfl

/-- What the entry of a state and the end of an operation on the channel's page both keep stands after the channel's entry. -/
theorem Hub.dmaEnter_induct {h : Hub} {ch : Nat} {st : BitVec 3} {P : Hub → Prop} (stated : P ((h.putSt ch st).stateShown ch st))
    (ends : ∀ g code, P g → P (g.endOp (pDma ch) code)) : P (h.dmaEnter ch st) := by
  rcases h.dmaEnter_cases ch st with e | ⟨code, e⟩ <;> rw [e]
  · exact stated
  · exact ends _ code stated

theorem Hub.stateShown_dma (g : Hub) (ch : Nat) (st : BitVec 3) : (g.stateShown ch st).dma = g.dma := by
  unfold Hub.stateShown
  split_ifs <;> simp

theorem Hub.dmaCh_of_dma {g h : Hub} (e : g.dma = h.dma) (j : Nat) : g.dmaCh j = h.dmaCh j := by rw [Hub.dmaCh, Hub.dmaCh, e]

theorem Hub.dmaCh_bump (h : Hub) (p o lo n k j : Nat) : (h.bump p o lo n k).dmaCh j = h.dmaCh j := Hub.dmaCh_of_dma (by simp) j

theorem Hub.rd_putDma (h : Hub) (ch : Nat) (d : Dma) (p o : Nat) : (h.putDma ch d).rd p o = h.rd p o := rfl

theorem Hub.dmaCh_dmaEnter (h : Hub) (ch : Nat) (st : BitVec 3) (j : Nat) :
    (h.dmaEnter ch st).dmaCh j = if j = ch then { h.dmaCh ch with st := st } else h.dmaCh j := by
  rw [← Hub.dmaCh_putDma]
  exact Hub.dmaEnter_induct (P := fun g => g.dmaCh j = _) (Hub.dmaCh_of_dma ((h.putSt ch st).stateShown_dma ch st) j)
    fun g code hg => (Hub.dmaCh_of_dma (by simp) j).trans hg

/-- A channel's entry of a state changes no register of its page but OP_RESULT, FAULT, the interrupt status, and EVT_CREDIT in IDLE. -/
theorem Hub.rd_dmaEnter (h : Hub) (c : BitVec 6) {st : BitVec 3} {o : Nat} (hcredit : st = 1 → o ≠ 0x70) (hresult : o ≠ 0x8C)
    (hstatus : o ≠ 0x0C) (hirq : o ≠ 0x10) : (h.dmaEnter c.toNat st).rd (pDma c.toNat) o = h.rd (pDma c.toNat) o := by
  refine Hub.dmaEnter_induct (P := fun g => g.rd (pDma c.toNat) o = _) ?_
    fun g code hg => (g.rd_endOp_dma c code hresult hstatus hirq).trans hg
  unfold Hub.stateShown
  split_ifs with hidle
  · exact Hub.rd_wr_ne _ _ (by have := hcredit hidle; omega)
  · exact Hub.rd_raise_ne _ 3 hirq
  · exact Hub.rd_raise_ne _ 4 hirq
  · rfl

theorem Hub.rd_credit_dmaEnter_idle (h : Hub) (c : BitVec 6) : (h.dmaEnter c.toNat 1).rd (pDma c.toNat) 0x70 = 0 :=
  Hub.dmaEnter_induct (P := fun g => g.rd (pDma c.toNat) 0x70 = 0) (Hub.rd_wr_same _ _ _ _)
    fun g code hg => (g.rd_endOp_dma c code (by decide) (by decide) (by decide)).trans hg

theorem Hub.bit_dmaEnter_of_bit {h : Hub} {ch i : Nat} (st : BitVec 3) (hi : bit (h.rd (pDma ch) 0x10) i = true) :
    bit ((h.dmaEnter ch st).rd (pDma ch) 0x10) i = true := by
  refine Hub.dmaEnter_induct (P := fun g => bit (g.rd (pDma ch) 0x10) i = true) ?_ fun g code => Hub.bit_endOp_of_bit code
  unfold Hub.stateShown
  split_ifs
  · rw [Hub.rd_wr_ne _ _ (by omega)]; exact hi
  · exact Hub.bit_raise_of_bit (h := h.putSt ch st) 3 hi
  · exact Hub.bit_raise_of_bit (h := h.putSt ch st) 4 hi
  · exact hi

/-! Events (R292) -/

/-- An event changes no channel and, of the registers, only EVT_CREDIT, its overflow count and the interrupt status of a channel's page. -/
theorem Hub.dmaEventTo_channel (h : Hub) (ch : Nat) : (h.dmaEventTo ch).dma = h.dma ∧
    ∀ p o, o < 4096 → o ≠ 0x70 → o ≠ 0x84 → o ≠ 0x10 → (h.dmaEventTo ch).rd p o = h.rd p o := by
  have hoff {p o : Nat} (g : Hub) {a lo n v : Nat} (ha : a < 4096) (ho : o < 4096) (hn : o ≠ a) :
      (g.wrFld (pDma ch) a lo n v).rd p o = g.rd p o := by rw [Hub.rd_wrFld, if_neg (by omega)]
  unfold Hub.dmaEventTo
  extract_lets p pace st add v g
  split
  · exact ⟨rfl, fun _ _ _ _ _ _ => rfl⟩
  · split
    · refine ⟨by simp [g], fun q o ho hcredit hover hirq => ?_⟩
      rw [Hub.rd_raise, if_neg (by omega), Hub.bump, hoff g (by decide) ho hover, hoff h (by decide) ho hcredit]
    · exact ⟨by simp [g], fun q o ho hcredit _ _ => hoff h (by decide) ho hcredit⟩

theorem Hub.dmaEvent_channel (h : Hub) (completion : Bool) (i : Nat) : (h.dmaEvent completion i).dma = h.dma ∧
    ∀ p o, o < 4096 → o ≠ 0x70 → o ≠ 0x84 → o ≠ 0x10 → (h.dmaEvent completion i).rd p o = h.rd p o := by
  refine ⟨foldl_keeps Hub.dma _ (fun g ch => ?_) _ h,
    fun p o ho hcredit hover hirq => foldl_keeps (fun g => g.rd p o) _ (fun g ch => ?_) _ h⟩
  · split
    · exact (g.dmaEventTo_channel ch).1
    · rfl
  · split
    · exact (g.dmaEventTo_channel ch).2 p o ho hcredit hover hirq
    · rfl

/-! The issue of requests (R274) -/

/-- What the issue of a channel's requests leaves as it was: the channels, the interval counter, the trip and the supply episode, the
windows, partitions and weights, and every register outside the PERF page. -/
structure Hub.SameDma (g h : Hub) : Prop where
  ch : ∀ j, g.dmaCh j = h.dmaCh j
  now : g.now = h.now
  therm : g.therm = h.therm
  amap : g.amap = h.amap
  pages : g.pages = h.pages
  rd : ∀ p o, p ≠ pPerf → o < 4096 → g.rd p o = h.rd p o

theorem Hub.SameDma.refl (h : Hub) : h.SameDma h := ⟨fun _ => rfl, rfl, rfl, rfl, rfl, fun _ _ _ _ => rfl⟩

theorem Hub.SameDma.trans {f g h : Hub} (a : f.SameDma g) (b : g.SameDma h) : f.SameDma h :=
  ⟨fun j => (a.ch j).trans (b.ch j), a.now.trans b.now, a.therm.trans b.therm, a.amap.trans b.amap, a.pages.trans b.pages,
    fun p o hp ho => (a.rd p o hp ho).trans (b.rd p o hp ho)⟩

theorem foldl_sameDma {α : Type} {f : Hub → α → Hub} (H : ∀ h a, (f h a).SameDma h) (l : List α) (h : Hub) :
    (l.foldl f h).SameDma h :=
  List.foldlRecOn l f (motive := fun g => g.SameDma h) (.refl h) fun g hg a _ => (H g a).trans hg

theorem Hub.putDma_self_sameDma (h : Hub) (ch : Nat) : (h.putDma ch (h.dmaCh ch)).SameDma h := by
  refine ⟨fun j => ?_, rfl, rfl, rfl, rfl, fun _ _ _ _ => rfl⟩
  rw [Hub.dmaCh_putDma]
  split
  · next hj => rw [hj]
  · rfl

theorem Hub.sampleLine_sameDma (h : Hub) (ch : Nat) (high : Bool) : (h.sampleLine ch high).SameDma h := by
  unfold Hub.sampleLine
  split
  · exact ⟨fun _ => rfl, rfl, rfl, rfl, rfl, fun _ _ _ _ => rfl⟩
  · exact .refl h

theorem Hub.putGframe_sameDma (h : Hub) (n : Nat) (v : GFrame) : (h.putGframe n v).SameDma h :=
  ⟨fun _ => rfl, rfl, rfl, rfl, rfl, fun _ _ _ _ => rfl⟩

theorem Hub.tidyFrame_sameDma (h : Hub) (n : Nat) : (h.tidyFrame n).SameDma h := by
  unfold Hub.tidyFrame
  split
  · exact .refl h
  · exact h.putGframe_sameDma _ _

theorem Hub.count_sameDma (h : Hub) (e : PerfEvt) : (h.count e).SameDma h := by
  refine ⟨Hub.dmaCh_of_dma (by simp), by simp, by simp, by simp, by simp, fun p o hp ho => ?_⟩
  unfold Hub.count
  split
  · exact foldl_keeps (fun g : Hub => g.rd p o) _ (fun g i => g.rd_countOne e i hp ho) _ h
  · rfl

theorem Hub.dmaSpend_sameDma (h : Hub) (wr : Bool) (ch n : Nat) : (h.dmaSpend wr ch n).SameDma h := by
  cases wr <;> exact ⟨fun _ => rfl, rfl, rfl, rfl, rfl, fun _ _ _ _ => rfl⟩

theorem Hub.enqueue_sameDma (h : Hub) (src : Src) (hd : Header) (flits : List Sector) (t : Target) (frame : Nat) :
    (h.enqueue src hd flits t frame).2.SameDma h := ⟨fun _ => rfl, rfl, rfl, rfl, rfl, fun _ _ _ _ => rfl⟩

theorem Hub.dmaIssue_sameDma (h : Hub) (ch : Nat) (hd : Header) (flits : List Sector) (frame : Nat) :
    ((h.dmaIssue ch hd flits frame).leaves h).SameDma h := by
  have hcounted (g : Hub) (src : Src) : ((List.range hd.lineCount).foldl (fun h i => h.countLine 0x01 1 src hd i 0) g).SameDma g :=
    foldl_sameDma (fun g _ => g.count_sameDma _) _ g
  unfold Hub.dmaIssue
  extract_lets src n
  split
  · exact .refl h
  · split
    · exact .refl h
    · next t _ =>
      extract_lets host spent counted
      split
      · exact .refl h
      · refine (Hub.enqueue_sameDma _ _ hd flits t frame).trans ((hcounted _ _).trans ?_)
        simp only [spent]
        split
        · exact .refl h
        · exact h.dmaSpend_sameDma _ _ _

/-- The part of a burst's record that the issue of its requests leaves as it was. -/
structure Burst.SameWork (b' b : Burst) : Prop where
  first : b'.first = b.first
  count : b'.count = b.count
  phase : b'.phase = b.phase
  out : b'.out = b.out

theorem Burst.SameWork.refl (b : Burst) : b.SameWork b := ⟨rfl, rfl, rfl, rfl⟩

theorem Hub.pumpBurst_sameDma (h : Hub) (ch : Nat) (b : Burst) (n : Nat) :
    (h.pumpBurst ch b n).2.SameDma h ∧ (h.pumpBurst ch b n).1.SameWork b := by
  induction n generalizing h b with
  | zero => exact ⟨.refl h, .refl b⟩
  | succ n ih =>
    unfold Hub.pumpBurst
    split
    · exact ⟨.refl h, .refl b⟩
    · next hd fl rest _ =>
      have hissue := h.dmaIssue_sameDma ch hd fl b.frame
      split
      · exact ⟨.refl h, .refl b⟩
      · next code g he =>
        rw [he] at hissue
        obtain ⟨hhub, hburst⟩ := ih g { b with todo := rest, code := if b.code = 0 then code else b.code }
        exact ⟨hhub.trans hissue, ⟨hburst.first, hburst.count, hburst.phase, hburst.out⟩⟩
      · next id g he =>
        rw [he] at hissue
        obtain ⟨hhub, hburst⟩ := ih g { b with todo := rest, reqs := b.reqs ++ [id] }
        exact ⟨hhub.trans hissue, ⟨hburst.first, hburst.count, hburst.phase, hburst.out⟩⟩

/-- One burst of a channel issues what it can: the bursts so far, and the hub. -/
def pumpNext (ch : Nat) (acc : List Burst × Hub) (b : Burst) : List Burst × Hub :=
  (acc.1 ++ [(acc.2.pumpBurst ch b b.todo.length).1], (acc.2.pumpBurst ch b b.todo.length).2)

theorem Hub.pump_eq_fold (h : Hub) (ch : Nat) : h.pump ch =
    ((h.dmaCh ch).bursts.foldl (pumpNext ch) ([], h)).2.putDma ch
      { ((h.dmaCh ch).bursts.foldl (pumpNext ch) ([], h)).2.dmaCh ch with
        bursts := ((h.dmaCh ch).bursts.foldl (pumpNext ch) ([], h)).1 } := rfl

theorem foldl_pumpNext (ch : Nat) (bs : List Burst) (acc : List Burst × Hub) :
    (bs.foldl (pumpNext ch) acc).2.SameDma acc.2 ∧
      ∃ cs, (bs.foldl (pumpNext ch) acc).1 = acc.1 ++ cs ∧ List.Forall₂ Burst.SameWork cs bs := by
  induction bs generalizing acc with
  | nil => exact ⟨.refl _, [], (List.append_nil _).symm, .nil⟩
  | cons b bs ih =>
    obtain ⟨hhub, hburst⟩ := acc.2.pumpBurst_sameDma ch b b.todo.length
    obtain ⟨hrest, cs, hcs, hwork⟩ := ih (pumpNext ch acc b)
    refine ⟨hrest.trans hhub, _ :: cs, ?_, .cons hburst hwork⟩
    rw [List.foldl_cons, hcs, pumpNext, List.append_assoc, List.singleton_append]

/-- A channel whose requests are all issued issues none. -/
theorem Hub.pump_of_issued {h : Hub} {ch : Nat} (hissued : ∀ b ∈ (h.dmaCh ch).bursts, b.todo = []) :
    h.pump ch = h.putDma ch (h.dmaCh ch) := by
  have hfold (bs : List Burst) (hbs : ∀ b ∈ bs, b.todo = []) (l : List Burst) : bs.foldl (pumpNext ch) (l, h) = (l ++ bs, h) := by
    induction bs generalizing l with
    | nil => rw [List.append_nil]; rfl
    | cons b bs ih =>
      have hnone : pumpNext ch (l, h) b = (l ++ [b], h) := by simp [pumpNext, hbs b, Hub.pumpBurst]
      rw [List.foldl_cons, hnone, ih fun b hb => hbs b (.tail _ hb), List.append_assoc, List.singleton_append]
  rw [Hub.pump_eq_fold, hfold _ hissued, List.nil_append]

/-- What a channel that issues requests leaves as it was: its bursts but their requests, its other fields, the interval counter and the
registers outside the PERF page. -/
theorem Hub.pump_shows (h : Hub) (ch : Nat) : (h.pump ch).now = h.now ∧
    (∀ p o, p ≠ pPerf → o < 4096 → (h.pump ch).rd p o = h.rd p o) ∧
    ∃ bs, (h.pump ch).dmaCh ch = { h.dmaCh ch with bursts := bs } ∧ List.Forall₂ Burst.SameWork bs (h.dmaCh ch).bursts := by
  obtain ⟨hhub, bs, hbs, hwork⟩ := foldl_pumpNext ch (h.dmaCh ch).bursts ([], h)
  rw [Hub.pump_eq_fold]
  refine ⟨by simpa using hhub.now, hhub.rd, bs, ?_, hwork⟩
  rw [Hub.dmaCh_putDma, if_pos rfl, hhub.ch, hbs, List.nil_append]

end Sys2Proof.Machine
end
section

/-! SUPPORT. The bursts and descriptors of a DMA channel: O39. -/

namespace Sys2Proof.Machine

/-! A channel's turn (R291, R298) -/

theorem pDma_ne_pPerf (c : Nat) : pDma c ≠ pPerf := by simp only [pDma, pPerf]; omega

theorem Hub.fld_of_rd {g h : Hub} {p o : Nat} (e : g.rd p o = h.rd p o) (lo n : Nat) : g.fld p o lo n = h.fld p o lo n := by
  rw [Hub.fld, e, Hub.fld]

theorem Hub.SameDma.fld {g h : Hub} (e : g.SameDma h) (c o lo n : Nat) (ho : o < 4096) :
    g.fld (pDma c) o lo n = h.fld (pDma c) o lo n := Hub.fld_of_rd (e.rd _ _ (pDma_ne_pPerf c) ho) lo n

theorem Hub.SameDma.dmaReady {g h : Hub} (e : g.SameDma h) (c : Nat) : g.dmaReady c = h.dmaReady c := by
  simp only [Hub.dmaReady, e.ch, e.therm, e.fld c 0x40 20 1 (by decide)]

theorem Hub.SameDma.dmaWeight {g h : Hub} (e : g.SameDma h) (c : Nat) : g.dmaWeight c = h.dmaWeight c := by
  rw [Hub.dmaWeight, Hub.part, e.amap, e.pages, e.fld c 0x40 0 6 (by decide), e.fld c 0x800 8 4 (by decide)]
  rfl

theorem Hub.SameDma.dmaPaced {g h : Hub} (e : g.SameDma h) (hpins : g.pins = h.pins) (c : Nat) : g.dmaPaced c = h.dmaPaced c := by
  simp only [Hub.dmaPaced, hpins, e.fld c 0x40 _ _ (by decide), e.fld c 0x70 _ _ (by decide)]

theorem Hub.SameDma.dmaRivals {g h : Hub} (e : g.SameDma h) (hpins : g.pins = h.pins) (seg : Nat) : g.dmaRivals seg = h.dmaRivals seg := by
  simp only [Hub.dmaRivals, e.dmaReady, e.dmaWeight, e.dmaPaced hpins]

/-- A channel paced by its request line is paced as the sampled line stands. -/
theorem Hub.dmaPaced_sampleLine (h : Hub) (c : Nat) (high : Bool) : (h.sampleLine c high).dmaPaced c =
    ((h.fld (pDma c) 0x40 20 2 % 2 == 0 || high) &&
      (decide (h.fld (pDma c) 0x40 20 2 < 2) || decide (0 < h.fld (pDma c) 0x70 0 16))) := by
  have hlow : h.fld (pDma c) 0x40 20 2 % 2 = h.fld (pDma c) 0x40 20 1 := Nat.mod_mod_of_dvd _ (by decide)
  have hline : h.fld (pDma c) 0x40 24 8 < 256 := Nat.mod_lt _ (by decide)
  have hbit : h.fld (pDma c) 0x40 20 1 < 2 := Nat.mod_lt _ (by decide)
  have e := h.sampleLine_sameDma c high
  rw [Hub.dmaPaced, e.fld c 0x40 20 2 (by decide), e.fld c 0x40 24 8 (by decide), e.fld c 0x70 0 16 (by decide), hlow]
  unfold Hub.sampleLine
  split
  · next hpaced => simp [hpaced, bit_putBit_same _ _ hline]
  · next hpaced => simp [show h.fld (pDma c) 0x40 20 1 = 0 by omega]

/-- The channels of g are those of h but for the starts left to them in their round (R298), and the registers are the same. -/
structure Hub.SameButLeft (g h : Hub) : Prop where
  ch : ∀ j, ∃ n, g.dmaCh j = { h.dmaCh j with left := n }
  regs : g.regs = h.regs

theorem Hub.SameButLeft.of_ch {g h : Hub} (hch : ∀ j, g.dmaCh j = h.dmaCh j) (hregs : g.regs = h.regs) : g.SameButLeft h :=
  ⟨fun j => ⟨_, hch j⟩, hregs⟩

theorem Hub.SameButLeft.trans {f g h : Hub} (a : f.SameButLeft g) (b : g.SameButLeft h) : f.SameButLeft h := by
  refine ⟨fun j => ?_, a.regs.trans b.regs⟩
  obtain ⟨m, hm⟩ := a.ch j
  obtain ⟨n, hn⟩ := b.ch j
  exact ⟨m, by rw [hm, hn]⟩

theorem Hub.putDma_sameButLeft (h : Hub) (c n : Nat) : (h.putDma c { h.dmaCh c with left := n }).SameButLeft h := by
  refine ⟨fun j => ?_, rfl⟩
  rw [Hub.dmaCh_putDma]
  split
  · next hj => exact ⟨n, by rw [hj]⟩
  · exact ⟨_, rfl⟩

theorem Hub.sampleLine_sameButLeft (h : Hub) (c : Nat) (high : Bool) : (h.sampleLine c high).SameButLeft h := by
  refine .of_ch (h.sampleLine_sameDma c high).ch ?_
  unfold Hub.sampleLine
  split <;> rfl

/-- A channel with a weight has its turn while it has a start left, or where none of its rivals has: the turn takes one start. -/
theorem Hub.dmaTurn_of_first {h : Hub} {c : Nat} (hweight : h.dmaWeight c ≠ 0)
    (hfirst : 0 < (h.dmaCh c).left ∨ ∀ x ∈ h.dmaRivals (c / 16), (h.dmaCh x).left = 0) :
    ∃ g : Hub, h.dmaTurn c = some g ∧ g.SameButLeft h := by
  unfold Hub.dmaTurn
  extract_lets seg rivals take
  have htake (g : Hub) : (take g).SameButLeft g := g.putDma_sameButLeft c _
  rw [if_neg hweight]
  by_cases hleft : 0 < (h.dmaCh c).left
  · rw [if_pos hleft]
    exact ⟨_, rfl, htake h⟩
  · have hnone : ¬rivals.any (fun x => decide (0 < (h.dmaCh x).left)) = true := by
      simpa using hfirst.resolve_left hleft
    rw [if_neg hleft, if_neg hnone]
    refine ⟨_, rfl, (htake _).trans ?_⟩
    exact List.foldlRecOn _ _ (motive := fun g : Hub => g.SameButLeft h) (.of_ch (fun _ => rfl) rfl)
      fun g hg _ _ => (Hub.putDma_sameButLeft g _ _).trans hg

/-! The start of a burst (R284, R285, R291) -/

/-- Elements that the next burst of at most so many bytes takes (R284). -/
def Dma.burstCount (d : Dma) (bytes : Nat) : Nat :=
  min d.total ((d.pos / max 1 (d.burstElems bytes) + 1) * max 1 (d.burstElems bytes)) - d.pos

/-- The start of a burst takes a credit where the channel is paced by events (R292). -/
def Hub.creditTaken (h : Hub) (ch : Nat) : Hub :=
  if 2 ≤ h.fld (pDma ch) 0x40 20 2 then h.wrFld (pDma ch) 0x70 0 16 (h.fld (pDma ch) 0x70 0 16 - 1) else h

/-- A burst of a channel with its reads still to be issued (R285 step 1). -/
def Hub.withReads (h : Hub) (ch : Nat) (d : Dma) (b : Burst) : Burst := { b with todo := h.burstReads ch d b }

/-- A channel at element `pos` opens a burst: it runs, and the burst's reads are issued as far as credits allow. -/
def Hub.openBurst (h : Hub) (ch : Nat) (bs : List Burst) (pos : Nat) (b : Burst) : Hub :=
  ((h.putDma ch { h.dmaCh ch with bursts := bs ++ [b], pos := pos + b.count }).dmaEnter ch 2).pump ch

/-- What a channel does in its turn: it takes the credit and opens its next burst with a frame of its own. -/
def Hub.burstBegun (h : Hub) (ch : Nat) : Hub :=
  let d := h.dmaCh ch
  let n := d.burstCount ((h.creditTaken ch).burstMax ch)
  let f := (h.creditTaken ch).newFrame (n * d.dst.w / 8) 1
  f.2.openBurst ch d.bursts d.pos (f.2.withReads ch d ⟨d.pos, n, 1, [], [], [], [], 0, false, f.1⟩)

theorem Hub.rd_creditTaken (h : Hub) {ch o : Nat} (ho : o ≠ 0x70) : (h.creditTaken ch).rd (pDma ch) o = h.rd (pDma ch) o := by
  unfold Hub.creditTaken
  split
  · rw [Hub.rd_wrFld, if_neg (by omega)]
  · rfl

theorem Hub.fld_creditTaken {h : Hub} {ch : Nat} (hpace : 2 ≤ h.fld (pDma ch) 0x40 20 2) :
    (h.creditTaken ch).fld (pDma ch) 0x70 0 16 = h.fld (pDma ch) 0x70 0 16 - 1 := by
  have hlt : h.fld (pDma ch) 0x70 0 16 < 2 ^ 16 := Nat.mod_lt _ (by decide)
  rw [Hub.creditTaken, if_pos hpace, Hub.fld, Hub.rd_wrFld, if_pos rfl, bitsNat_putBits _ _ (by decide), Nat.mod_eq_of_lt (by omega)]

theorem Hub.pump_of_idle {h : Hub} {ch : Nat} (hbursts : (h.dmaCh ch).bursts = []) : h.pump ch = h.putDma ch (h.dmaCh ch) :=
  Hub.pump_of_issued (by simp [hbursts])

theorem Hub.burstStart_of_turn {h k g : Hub} {ch : Nat} (hpump : h.pump ch = k) (hready : k.dmaReady ch = true)
    (hpaced : k.dmaPaced ch = true) (hepisode : k.therm.episode = false) (hexiting : k.therm.exiting = false)
    (hwarn : k.pins.supplyWarn = false) (hturn : k.dmaTurn ch = some g) : h.burstStart ch = g.burstBegun ch := by
  simp only [Hub.burstStart, hpump, hready, hpaced, hepisode, hexiting, hwarn, hturn, Bool.not_true, Bool.false_eq_true, or_self, if_false]
  rfl

/-- A channel that is ready and paced, in its turn, begins its next burst. -/
theorem Hub.burstStart_begins {h : Hub} {ch : Nat} (hbursts : (h.dmaCh ch).bursts = []) (hready : h.dmaReady ch = true)
    (hpaced : h.dmaPaced ch = true) (hepisode : h.therm.episode = false) (hexiting : h.therm.exiting = false)
    (hwarn : h.pins.supplyWarn = false) (hweight : h.dmaWeight ch ≠ 0)
    (hfirst : 0 < (h.dmaCh ch).left ∨ ∀ x ∈ h.dmaRivals (ch / 16), (h.dmaCh x).left = 0) :
    ∃ g : Hub, h.burstStart ch = g.burstBegun ch ∧ g.SameButLeft h := by
  have e := h.putDma_self_sameDma ch
  obtain ⟨g, hturn, hg⟩ := Hub.dmaTurn_of_first (h := h.putDma ch (h.dmaCh ch)) (c := ch) (by rwa [e.dmaWeight])
    (by simpa only [e.ch, e.dmaRivals rfl] using hfirst)
  exact ⟨g, Hub.burstStart_of_turn (Hub.pump_of_idle hbursts) ((e.dmaReady ch).trans hready) ((e.dmaPaced rfl ch).trans hpaced) hepisode
    hexiting hwarn hturn, hg.trans (.of_ch e.ch rfl)⟩

/-- A ready channel with no burst that its pacing holds back waits (R291). -/
theorem Hub.burstStart_waits {h : Hub} {ch : Nat} (hbursts : (h.dmaCh ch).bursts = []) (hready : h.dmaReady ch = true)
    (hpaced : h.dmaPaced ch = false) : h.burstStart ch = (h.putDma ch (h.dmaCh ch)).dmaEnter ch 3 := by
  have e := h.putDma_self_sameDma ch
  simp [Hub.burstStart, Hub.pump_of_idle hbursts, e.dmaReady, e.dmaPaced rfl, e.ch, hready, hpaced, hbursts]

/-- A channel with one burst still has one after the issue of its requests. -/
theorem Hub.pump_one {h : Hub} {ch : Nat} {b : Burst} (hbursts : (h.dmaCh ch).bursts = [b]) :
    ∃ b', (h.pump ch).dmaCh ch = { h.dmaCh ch with bursts := [b'] } ∧ b'.SameWork b := by
  obtain ⟨-, -, bs, hch, hwork⟩ := h.pump_shows ch
  rw [hbursts] at hwork
  cases hwork with
  | cons hb hnil =>
    cases hnil
    exact ⟨_, hch, hb⟩

theorem Hub.openBurst_shows (h : Hub) (c : BitVec 6) (pos : Nat) (b : Burst) :
    (∃ b', (h.openBurst c.toNat [] pos b).dmaCh c.toNat = { h.dmaCh c.toNat with st := 2, bursts := [b'], pos := pos + b.count } ∧
      b'.SameWork b) ∧
    (h.openBurst c.toNat [] pos b).rd (pDma c.toNat) 0x70 = h.rd (pDma c.toNat) 0x70 := by
  unfold Hub.openBurst
  generalize hv : ({ h.dmaCh c.toNat with bursts := [] ++ [b], pos := pos + b.count } : Dma) = v
  have hch : ((h.putDma c.toNat v).dmaEnter c.toNat 2).dmaCh c.toNat = { v with st := 2 } := by
    rw [Hub.dmaCh_dmaEnter, if_pos rfl, Hub.dmaCh_putDma, if_pos rfl]
  obtain ⟨b', hpumped, hwork⟩ := Hub.pump_one (h := (h.putDma c.toNat v).dmaEnter c.toNat 2) (b := b) (by rw [hch, ← hv]; rfl)
  obtain ⟨-, hrd, -⟩ := ((h.putDma c.toNat v).dmaEnter c.toNat 2).pump_shows c.toNat
  refine ⟨⟨b', by rw [hpumped, hch, ← hv], hwork⟩, ?_⟩
  rw [hrd _ _ (pDma_ne_pPerf _) (by decide), Hub.rd_dmaEnter _ _ (by decide) (by decide) (by decide) (by decide)]
  rfl

theorem Hub.burstBegun_shows {h : Hub} (c : BitVec 6) (hbursts : (h.dmaCh c.toNat).bursts = []) :
    ((h.burstBegun c.toNat).dmaCh c.toNat).st = 2 ∧
    ((h.burstBegun c.toNat).dmaCh c.toNat).pos = (h.dmaCh c.toNat).pos + (h.dmaCh c.toNat).burstCount (h.burstMax c.toNat) ∧
    (∃ b, ((h.burstBegun c.toNat).dmaCh c.toNat).bursts = [b] ∧ b.first = (h.dmaCh c.toNat).pos ∧
      b.count = (h.dmaCh c.toNat).burstCount (h.burstMax c.toNat) ∧ b.phase = 1) ∧
    (2 ≤ h.fld (pDma c.toNat) 0x40 20 2 →
      (h.burstBegun c.toNat).fld (pDma c.toNat) 0x70 0 16 = h.fld (pDma c.toNat) 0x70 0 16 - 1) := by
  have hmax : (h.creditTaken c.toNat).burstMax c.toNat = h.burstMax c.toNat := by
    rw [Hub.burstMax, Hub.fld_of_rd (h.rd_creditTaken (by decide)), Hub.burstMax]
  unfold Hub.burstBegun
  simp only [hmax, hbursts]
  generalize hf : (h.creditTaken c.toNat).newFrame _ 1 = f
  obtain ⟨⟨b, hch, hwork⟩, hrd⟩ := f.2.openBurst_shows c (h.dmaCh c.toNat).pos (f.2.withReads c.toNat (h.dmaCh c.toNat)
    ⟨(h.dmaCh c.toNat).pos, (h.dmaCh c.toNat).burstCount (h.burstMax c.toNat), 1, [], [], [], [], 0, false, f.1⟩)
  rw [hch]
  refine ⟨rfl, rfl, ⟨b, rfl, hwork.first, hwork.count, hwork.phase⟩, fun hpace => ?_⟩
  rw [← Hub.fld_creditTaken hpace, Hub.fld_of_rd hrd, ← hf]
  rfl

end Sys2Proof.Machine
end
section

/-! SUPPORT. The end of a burst, its repeat, descriptors and request lines of a DMA channel: O39. -/

namespace Sys2Proof.Machine

/-! Reads answered, writes answered, the repeat (R285, R287, R296) -/

/-- A burst whose data is converted, with its writes still to be issued (R285 steps 2 and 3). -/
def Hub.withWrites (h : Hub) (ch : Nat) (d : Dma) (b : Burst) : Burst :=
  let made := d.produce (bit (h.rd pArith 0x808) 0) b
  { b with phase := 2, out := made.2, todo := h.burstWrites ch d made.1 }

/-- A burst whose reads are all answered goes on to its writes. -/
theorem Hub.readsDone_of_answered {h : Hub} {ch : Nat} {b : Burst} (hbursts : (h.dmaCh ch).bursts = [b])
    (hstop : (h.dmaCh ch).stopFor < 4) (hphase : b.phase = 1) (htodo : b.todo = []) (hreqs : b.reqs = []) (hcode : b.code = 0) :
    h.readsDone ch = ((h.putDma ch (h.dmaCh ch)).putDma ch { h.dmaCh ch with
      bursts := [(h.putDma ch (h.dmaCh ch)).withWrites ch (h.dmaCh ch) b] }).pump ch := by
  have e := h.putDma_self_sameDma ch
  have hpump : h.pump ch = h.putDma ch (h.dmaCh ch) := Hub.pump_of_issued (by simp [hbursts, htodo])
  simp only [Hub.readsDone, hpump, e.ch, hbursts, htodo, hreqs, hphase, hcode, Nat.not_le.mpr hstop, if_false, List.isEmpty_nil,
    Bool.not_true, Bool.false_eq_true, or_self, ne_eq, not_true_eq_false, Hub.withWrites]

/-- The registers of a channel whose burst ends: CRC takes its bytes, BURST_CNT counts (R287). -/
def Hub.burstCounted (h : Hub) (ch : Nat) (b : Burst) : Hub :=
  (h.wr (pDma ch) 0x6C (crcOn (h.rd (pDma ch) 0x6C) b.out)).bump (pDma ch) 0x74 0 32 1

/-- The channel and the frame that a burst leaves when it ends. -/
def Hub.burstLeft (h : Hub) (ch : Nat) (b : Burst) (rest : List Burst) : Hub :=
  let g := h.putDma ch { h.dmaCh ch with bursts := rest, retries := 0 }
  (g.putGframe b.frame { g.gframe b.frame with left := 0 }).tidyFrame b.frame

theorem Hub.burstLeft_sameDma (h : Hub) (ch : Nat) (b : Burst) (rest : List Burst) :
    (h.burstLeft ch b rest).SameDma (h.putDma ch { h.dmaCh ch with bursts := rest, retries := 0 }) :=
  (Hub.tidyFrame_sameDma _ _).trans (Hub.putGframe_sameDma _ _ _)

/-- The global event of a burst's end (R445). -/
def Hub.burstEvent (h : Hub) (ch : Nat) : PerfEvt :=
  ⟨0x11, 1, some (ch / 16), none, some (BitVec.ofNat 6 (h.fld (pDma ch) 0x40 0 6)), none⟩

/-- The hub after a burst of a channel has ended, before the channel shows its position and goes on. -/
def Hub.burstOver (h : Hub) (ch : Nat) (b : Burst) (rest : List Burst) : Hub :=
  let g := (h.burstLeft ch b rest).burstCounted ch b
  g.count (g.burstEvent ch)

theorem Hub.burstEnd_of_written {h : Hub} {ch : Nat} {b : Burst} (hbursts : (h.dmaCh ch).bursts = [b])
    (hstop : (h.dmaCh ch).stopFor = 0) (hphase : b.phase = 2) (htodo : b.todo = []) (hreqs : b.reqs = []) (hcode : b.code = 0) :
    h.burstEnd ch = ((((h.putDma ch (h.dmaCh ch)).burstOver ch b []).showPos ch (b.first + b.count)).pump ch).dmaSettle ch := by
  have e := h.putDma_self_sameDma ch
  have hpump : h.pump ch = h.putDma ch (h.dmaCh ch) := Hub.pump_of_issued (by simp [hbursts, htodo])
  have hrunning : ¬4 ≤ (h.dmaCh ch).stopFor := by omega
  simp only [Hub.burstEnd, hpump, e.ch, hbursts, htodo, hreqs, hphase, hcode, hrunning, if_false, List.isEmpty_nil,
    Bool.not_true, Bool.false_eq_true, or_self, ne_eq, not_true_eq_false, Hub.burstOver, Hub.burstCounted, Hub.burstLeft, Hub.burstEvent]

theorem Hub.dmaSettle_of_running {h : Hub} {ch : Nat} (hstop : (h.dmaCh ch).stopFor = 0) : h.dmaSettle ch = h := by
  simp [Hub.dmaSettle, hstop]

/-- The position registers lie below CRC. -/
theorem Hub.showPos_channel (h : Hub) (ch n : Nat) : (h.showPos ch n).dma = h.dma ∧
    ∀ o, 0x6C ≤ o → (h.showPos ch n).rd (pDma ch) o = h.rd (pDma ch) o := by
  unfold Hub.showPos
  extract_lets d p r i at_ exact_ g
  split
  · refine ⟨by simp, fun o ho => ?_⟩
    rw [Hub.rd_wr_ne _ _ (by omega), Hub.rd_wr_ne _ _ (by omega), Hub.rd_wr64_ne _ _ (by omega) (by omega),
      Hub.rd_wr64_ne _ _ (by omega) (by omega)]
  · refine ⟨by simp [g], fun o ho => ?_⟩
    rw [Hub.rd_wr_ne _ _ (by omega), Hub.rd_wr_ne _ _ (by omega), Hub.rd_wr64_ne _ _ (by omega) (by omega),
      Hub.rd_wr64_ne _ _ (by omega) (by omega)]

theorem Hub.burstEnd_shows {h : Hub} {ch : Nat} {b : Burst} (hbursts : (h.dmaCh ch).bursts = [b])
    (hstop : (h.dmaCh ch).stopFor = 0) (hphase : b.phase = 2) (htodo : b.todo = []) (hreqs : b.reqs = []) (hcode : b.code = 0) :
    (h.burstEnd ch).dmaCh ch = { h.dmaCh ch with bursts := [], retries := 0 } ∧
    (∀ o, 0x6C ≤ o → o < 4096 → (h.burstEnd ch).rd (pDma ch) o =
      (((h.putDma ch (h.dmaCh ch)).burstLeft ch b []).burstCounted ch b).rd (pDma ch) o) := by
  generalize hover : (h.putDma ch (h.dmaCh ch)).burstOver ch b [] = g
  have hg : g.SameDma (((h.putDma ch (h.dmaCh ch)).burstLeft ch b []).burstCounted ch b) := hover ▸ Hub.count_sameDma _ _
  obtain ⟨hdma, hpos⟩ := g.showPos_channel ch (b.first + b.count)
  have hleft : g.dmaCh ch = { h.dmaCh ch with bursts := [], retries := 0 } := by
    rw [hg.ch, Hub.burstCounted, Hub.dmaCh_of_dma (h := (h.putDma ch (h.dmaCh ch)).burstLeft ch b []) (by simp),
      (Hub.burstLeft_sameDma _ _ _ _).ch, Hub.dmaCh_putDma, if_pos rfl, Hub.dmaCh_putDma, if_pos rfl]
  have hshown : (g.showPos ch (b.first + b.count)).dmaCh ch = { h.dmaCh ch with bursts := [], retries := 0 } :=
    (Hub.dmaCh_of_dma hdma ch).trans hleft
  have e := (g.showPos ch (b.first + b.count)).putDma_self_sameDma ch
  rw [Hub.burstEnd_of_written hbursts hstop hphase htodo hreqs hcode, hover, Hub.pump_of_idle (by rw [hshown]),
    Hub.dmaSettle_of_running (by rw [e.ch, hshown]; exact hstop), e.ch]
  refine ⟨hshown, fun o hcrc ho => ?_⟩
  rw [e.rd _ _ (pDma_ne_pPerf ch) ho, hpos o hcrc, hg.rd _ _ (pDma_ne_pPerf ch) ho]

theorem Hub.rd_burstLeft (h : Hub) (ch : Nat) (b : Burst) (rest : List Burst) {p o : Nat} (hp : p ≠ pPerf) (ho : o < 4096) :
    (h.burstLeft ch b rest).rd p o = h.rd p o := (h.burstLeft_sameDma ch b rest).rd p o hp ho

/-- A burst that failed is repeated from its start, at its due time (R296). -/
theorem Hub.burstRetry_of_waiting {h : Hub} {ch : Nat} {b : Burst} {rest : List Burst} (hbursts : (h.dmaCh ch).bursts = b :: rest)
    (hphase : b.phase = 0) (hstop : (h.dmaCh ch).stopFor < 4) (hepisode : h.therm.episode = false) (hexiting : h.therm.exiting = false) :
    h.burstRetry ch = (((h.reach (h.dmaCh ch).retryAt).putDma ch { h.dmaCh ch with
      bursts := { (h.reach (h.dmaCh ch).retryAt).withReads ch (h.dmaCh ch) b with phase := 1 } :: rest }).bump
        (pDma ch) 0x7C 0 32 1).pump ch := by
  simp only [Hub.burstRetry, hbursts, hphase, hepisode, hexiting, Nat.not_le.mpr hstop, Bool.false_eq_true, or_self, ne_eq,
    not_true_eq_false, if_false, Hub.withReads]

/-! Descriptors (R280, R288, R289) -/

theorem Hub.issueFetch_of_issued {h : Hub} {ch : Nat} (hreq : (h.dmaCh ch).fetchReq ≠ 0) : h.issueFetch ch = h := by
  simp [Hub.issueFetch, hreq]

theorem Hub.issueFinish_of_issued {h : Hub} {ch : Nat} (hreq : (h.dmaCh ch).finishReq ≠ 0) : h.issueFinish ch = h := by
  simp [Hub.issueFinish, hreq]

/-- A channel that holds the descriptor it fetched (R276). -/
def Dma.fetched (d : Dma) (x : Sector) : Dma :=
  { d with
    desc := (List.range 16).map (fun i => x.extractLsb' (32 * i) 32)
    fetch := 0, fetchReq := 0, got := [], shiftRow := 0, shiftSrc := 0, shiftDst := 0 }

theorem Dma.own_fetched (d : Dma) (x : Sector) : bit ((d.fetched x).word 0) 31 = x.getLsbD 31 := by
  simp [bit, Dma.word, Dma.fetched]

/-- A channel whose fetched descriptor the hub does not own ends its chain (R289). -/
def Hub.chainEnded (h : Hub) (ch : Nat) (x : Sector) : Hub :=
  h.putDma ch { (h.dmaCh ch).fetched x with stopFor := 0, desc := [], overlap := false }

/-- A channel that holds its fetched descriptor starts at its first element, with CRC clear (R280, R287, R294). -/
def Hub.descLoaded (h : Hub) (ch : Nat) (x : Sector) : Hub :=
  ((h.putDma ch ((h.dmaCh ch).fetched x)).wr (pDma ch) 0x6C 0).showPos ch 0

/-- What a fetched descriptor's check brings about: it runs, or the channel halts with the check's RESULT (R280, R296). -/
def Hub.descJudged (h : Hub) (ch : Nat) : Nat → Hub
  | 0 => h.runDesc ch 0
  | code => (h.dmaHalt ch code 0).dmaSettle ch

section
variable {h : Hub} {ch : Nat} {x : Sector} {rest : List Sector} (hreq : (h.dmaCh ch).fetchReq ≠ 0)
  (hanswered : h.findReq (h.dmaCh ch).fetchReq = none) (herr : (h.dmaCh ch).err = 0) (hgot : (h.dmaCh ch).got = x :: rest)
include hreq hanswered herr hgot

theorem Hub.descFetched_of_notOwned (hfetch : (h.dmaCh ch).fetch ≠ 0) (hown : x.getLsbD 31 = false) : h.descFetched ch =
    (if (h.dmaCh ch).fetch = 2 then (h.chainEnded ch x).raise (pDma ch) 2 else h.chainEnded ch x).dmaEnter ch 1 := by
  have hbit : (!bit (((h.dmaCh ch).fetched x).word 0) 31) = true := by rw [Dma.own_fetched, hown, Bool.not_false]
  simp only [Hub.descFetched, Hub.issueFetch_of_issued hreq]
  rw [if_neg hfetch, if_neg (by simp [hreq]), if_neg (by simp [hanswered]), if_neg (by simp [herr]), hgot]
  exact if_pos hbit

theorem Hub.descFetched_of_owned (hfetch : (h.dmaCh ch).fetch = 1) (hown : x.getLsbD 31 = true) : h.descFetched ch =
    (h.descLoaded ch x).descJudged ch
      ((h.descLoaded ch x).checkDesc ch (h.fld (pDma ch) 0x40 0 6) ((h.dmaCh ch).fetched x) 0 0) := by
  have hbit : ¬(!bit (((h.dmaCh ch).fetched x).word 0) 31) = true := by rw [Dma.own_fetched, hown]; decide
  simp only [Hub.descFetched, Hub.issueFetch_of_issued hreq]
  rw [if_neg (by simp [hfetch]), if_neg (by simp [hreq]), if_neg (by simp [hanswered]), if_neg (by simp [herr]), hgot]
  refine (if_neg hbit).trans ?_
  rw [hfetch]
  rfl

end

end Sys2Proof.Machine
end
section

/-! SUPPORT. The completion of a descriptor and the fall of a request line; O39. -/

namespace Sys2Proof.Machine

/-! Completion (R288) -/

theorem Hub.descComplete_of_done {h : Hub} {ch : Nat} (hfinish : (h.dmaCh ch).finish = 0)
    (hst : (h.dmaCh ch).st = 2 ∨ (h.dmaCh ch).st = 3) (hstop : (h.dmaCh ch).stopFor = 0) (hfetch : (h.dmaCh ch).fetch = 0)
    (hdesc : (h.dmaCh ch).desc ≠ []) (hbursts : (h.dmaCh ch).bursts = []) (hpos : (h.dmaCh ch).total ≤ (h.dmaCh ch).pos) :
    h.descComplete ch = h.startFinish ch 1 := by
  have hidle : h.issueFinish ch = h := by simp [Hub.issueFinish, hfinish]
  simp only [Hub.descComplete, hidle, hfinish]
  exact if_pos ⟨hst, hstop, hfetch, hdesc, hbursts, hpos⟩

theorem Hub.descComplete_of_ownWritten {h : Hub} {ch : Nat} (hfinish : (h.dmaCh ch).finish = 2) (hreq : (h.dmaCh ch).finishReq ≠ 0)
    (hanswered : h.findReq (h.dmaCh ch).finishReq = none) (herr : (h.dmaCh ch).err = 0) : h.descComplete ch = h.descDone ch := by
  simp [Hub.descComplete, Hub.issueFinish_of_issued hreq, hfinish, hreq, hanswered, herr]

/-- The counts and events of a completed descriptor (R288 steps 3 and 4). -/
def Hub.descCounted (h : Hub) (ch : Nat) : Hub :=
  ((h.putDma ch { h.dmaCh ch with finish := 0, finishReq := 0 }).bump (pDma ch) 0x78 0 32 1).dmaEvent true ch

/-- The interrupt cause of a completed descriptor that asks for it. -/
def Hub.descSignalled (h : Hub) (ch : Nat) (d : Dma) : Hub := if bit (d.word 0) 29 then h.raise (pDma ch) 1 else h

theorem Hub.descDone_of_last {h : Hub} {ch : Nat} (hchain : (h.dmaCh ch).chain = false) : h.descDone ch =
    ((((h.descCounted ch).descSignalled ch (h.dmaCh ch)).putDma ch
      { ((h.descCounted ch).descSignalled ch (h.dmaCh ch)).dmaCh ch with stopFor := 0, desc := [], overlap := false }).raise
        (pDma ch) 2).dmaEnter ch 1 := by
  unfold Hub.descDone
  exact if_neg (by rw [hchain]; decide)

theorem Hub.rd_descCounted (h : Hub) (ch : Nat) :
    ((h.descCounted ch).rd (pDma ch) 0x78).toNat = min (2 ^ 32 - 1) ((h.rd (pDma ch) 0x78).toNat + 1) := by
  rw [Hub.descCounted, (Hub.dmaEvent_channel _ _ _).2 _ _ (by decide) (by decide) (by decide) (by decide), Hub.toNat_rd_bump]
  rfl

theorem Hub.rd_descSignalled (h : Hub) (ch : Nat) (d : Dma) {o : Nat} (ho : o ≠ 0x10) :
    (h.descSignalled ch d).rd (pDma ch) o = h.rd (pDma ch) o := by
  unfold Hub.descSignalled
  split
  · exact h.rd_raise_ne 1 ho
  · rfl

/-- The last descriptor of a chain leaves the channel IDLE, countedWord, with EMPTY and, where it asks for it, its own interrupt cause. -/
theorem Hub.descDone_shows {h : Hub} (c : BitVec 6) (hchain : (h.dmaCh c.toNat).chain = false) :
    ((h.descDone c.toNat).dmaCh c.toNat).st = 1 ∧
    ((h.descDone c.toNat).rd (pDma c.toNat) 0x78).toNat = min (2 ^ 32 - 1) ((h.rd (pDma c.toNat) 0x78).toNat + 1) ∧
    bit ((h.descDone c.toNat).rd (pDma c.toNat) 0x10) 2 = true ∧
    (bit ((h.dmaCh c.toNat).word 0) 29 = true → bit ((h.descDone c.toNat).rd (pDma c.toNat) 0x10) 1 = true) := by
  rw [Hub.descDone_of_last hchain]
  refine ⟨?_, ?_, ?_, fun hsignal => ?_⟩
  · rw [Hub.dmaCh_dmaEnter, if_pos rfl]
  · rw [Hub.rd_dmaEnter _ _ (by decide) (by decide) (by decide) (by decide), Hub.rd_raise_ne _ _ (by decide), Hub.rd_putDma,
      Hub.rd_descSignalled _ _ _ (by decide), Hub.rd_descCounted]
  · exact Hub.bit_dmaEnter_of_bit 1 (Hub.bit_raise_same _ _ (by decide))
  · refine Hub.bit_dmaEnter_of_bit 1 (Hub.bit_raise_of_bit 2 ?_)
    rw [Hub.descSignalled, if_pos hsignal]
    exact Hub.bit_raise_same (h.descCounted c.toNat) (pDma c.toNat) (by decide)

/-! The fall of a request line (R293) -/

/-- What stands of each index after a fold whose steps each change what stands of their own index alone. -/
theorem foldl_own {β σ : Type} {view : Nat → σ → β} {upd : Nat → β → β} {f : σ → Nat → σ}
    (own : ∀ x a, view a (f x a) = upd a (view a x)) (other : ∀ x a b, b ≠ a → view b (f x a) = view b x) {l : List Nat} (hl : l.Nodup) {b : Nat} (hb : b ∈ l) (x : σ) :
    view b (l.foldl f x) = upd b (view b x) := by
  have outside (l : List Nat) (hout : b ∉ l) (x : σ) : view b (l.foldl f x) = view b x := by
    induction l generalizing x with
    | nil => rfl
    | cons a l ih =>
      rw [List.foldl_cons, ih (fun h => hout (.tail _ h)), other x a b fun e => hout (e ▸ .head _)]
  induction l generalizing x with
  | nil => cases hb
  | cons a l ih =>
    obtain ⟨ha, hl⟩ := List.nodup_cons.mp hl
    rcases List.mem_cons.mp hb with rfl | hb
    · rw [List.foldl_cons, outside l ha, own]
    · rw [List.foldl_cons, ih hl hb, other x a b fun e => ha (e ▸ hb)]

/-- What the fall of a request line reads and changes of a channel: its bursts, CH_CFG, and the count of falls. -/
def Hub.lineView (c : Nat) (h : Hub) : Dma × Word × Word := (h.dmaCh c, h.rd (pDma c) 0x40, h.rd (pDma c) 0x80)

/-- A burst during which the request line fell. -/
def Burst.fallen (b : Burst) : Burst := { b with fell := true }

def Dma.fallen (d : Dma) : Dma := { d with bursts := d.bursts.map Burst.fallen }

/-- A channel with CH_CFG `cfg` has a burst running that the line paces and that it has not fallen in before. -/
def Dma.lineFalls (d : Dma) (cfg : Word) (line : Nat) : Bool :=
  decide (bitsNat cfg 20 1 = 1) && decide (bitsNat cfg 24 8 = line) && d.bursts.any (fun b => !b.fell)

/-- The fall of a line at one channel. -/
def Hub.lineFell (line : Nat) (h : Hub) (c : Nat) : Hub :=
  if (h.dmaCh c).lineFalls (h.rd (pDma c) 0x40) line then (h.putDma c (h.dmaCh c).fallen).bump (pDma c) 0x80 0 32 1 else h

def lineFellView (line : Nat) (v : Dma × Word × Word) : Dma × Word × Word :=
  if v.1.lineFalls v.2.1 line then (v.1.fallen, v.2.1, countedWord v.2.2) else v

/-- The hub after a request line has fallen. -/
def Hub.reqFallen (h : Hub) (line : Nat) : Hub :=
  (List.range 64).foldl (Hub.lineFell line) (h.setPins { h.pins with dmaReq := putBit h.pins.dmaReq line false })

theorem execDmaReqFall_eq (line : BitVec 8) (s : State) :
    execDmaReqFall line s = onHub s (fun h => h.reqFallen line.toNat) := by
  unfold execDmaReqFall Hub.reqFallen Hub.lineFell Dma.lineFalls
  simp only [Bool.and_eq_true, decide_eq_true_eq, and_assoc]
  rfl

theorem Hub.lineView_lineFell_own (line : Nat) (h : Hub) (c : Nat) :
    Hub.lineView c (h.lineFell line c) = lineFellView line (Hub.lineView c h) := by
  unfold Hub.lineFell lineFellView Hub.lineView
  dsimp only
  split
  · rw [Hub.rd_bump_ne _ _ _ _ (by decide)]
    refine Prod.ext ?_ (Prod.ext rfl ?_)
    · exact (Hub.dmaCh_bump ..).trans ((Hub.dmaCh_putDma ..).trans (if_pos rfl))
    · exact Hub.rd_bump_same ..
  · rfl

theorem Hub.lineView_lineFell_other (line : Nat) (h : Hub) (a b : Nat) (hne : b ≠ a) :
    Hub.lineView b (h.lineFell line a) = Hub.lineView b h := by
  have hpage : pDma b ≠ pDma a := by unfold pDma; omega
  unfold Hub.lineFell Hub.lineView
  split
  · rw [Hub.rd_bump_page _ _ _ _ hpage (by decide) (by decide), Hub.rd_bump_page _ _ _ _ hpage (by decide) (by decide)]
    refine Prod.ext ?_ rfl
    exact (Hub.dmaCh_bump ..).trans ((Hub.dmaCh_putDma ..).trans (if_neg hne))
  · rfl

theorem Hub.lineFell_keeps (line : Nat) (h : Hub) (c : Nat) : (h.lineFell line c).pins = h.pins ∧
    (h.lineFell line c).lines = h.lines ∧ (h.lineFell line c).mem = h.mem := by
  unfold Hub.lineFell
  split <;> simp

/-- The channels that a line's fall reaches: bursts it paces have fallen, and the count of those that had not before goes up. -/
theorem lineFellView_shows {line : Nat} {v : Dma × Word × Word} (hpaced : bitsNat v.2.1 20 1 = 1) (hline : bitsNat v.2.1 24 8 = line) :
    (∀ b ∈ (lineFellView line v).1.bursts, b.fell = true) ∧
    (v.1.bursts.any (fun b => !b.fell) = true → (lineFellView line v).2.2.toNat = min (2 ^ 32 - 1) (v.2.2.toNat + 1)) := by
  unfold lineFellView Dma.lineFalls
  rw [decide_eq_true hpaced, decide_eq_true hline, Bool.true_and, Bool.true_and]
  split
  · refine ⟨fun b hb => ?_, fun _ => toNat_countedWord _⟩
    obtain ⟨a, -, rfl⟩ := List.mem_map.mp hb
    rfl
  · next hnone => exact ⟨by simpa using hnone, fun hany => absurd hany hnone⟩

end Sys2Proof.Machine
end
section

/-! SUPPORT. What each step of a DMA channel shows; O39. -/

namespace Sys2Proof.Machine

theorem ends_onHub {s : State} {f : Hub → Hub} {P : State → Prop} (h : P { s with hub := f s.hub }) :
    Ends (onHub s f) P := ⟨_, rfl, h⟩

/-! The start of a burst under a sampled line -/

/-- A ready channel in its turn, paced as its sampled line and its credit stand, begins its next burst. -/
theorem Hub.sampled_begins {h : Hub} {c : BitVec 6} {l : Bool} (hready : h.dmaReady c.toNat = true) (hweight : h.dmaWeight c.toNat ≠ 0)
    (hfirst : 0 < (h.dmaCh c.toNat).left ∨ ∀ x ∈ (h.sampleLine c.toNat l).dmaRivals (c.toNat / 16), (h.dmaCh x).left = 0)
    (hbursts : (h.dmaCh c.toNat).bursts = []) (hepisode : h.therm.episode = false) (hexiting : h.therm.exiting = false)
    (hwarn : h.pins.supplyWarn = false) (hline : h.fld (pDma c.toNat) 0x40 20 2 % 2 = 1 → l = true)
    (hcredit : 2 ≤ h.fld (pDma c.toNat) 0x40 20 2 → 0 < h.fld (pDma c.toNat) 0x70 0 16) :
    ∃ g : Hub, (h.sampleLine c.toNat l).burstStart c.toNat = g.burstBegun c.toNat ∧ g.SameButLeft h := by
  have e := h.sampleLine_sameDma c.toNat l
  have hpaced : (h.sampleLine c.toNat l).dmaPaced c.toNat = true := by
    rw [Hub.dmaPaced_sampleLine, Bool.and_eq_true, Bool.or_eq_true, Bool.or_eq_true, beq_iff_eq, decide_eq_true_eq, decide_eq_true_eq]
    exact ⟨(Nat.mod_two_eq_zero_or_one _).imp_right hline, (Nat.lt_or_ge _ 2).imp_right hcredit⟩
  have hwarn' : (h.sampleLine c.toNat l).pins.supplyWarn = false := by
    unfold Hub.sampleLine
    split <;> exact hwarn
  obtain ⟨g, hstart, hg⟩ := Hub.burstStart_begins (h := h.sampleLine c.toNat l) (ch := c.toNat) (by rwa [e.ch])
    ((e.dmaReady _).trans hready) hpaced (by rwa [e.therm]) (by rwa [e.therm]) hwarn' (by rwa [e.dmaWeight])
    (by simpa only [e.ch] using hfirst)
  exact ⟨g, hstart, hg.trans (h.sampleLine_sameButLeft _ _)⟩

/-- What a burst that begins shows does not depend on the starts left in the round. -/
theorem Hub.burstBegun_shows_of_sameButLeft {g h : Hub} (c : BitVec 6) (hg : g.SameButLeft h) (hbursts : (h.dmaCh c.toNat).bursts = []) :
    ((g.burstBegun c.toNat).dmaCh c.toNat).st = 2 ∧
    ((g.burstBegun c.toNat).dmaCh c.toNat).pos = (h.dmaCh c.toNat).pos + (h.dmaCh c.toNat).burstCount (h.burstMax c.toNat) ∧
    (∃ b, ((g.burstBegun c.toNat).dmaCh c.toNat).bursts = [b] ∧ b.first = (h.dmaCh c.toNat).pos ∧
      b.count = (h.dmaCh c.toNat).burstCount (h.burstMax c.toNat) ∧ b.phase = 1) ∧
    (2 ≤ h.fld (pDma c.toNat) 0x40 20 2 →
      (g.burstBegun c.toNat).fld (pDma c.toNat) 0x70 0 16 = h.fld (pDma c.toNat) 0x70 0 16 - 1) := by
  obtain ⟨m, hch⟩ := hg.ch c.toNat
  have hfld (o lo n : Nat) : g.fld (pDma c.toNat) o lo n = h.fld (pDma c.toNat) o lo n := Hub.fld_of_rd (Hub.rd_of_regs hg.regs _ _) lo n
  have hmax : g.burstMax c.toNat = h.burstMax c.toNat := by rw [Hub.burstMax, hfld, Hub.burstMax]
  have hpos : (g.dmaCh c.toNat).pos = (h.dmaCh c.toNat).pos := by rw [hch]
  have hcount (n : Nat) : (g.dmaCh c.toNat).burstCount n = (h.dmaCh c.toNat).burstCount n := by rw [hch]; rfl
  have hshows := Hub.burstBegun_shows (h := g) c (by rw [hch]; exact hbursts)
  rwa [hmax, hcount, hpos, hfld, hfld] at hshows

/-- A ready channel that its pacing holds back, as its sampled line and its credit stand, waits (R291). -/
theorem Hub.dmaCh_sampled_waits {h : Hub} {ch : Nat} {l : Bool} (hready : h.dmaReady ch = true) (hbursts : (h.dmaCh ch).bursts = [])
    (hheld : (h.fld (pDma ch) 0x40 20 2 % 2 = 1 ∧ l = false) ∨ (2 ≤ h.fld (pDma ch) 0x40 20 2 ∧ h.fld (pDma ch) 0x70 0 16 = 0)) :
    ((h.sampleLine ch l).burstStart ch).dmaCh ch = { h.dmaCh ch with st := 3 } := by
  have e := h.sampleLine_sameDma ch l
  have hpaced : (h.sampleLine ch l).dmaPaced ch = false := by
    rw [Hub.dmaPaced_sampleLine]
    rcases hheld with ⟨hpace, rfl⟩ | ⟨hpace, hnone⟩
    · simp [hpace]
    · simp [hnone, Nat.not_lt.mpr hpace]
  rw [Hub.burstStart_waits (by rwa [e.ch]) ((e.dmaReady ch).trans hready) hpaced, Hub.dmaCh_dmaEnter, if_pos rfl, Hub.dmaCh_putDma,
    if_pos rfl, e.ch]

/-! The fall of a request line -/

theorem Hub.reqFallen_keeps (h : Hub) (line : Nat) : (h.reqFallen line).pins.dmaReq = putBit h.pins.dmaReq line false ∧
    (h.reqFallen line).lines = h.lines ∧ (h.reqFallen line).mem = h.mem :=
  ⟨congrArg Pins.dmaReq (foldl_keeps Hub.pins _ (fun g c => (g.lineFell_keeps line c).1) _ _),
    foldl_keeps Hub.lines _ (fun g c => (g.lineFell_keeps line c).2.1) _ _,
    foldl_keeps Hub.mem _ (fun g c => (g.lineFell_keeps line c).2.2) _ _⟩

theorem Hub.lineView_reqFallen (h : Hub) (line : Nat) {c : Nat} (hc : c < 64) :
    Hub.lineView c (h.reqFallen line) = lineFellView line (Hub.lineView c h) :=
  foldl_own (view := Hub.lineView) (upd := fun _ => lineFellView line) (Hub.lineView_lineFell_own line)
    (Hub.lineView_lineFell_other line) List.nodup_range (List.mem_range.mpr hc) _

theorem Hub.reqFallen_shows {h : Hub} {line c : Nat} (hc : c < 64) (hpaced : h.fld (pDma c) 0x40 20 1 = 1)
    (hline : h.fld (pDma c) 0x40 24 8 = line) : (∀ b ∈ ((h.reqFallen line).dmaCh c).bursts, b.fell = true) ∧
    ((h.dmaCh c).bursts.any (fun b => !b.fell) = true →
      ((h.reqFallen line).rd (pDma c) 0x80).toNat = min (2 ^ 32 - 1) ((h.rd (pDma c) 0x80).toNat + 1)) := by
  have hview := h.lineView_reqFallen line hc
  have hshows := lineFellView_shows (line := line) (v := Hub.lineView c h) hpaced hline
  rwa [← hview] at hshows

/-! Reads done, burst done, repeat -/

theorem Hub.readsDone_shows {h : Hub} {ch : Nat} {b : Burst} (hbursts : (h.dmaCh ch).bursts = [b])
    (hstop : (h.dmaCh ch).stopFor < 4) (hphase : b.phase = 1) (htodo : b.todo = []) (hreqs : b.reqs = []) (hcode : b.code = 0) :
    ∃ b', ((h.readsDone ch).dmaCh ch).bursts = [b'] ∧ b'.phase = 2 ∧ b'.first = b.first ∧ b'.count = b.count ∧
      b'.out = ((h.dmaCh ch).produce (bit (h.rd pArith 0x808) 0) b).2 := by
  rw [Hub.readsDone_of_answered hbursts hstop hphase htodo hreqs hcode]
  generalize hv : ({ h.dmaCh ch with bursts := [(h.putDma ch (h.dmaCh ch)).withWrites ch (h.dmaCh ch) b] } : Dma) = v
  have hch : (((h.putDma ch (h.dmaCh ch)).putDma ch v).dmaCh ch) = v := (Hub.dmaCh_putDma ..).trans (if_pos rfl)
  obtain ⟨b', hpumped, hwork⟩ := Hub.pump_one (h := (h.putDma ch (h.dmaCh ch)).putDma ch v)
    (b := (h.putDma ch (h.dmaCh ch)).withWrites ch (h.dmaCh ch) b) (by rw [hch, ← hv])
  exact ⟨b', by rw [hpumped], hwork.phase, hwork.first, hwork.count, hwork.out⟩

theorem Hub.burstEnd_counts {h : Hub} {ch : Nat} {b : Burst} (hbursts : (h.dmaCh ch).bursts = [b])
    (hstop : (h.dmaCh ch).stopFor = 0) (hphase : b.phase = 2) (htodo : b.todo = []) (hreqs : b.reqs = []) (hcode : b.code = 0) :
    ((h.burstEnd ch).rd (pDma ch) 0x74).toNat = min (2 ^ 32 - 1) ((h.rd (pDma ch) 0x74).toNat + 1) ∧
    (h.burstEnd ch).rd (pDma ch) 0x6C = crcOn (h.rd (pDma ch) 0x6C) b.out := by
  obtain ⟨-, hrd⟩ := Hub.burstEnd_shows hbursts hstop hphase htodo hreqs hcode
  have hleft {o : Nat} (ho : o < 4096) : ((h.putDma ch (h.dmaCh ch)).burstLeft ch b []).rd (pDma ch) o = h.rd (pDma ch) o :=
    Hub.rd_burstLeft _ ch b [] (pDma_ne_pPerf ch) ho
  rw [hrd 0x74 (by decide) (by decide), hrd 0x6C (by decide) (by decide), Hub.burstCounted]
  constructor
  · rw [Hub.toNat_rd_bump, Hub.rd_wr_ne _ _ (by omega), hleft (by decide)]
  · rw [Hub.rd_bump_ne _ _ _ _ (by decide), Hub.rd_wr_same, hleft (by decide)]

theorem Hub.burstRetry_shows {h : Hub} {ch : Nat} {b : Burst} {rest : List Burst} (hbursts : (h.dmaCh ch).bursts = b :: rest)
    (hphase : b.phase = 0) (hstop : (h.dmaCh ch).stopFor < 4) (hepisode : h.therm.episode = false) (hexiting : h.therm.exiting = false) :
    (h.burstRetry ch).now = max h.now (h.dmaCh ch).retryAt ∧
    ((h.burstRetry ch).rd (pDma ch) 0x7C).toNat = min (2 ^ 32 - 1) ((h.rd (pDma ch) 0x7C).toNat + 1) ∧
    ∃ b' rest', ((h.burstRetry ch).dmaCh ch).bursts = b' :: rest' ∧ b'.phase = 1 ∧ b'.first = b.first ∧ b'.count = b.count := by
  rw [Hub.burstRetry_of_waiting hbursts hphase hstop hepisode hexiting]
  generalize hb : ({ (h.reach (h.dmaCh ch).retryAt).withReads ch (h.dmaCh ch) b with phase := 1 } : Burst) = b₁
  generalize hv : ({ h.dmaCh ch with bursts := b₁ :: rest } : Dma) = v
  obtain ⟨hnow, hrd, bs, hch, hwork⟩ := (((h.reach (h.dmaCh ch).retryAt).putDma ch v).bump (pDma ch) 0x7C 0 32 1).pump_shows ch
  have hnext : ((((h.reach (h.dmaCh ch).retryAt).putDma ch v).bump (pDma ch) 0x7C 0 32 1).dmaCh ch).bursts = b₁ :: rest := by
    rw [Hub.dmaCh_bump, Hub.dmaCh_putDma, if_pos rfl, ← hv]
  rw [hnext] at hwork
  refine ⟨by simpa [Hub.reach] using hnow, ?_, ?_⟩
  · rw [hrd _ _ (pDma_ne_pPerf ch) (by decide), Hub.toNat_rd_bump]
    rfl
  · cases hwork with
    | cons hsame _ => exact ⟨_, _, by rw [hch], hsame.phase.trans (by rw [← hb]), hsame.first.trans (by rw [← hb]; rfl),
        hsame.count.trans (by rw [← hb]; rfl)⟩

/-! A descriptor the hub does not own -/

theorem Hub.notOwned_shows {h : Hub} {c : BitVec 6} {x : Sector} {rest : List Sector} (hfetch : (h.dmaCh c.toNat).fetch ≠ 0)
    (hreq : (h.dmaCh c.toNat).fetchReq ≠ 0) (hanswered : h.findReq (h.dmaCh c.toNat).fetchReq = none) (herr : (h.dmaCh c.toNat).err = 0)
    (hgot : (h.dmaCh c.toNat).got = x :: rest) (hown : x.getLsbD 31 = false) : ((h.descFetched c.toNat).dmaCh c.toNat).st = 1 ∧
    (h.descFetched c.toNat).rd (pDma c.toNat) 0x70 = 0 ∧
    ((h.dmaCh c.toNat).fetch = 2 → bit ((h.descFetched c.toNat).rd (pDma c.toNat) 0x10) 2 = true) := by
  rw [Hub.descFetched_of_notOwned hreq hanswered herr hgot hfetch hown]
  refine ⟨?_, Hub.rd_credit_dmaEnter_idle _ c, fun hchaining => ?_⟩
  · rw [Hub.dmaCh_dmaEnter, if_pos rfl]
  · rw [if_pos hchaining]
    exact Hub.bit_dmaEnter_of_bit 1 (Hub.bit_raise_same _ _ (by decide))

/-- Settles O39: each command is its chapter's step, and the issue of requests that follows leaves what the clause names. -/
theorem dmaChannelEvents : Obligations.DmaChannelEvents := by
  unfold Obligations.DmaChannelEvents
  refine ⟨?_, ?_, ?_, ?_, ?_, ?_, ?_, ?_, ?_, ?_⟩
  · intro s c l hready hweight hfirst hbursts hepisode hexiting hwarn hline hcredit
    obtain ⟨g, hstart, hg⟩ := Hub.sampled_begins hready hweight hfirst hbursts hepisode hexiting hwarn hline hcredit
    obtain ⟨hst, hpos, hburst, htaken⟩ := Hub.burstBegun_shows_of_sameButLeft c hg hbursts
    rw [← hstart] at hst hpos hburst htaken
    show Ends (execDmaBurstStart c l s) _
    refine ends_onHub ?_
    dsimp only
    unfold Dma.burstCount at hpos hburst
    exact ⟨hst, hpos, hburst, htaken, by simp⟩
  · intro s c l hready hbursts hheld
    have hch := Hub.dmaCh_sampled_waits hready hbursts hheld
    exact ⟨_, rfl, by rw [hch], by rw [hch], by rw [hch]; exact hbursts, by simp⟩
  · intro s x
    obtain ⟨hreq, hlines, hmem⟩ := s.hub.reqFallen_keeps x.toNat
    show Ends (execDmaReqFall x s) _
    rw [execDmaReqFall_eq]
    refine ends_onHub ?_
    dsimp only
    exact ⟨by rw [hreq, bit_putBit_same _ _ x.isLt], fun c hc hpaced hline => Hub.reqFallen_shows hc hpaced hline, hlines, hmem⟩
  · intro s c b hbursts hstop hphase htodo hreqs hcode
    exact ⟨_, rfl, Hub.readsDone_shows hbursts hstop hphase htodo hreqs hcode, by simp⟩
  · intro s c b hbursts hstop hphase htodo hreqs hcode
    obtain ⟨hch, -⟩ := Hub.burstEnd_shows hbursts hstop hphase htodo hreqs hcode
    obtain ⟨hcount, hcrc⟩ := Hub.burstEnd_counts hbursts hstop hphase htodo hreqs hcode
    exact ⟨_, rfl, by rw [hch], by rw [hch], hcount, hcrc, by simp⟩
  · intro s c b rest hbursts hphase hstop hepisode hexiting
    obtain ⟨hnow, hcount, hburst⟩ := Hub.burstRetry_shows hbursts hphase hstop hepisode hexiting
    exact ⟨_, rfl, hnow, hcount, hburst, by simp⟩
  · intro s c x rest hfetch hreq hanswered herr hgot hown
    obtain ⟨hst, hcredit, hempty⟩ := Hub.notOwned_shows hfetch hreq hanswered herr hgot hown
    exact ⟨_, rfl, hst, hcredit, hempty, by simp⟩
  · intro s c x rest hfetch hreq hanswered herr hgot hown
    have hjudged := Hub.descFetched_of_owned hreq hanswered herr hgot hfetch hown
    show Ends (execDmaDescFetch c s) _
    refine ends_onHub ⟨(s.hub.dmaCh c.toNat).fetched x, s.hub.descLoaded c.toNat x, rfl, rfl, fun hpass => ?_, fun n hfail => ?_⟩
    · rw [hpass] at hjudged
      exact hjudged
    · rw [hfail] at hjudged
      exact hjudged
  · intro s c hfinish hst hstop hfetch hdesc hbursts hpos
    show Becomes (execDmaDescComplete c s) s _
    exact becomes_onHub (Hub.descComplete_of_done hfinish hst hstop hfetch hdesc hbursts hpos)
  · intro s c hfinish hreq hanswered herr hchain
    obtain ⟨hst, hcount, hempty, hsignal⟩ := Hub.descDone_shows c hchain
    rw [← Hub.descComplete_of_ownWritten hfinish hreq hanswered herr] at hst hcount hempty hsignal
    exact ⟨_, rfl, hst, hcount, hempty, hsignal, by simp⟩

end Sys2Proof.Machine
end

section

/-! SUPPORT. What frames handed to a far-port, OFFERs and answers leave of the pairs, the far-ports, the registers and the operations. -/

namespace Sys2Proof.Machine

/-! Pairs and far-ports of a hub -/

theorem Hub.pair_of_far {g h : Hub} (e : g.far.pairs = h.far.pairs) (p : Nat) : g.pair p = h.pair p := by rw [Hub.pair, Hub.pair, e]

theorem Hub.farPort_of_far {g h : Hub} (e : g.far.ports = h.far.ports) (i : Nat) : g.farPort i = h.farPort i := by
  rw [Hub.farPort, Hub.farPort, e]

theorem Hub.rd_putPair (h : Hub) (peer : Nat) (q : Pair) (p o : Nat) : (h.putPair peer q).rd p o = h.rd p o := rfl
theorem Hub.farPort_putPair (h : Hub) (peer : Nat) (q : Pair) (i : Nat) : (h.putPair peer q).farPort i = h.farPort i := rfl
theorem Hub.pair_putFarPort (h : Hub) (i : Nat) (v : FarPort) (p : Nat) : (h.putFarPort i v).pair p = h.pair p := rfl

@[simp] theorem Hub.pair_putPair_same (h : Hub) (p : Nat) (q : Pair) : (h.putPair p q).pair p = q := by simp [Hub.pair_putPair]

/-- A far-port without the frames it has been handed. -/
def FarPort.line (p : FarPort) : FarPort := { p with sent := [] }

theorem FarPort.fields_of_line {f g : FarPort} (e : f.line = g.line) :
    f.st = g.st ∧ f.width = g.width ∧ f.linkUp = g.linkUp ∧ f.lanesOk = g.lanesOk := by
  simp only [FarPort.line, FarPort.mk.injEq] at e
  simp only [e, and_self]

/-- A pair without the OFFER under way and the time of its last frame. -/
def Pair.standing (q : Pair) : Pair := { q with lastTx := 0, offer := none }

/-- Of two pairs that stand alike: their state, credits, counters, frames held and keys. -/
theorem Pair.fields_of_standing {q r : Pair} (e : q.standing = r.standing) :
    q.st = r.st ∧ (q.rdCrd = r.rdCrd ∧ q.wrCrd = r.wrCrd) ∧ (q.txNext = r.txNext ∧ q.rxNext = r.rxNext ∧ q.held = r.held) ∧
    q.master = r.master ∧ q.txKey = r.txKey ∧ q.rxKey = r.rxKey := by
  simp only [Pair.standing, Pair.mk.injEq] at e
  simp only [e, and_self]

/-- The exchange of frames and keys leaves the pairs as they stand, the far-ports but the frames they are handed, and every register
outside the SEC page's header and operation. -/
structure Hub.SameLinks (g h : Hub) : Prop where
  pair : ∀ p, (g.pair p).standing = (h.pair p).standing
  port : ∀ i, (g.farPort i).line = (h.farPort i).line
  rd : ∀ p o, o < 4096 → p ≠ pSec ∨ 0x80 ≤ o → g.rd p o = h.rd p o

theorem Hub.SameLinks.refl (h : Hub) : h.SameLinks h := ⟨fun _ => rfl, fun _ => rfl, fun _ _ _ _ => rfl⟩

theorem Hub.SameLinks.trans {f g h : Hub} (a : f.SameLinks g) (b : g.SameLinks h) : f.SameLinks h :=
  ⟨fun p => (a.pair p).trans (b.pair p), fun i => (a.port i).trans (b.port i), fun p o ho hs => (a.rd p o ho hs).trans (b.rd p o ho hs)⟩

theorem Hub.putPair_sameLinks {h : Hub} {peer : Nat} {q : Pair} (hq : q.standing = (h.pair peer).standing) :
    (h.putPair peer q).SameLinks h := by
  refine ⟨fun p => ?_, fun _ => rfl, fun _ _ _ _ => rfl⟩
  rw [Hub.pair_putPair]
  split
  · next hp => rw [hp, hq]
  · rfl

theorem Hub.putFarPort_sameLinks {h : Hub} {i : Nat} {v : FarPort} (hv : v.line = (h.farPort i).line) :
    (h.putFarPort i v).SameLinks h := by
  refine ⟨fun _ => rfl, fun j => ?_, fun _ _ _ _ => rfl⟩
  rw [Hub.farPort_putFarPort]
  split
  · next hj => rw [hj, hv]
  · rfl

/-! Frames and OFFERs (R310, R367, R374) -/

theorem Hub.emit_sameLinks (h : Hub) (peer : Nat) (f : Frame) : (h.emit peer f).SameLinks h := by
  unfold Hub.emit
  split
  · split
    · exact .refl h
    · refine Hub.SameLinks.trans (Hub.putFarPort_sameLinks ?_) (Hub.putPair_sameLinks ?_) <;> rfl
  · exact .refl h

/-- A frame handed to a far-port changes the far-ports and the pairs alone. -/
@[simp] theorem Hub.emit_keeps (h : Hub) (peer : Nat) (f : Frame) : (h.emit peer f).now = h.now ∧ (h.emit peer f).regs = h.regs ∧
    (h.emit peer f).ops = h.ops ∧ (h.emit peer f).lines = h.lines := by
  unfold Hub.emit
  split
  · split <;> exact ⟨rfl, rfl, rfl, rfl⟩
  · exact ⟨rfl, rfl, rfl, rfl⟩

theorem Hub.draw_sameLinks (h : Hub) (reseed : Bool) : (h.draw reseed).2.SameLinks h := by
  unfold Hub.draw
  extract_lets fresh g
  have hg : g.SameLinks h := by
    simp only [g]
    split
    · refine ⟨fun _ => rfl, fun _ => rfl, fun p o ho hs => Hub.rd_wr_ne h _ ?_⟩
      rcases hs with hs | hs <;> omega
    · exact .refl h
  exact ⟨hg.pair, hg.port, hg.rd⟩

theorem Hub.sendOffer_sameLinks (h : Hub) (peer : Nat) : (h.sendOffer peer).SameLinks h := by
  unfold Hub.sendOffer
  split
  · have hdraw := h.draw_sameLinks false
    generalize h.draw false = d at hdraw ⊢
    exact (Hub.emit_sameLinks _ _ _).trans (.trans (Hub.putPair_sameLinks (by rfl)) hdraw)
  · exact .refl h

theorem Hub.newOffer_sameLinks (h : Hub) (peer : Nat) (start : BitVec 64) (rekey : Bool) :
    (h.newOffer peer start rekey).SameLinks h := by
  unfold Hub.newOffer
  split
  · exact .refl h
  · have hdraw := h.draw_sameLinks true
    generalize h.draw true = d at hdraw ⊢
    exact (Hub.sendOffer_sameLinks _ _).trans (.trans (Hub.putPair_sameLinks (by rfl)) hdraw)

theorem Hub.newOffer_ops (h : Hub) (peer : Nat) (start : BitVec 64) (rekey : Bool) : (h.newOffer peer start rekey).ops = h.ops := by
  have hoffer (g : Hub) : (g.sendOffer peer).ops = g.ops := by
    unfold Hub.sendOffer
    split <;> simp [Hub.draw_keeps]
  unfold Hub.newOffer
  split
  · rfl
  · simp [hoffer, Hub.draw_keeps]

theorem Hub.endOp_sec_sameLinks (h : Hub) (code : Nat) : (h.endOp pSec code).SameLinks h := by
  refine ⟨fun p => congrArg Pair.standing (Hub.pair_of_far (by simp) p),
    fun i => congrArg FarPort.line (Hub.farPort_of_far (by simp) i), fun p o ho hs => ?_⟩
  rcases eq_or_ne p pSec with rfl | hp
  · have hfar : 0x80 ≤ o := hs.resolve_left (fun hne => hne rfl)
    cases hop : h.opOf pSec with
    | none => simp only [Hub.endOp, hop]
    | some op => exact Hub.rd_endOp_other (c := .sec) code rfl hop rfl (by simp only [opResultOf]; omega) (by omega) (by omega)
  · exact h.rd_endOp_page code hp ho

theorem Hub.rekeyOpEnd_sameLinks (h : Hub) (peer : Nat) : (h.rekeyOpEnd peer).SameLinks h := by
  unfold Hub.rekeyOpEnd
  split
  · split
    · exact h.endOp_sec_sameLinks 0
    · exact .refl h
  · exact .refl h

/-- An operation of the SEC page other than PAIR_REKEY does not end with a pair's rekey. -/
theorem Hub.rekeyOpEnd_of_other {h : Hub} {peer : Nat} {o : LongOp} (ho : h.opOf pSec = some o) (hcode : o.opcode ≠ 3) :
    h.rekeyOpEnd peer = h := by
  simp [Hub.rekeyOpEnd, ho, hcode]

/-! Answers (R311, R319) -/

/-- An answer changes no pair, no far-port and no operation of a page. -/
theorem Hub.answer_peers (h : Hub) (id idx code result : Nat) (data : List Sector) :
    (h.answer id idx code result data).far.pairs = h.far.pairs ∧ (h.answer id idx code result data).far.ports = h.far.ports ∧
    (h.answer id idx code result data).ops = h.ops := by
  unfold Hub.answer
  split
  · exact ⟨rfl, rfl, rfl⟩
  · next r _ =>
    extract_lets r' last h1 lat isRead ev h2 h3 h4
    have e4 : h4.far = h.far ∧ h4.ops = h.ops := by simp [h4, h3, h2, h1, ev, apply_ite Hub.far, apply_ite Hub.ops]
    have epairs : h4.far.pairs = h.far.pairs := congrArg Far.pairs e4.1
    have eports : h4.far.ports = h.far.ports := congrArg Far.ports e4.1
    clear_value h4
    cases r.src with
    | port p => simp [apply_ite Hub.far, apply_ite Hub.ops, e4]
    | dma c =>
      dsimp only
      split <;> simp [Hub.giveBackDma, apply_ite Hub.far, apply_ite Hub.ops, e4]
    | remote ctx => exact ⟨epairs, eports, e4.2⟩
    | dump =>
      dsimp only
      split
      · exact ⟨epairs, eports, e4.2⟩
      · simp [e4]
    | kitty => exact ⟨epairs, eports, e4.2⟩

/-- The pairs, far-ports and operations of g are those of h, and its registers outside the PERF and RAS pages and FAIL_CNT. -/
structure Hub.SamePeers (g h : Hub) : Prop where
  pairs : g.far.pairs = h.far.pairs
  ports : g.far.ports = h.far.ports
  ops : g.ops = h.ops
  rd : ∀ p o, p ≠ pPerf → p ≠ pRas → o < 4096 → p ≠ pFarport ∨ o ≠ 0x80 → g.rd p o = h.rd p o

theorem Hub.SamePeers.refl (h : Hub) : h.SamePeers h := ⟨rfl, rfl, rfl, fun _ _ _ _ _ _ => rfl⟩

theorem Hub.SamePeers.trans {f g h : Hub} (a : f.SamePeers g) (b : g.SamePeers h) : f.SamePeers h :=
  ⟨a.pairs.trans b.pairs, a.ports.trans b.ports, a.ops.trans b.ops,
    fun p o hperf hras ho hcnt => (a.rd p o hperf hras ho hcnt).trans (b.rd p o hperf hras ho hcnt)⟩

theorem foldl_samePeers {α : Type} {f : Hub → α → Hub} (H : ∀ h a, (f h a).SamePeers h) (l : List α) (h : Hub) :
    (l.foldl f h).SamePeers h :=
  List.foldlRecOn l f (motive := fun g => g.SamePeers h) (.refl h) fun g hg a _ => (H g a).trans hg

theorem Hub.answerAll_samePeers (h : Hub) (id code : Nat) : (h.answerAll id code).SamePeers h := by
  unfold Hub.answerAll
  split
  · exact .refl h
  · refine foldl_samePeers (fun g i => ?_) _ h
    obtain ⟨hpairs, hports, hops⟩ := g.answer_peers id i code 0 []
    exact ⟨hpairs, hports, hops, fun p o hperf hras ho _ => g.rd_answer id i code 0 [] hperf hras ho⟩

theorem Hub.setLines_samePeers (h : Hub) (v : Lines) : (h.setLines v).SamePeers h := ⟨rfl, rfl, rfl, fun _ _ _ _ _ _ => rfl⟩

theorem Hub.failReq_samePeers (h : Hub) (r : Req) (keep : Bool) : (h.failReq r keep).SamePeers h := by
  have hcnt : (h.bump pFarport 0x80 0 32 1).SamePeers h :=
    ⟨rfl, rfl, rfl, fun p o _ _ ho hne => Hub.rd_wr_ne h _ (by rcases hne with hne | hne <;> omega)⟩
  unfold Hub.failReq
  dsimp only
  split
  · exact (Hub.setLines_samePeers _ _).trans ((Hub.answerAll_samePeers _ _ _).trans hcnt)
  · exact (Hub.answerAll_samePeers _ _ _).trans hcnt

end Sys2Proof.Machine
end

section

/-! SUPPORT. A pair that leaves UP: its requests answered, their credits back, its counters and keys at a restart (R311, R315, R375). -/

namespace Sys2Proof.Machine

/-! Requests of a pair (R315, R319) -/

/-- The requests that hold a credit of a pair: sent, and their RESPONSE not arrived. -/
def Hub.holders (h : Hub) (peer : Nat) : List Req :=
  (h.lines.reqs.filter (fun r => r.peerIs peer)).filter (fun r => decide (r.phase = .sent) || decide (r.phase = .failed))

theorem Hub.length_holders (h : Hub) (peer : Nat) (wr : Bool) :
    ((h.holders peer).filter (fun r => r.hdr.wrCredit == wr)).length = h.outstanding peer wr := by
  simp only [Hub.holders, Hub.outstanding, List.filter_filter]
  refine congrArg List.length (List.filter_congr fun r _ => ?_)
  cases r.peerIs peer <;> cases r.hdr.wrCredit == wr <;> simp

/-- A pair that gets credits of both kinds back. -/
def Pair.credited (q : Pair) (rd wr : Nat) : Pair := { q with rdCrd := q.rdCrd + rd, wrCrd := q.wrCrd + wr }

theorem Hub.creditBack_eq (h : Hub) (peer : Nat) (wr : Bool) :
    h.creditBack peer wr = h.putPair peer ((h.pair peer).credited (if wr then 0 else 1) (if wr then 1 else 0)) := by
  cases wr <;> rfl

theorem Hub.pair_creditBacks (peer : Nat) (rs : List Req) (h : Hub) :
    (rs.foldl (fun h r => h.creditBack peer r.hdr.wrCredit) h).pair peer =
      (h.pair peer).credited (rs.filter (fun r => r.hdr.wrCredit == false)).length
        (rs.filter (fun r => r.hdr.wrCredit == true)).length := by
  induction rs generalizing h with
  | nil => rfl
  | cons r rs ih =>
    rw [List.foldl_cons, ih, Hub.creditBack_eq, Hub.pair_putPair_same]
    cases hwr : r.hdr.wrCredit <;> simp [Pair.credited, hwr] <;> omega

/-- Credits that come back to a pair change that pair alone. -/
theorem Hub.creditBacks_keep (peer : Nat) (rs : List Req) (h : Hub) :
    (rs.foldl (fun h r => h.creditBack peer r.hdr.wrCredit) h).far.ports = h.far.ports ∧
    (rs.foldl (fun h r => h.creditBack peer r.hdr.wrCredit) h).ops = h.ops ∧
    (rs.foldl (fun h r => h.creditBack peer r.hdr.wrCredit) h).regs = h.regs :=
  ⟨foldl_keeps (fun g : Hub => g.far.ports) _ (by intros; rfl) rs h, foldl_keeps Hub.ops _ (by intros; rfl) rs h,
    foldl_keeps Hub.regs _ (by intros; rfl) rs h⟩

/-- The hub once the credits of a pair's outstanding requests are back. -/
def Hub.creditsBack (h : Hub) (peer : Nat) : Hub := (h.holders peer).foldl (fun h r => h.creditBack peer r.hdr.wrCredit) h

/-- The answers to a pair's requests follow the return of their credits, and change no pair and no far-port. -/
theorem Hub.failPeer_samePeers (h : Hub) (peer : Nat) : (h.failPeer peer).SamePeers (h.creditsBack peer) :=
  (Hub.setLines_samePeers _ _).trans (foldl_samePeers (fun g r => g.failReq_samePeers r false) _ _)

theorem Hub.pair_failPeer (h : Hub) (peer : Nat) : (h.failPeer peer).pair peer =
    (h.pair peer).credited (h.outstanding peer false) (h.outstanding peer true) := by
  rw [Hub.pair_of_far (h.failPeer_samePeers peer).pairs, Hub.creditsBack, Hub.pair_creditBacks, Hub.length_holders, Hub.length_holders]

theorem Hub.failPeer_keeps (h : Hub) (peer : Nat) : (h.failPeer peer).ops = h.ops ∧
    (∀ i, (h.failPeer peer).farPort i = h.farPort i) ∧
    ∀ p o, p ≠ pPerf → p ≠ pRas → o < 4096 → p ≠ pFarport ∨ o ≠ 0x80 → (h.failPeer peer).rd p o = h.rd p o := by
  obtain ⟨hports, hops, hregs⟩ := Hub.creditBacks_keep peer (h.holders peer) h
  have e := h.failPeer_samePeers peer
  exact ⟨e.ops.trans hops, fun i => Hub.farPort_of_far (e.ports.trans hports) i,
    fun p o hperf hras ho hcnt => (e.rd p o hperf hras ho hcnt).trans (Hub.rd_of_regs hregs p o)⟩

/-! The entry into DOWN (R311, R375) -/

/-- A pair that leaves UP is reported. -/
def Hub.downNoted (h : Hub) (peer cause : Nat) : Hub :=
  if (h.pair peer).st = 2 then (h.raise pFarport 3).submitO 0x24 0 (le16 peer ++ [BitVec.ofNat 8 cause]) else h

/-- A pair in DOWN at its restart: counters at 0, nothing held, no session key. -/
def Pair.restarted (q : Pair) : Pair :=
  { q with
    st := 1, txNext := 0, rxNext := 0, held := [], unacked := 0
    txKey := none, rxKey := none, txPend := none, rxPend := none, lastQ := none, offer := none
    txGen := (q.offer.map Offer.gen).getD q.txGen, txFrames := 0 }

theorem Hub.pairDown_eq {h : Hub} {peer : Nat} (cause : Nat) (hst : (h.pair peer).st ≠ 0) : h.pairDown peer cause =
    (((((h.downNoted peer cause).failPeer peer).putPair peer (((h.downNoted peer cause).failPeer peer).pair peer).restarted).newOffer
      peer 0 false).rekeyOpEnd peer) := by
  unfold Hub.pairDown
  simp only [if_neg hst, Pair.restarted, Hub.downNoted]
  congr 3
  cases ((if (h.pair peer).st = 2 then (h.raise pFarport 3).submitO 0x24 0 (le16 peer ++ [BitVec.ofNat 8 cause]) else h).failPeer
    peer).pair peer |>.offer <;> rfl

theorem Hub.pairDown_of_unused {h : Hub} {peer : Nat} (cause : Nat) (hst : (h.pair peer).st = 0) : h.pairDown peer cause = h := by
  simp [Hub.pairDown, hst]

theorem Hub.downNoted_keeps (h : Hub) (peer cause : Nat) : (h.downNoted peer cause).far = h.far ∧
    (h.downNoted peer cause).lines = h.lines ∧ (h.downNoted peer cause).ops = h.ops ∧
    ∀ p o, p ≠ pFarport → p ≠ pJournal → o < 4096 → (h.downNoted peer cause).rd p o = h.rd p o := by
  unfold Hub.downNoted
  split
  · refine ⟨by simp, by simp, by simp, fun p o hp hj ho => ?_⟩
    rw [Hub.rd_submitO_page _ _ _ _ hj ho, Hub.rd_raise_page _ _ hp ho]
  · exact ⟨rfl, rfl, rfl, fun _ _ _ _ _ => rfl⟩

theorem Hub.bit_downNoted_of_bit {h : Hub} {peer i : Nat} (cause : Nat) (hi : bit (h.rd pFarport 0x10) i = true) :
    bit ((h.downNoted peer cause).rd pFarport 0x10) i = true := by
  unfold Hub.downNoted
  split
  · rw [Hub.rd_submitO_page _ _ _ _ (by decide) (by decide)]
    exact Hub.bit_raise_of_bit 3 hi
  · exact hi

theorem Hub.bit_downNoted_of_up {h : Hub} {peer : Nat} (cause : Nat) (hst : (h.pair peer).st = 2) :
    bit ((h.downNoted peer cause).rd pFarport 0x10) 3 = true := by
  rw [Hub.downNoted, if_pos hst, Hub.rd_submitO_page _ _ _ _ (by decide) (by decide)]
  exact h.bit_raise_same _ (by decide)

/-- What follows the entry into DOWN, an OFFER and the end of a PAIR_REKEY, leaves the restarted pair and what else stands. -/
theorem Hub.pairDown_sameLinks {h : Hub} {peer : Nat} (cause : Nat) (hst : (h.pair peer).st ≠ 0) : (h.pairDown peer cause).SameLinks
    (((h.downNoted peer cause).failPeer peer).putPair peer (((h.downNoted peer cause).failPeer peer).pair peer).restarted) := by
  rw [Hub.pairDown_eq cause hst]
  exact (Hub.rekeyOpEnd_sameLinks _ _).trans (Hub.newOffer_sameLinks _ _ _ _)

/-- The pair after its entry into DOWN: restarted, with the credits of its outstanding requests. -/
theorem Hub.pairDown_pair {h : Hub} {peer : Nat} (cause : Nat) (hst : (h.pair peer).st ≠ 0) :
    ((h.pairDown peer cause).pair peer).standing =
      ((h.pair peer).credited (h.outstanding peer false) (h.outstanding peer true)).restarted.standing := by
  obtain ⟨hfar, hlines, -, -⟩ := h.downNoted_keeps peer cause
  have hout (wr : Bool) : (h.downNoted peer cause).outstanding peer wr = h.outstanding peer wr := by
    rw [Hub.outstanding, hlines, Hub.outstanding]
  rw [(Hub.pairDown_sameLinks cause hst).pair, Hub.pair_putPair_same, Hub.pair_failPeer, hout, hout,
    Hub.pair_of_far (congrArg Far.pairs hfar)]

/-- A pair's entry into DOWN changes no register of the SEC page beyond its header and operation. -/
theorem Hub.rd_pairDown_sec (h : Hub) (peer cause : Nat) {o : Nat} (hfar : 0x80 ≤ o) (ho : o < 4096) :
    (h.pairDown peer cause).rd pSec o = h.rd pSec o := by
  by_cases hst : (h.pair peer).st = 0
  · rw [Hub.pairDown_of_unused cause hst]
  · obtain ⟨-, -, hrd⟩ := (h.downNoted peer cause).failPeer_keeps peer
    obtain ⟨-, -, -, hnoted⟩ := h.downNoted_keeps peer cause
    rw [(Hub.pairDown_sameLinks cause hst).rd _ _ ho (.inr hfar), Hub.rd_putPair,
      hrd _ _ (by decide) (by decide) ho (.inl (by decide)), hnoted _ _ (by decide) (by decide) ho]

/-- An operation of the SEC page other than PAIR_REKEY goes on when a pair enters DOWN. -/
theorem Hub.opOf_pairDown {h : Hub} {peer : Nat} {op : LongOp} (cause : Nat) (hop : h.opOf pSec = some op) (hcode : op.opcode ≠ 3) :
    (h.pairDown peer cause).opOf pSec = some op := by
  by_cases hst : (h.pair peer).st = 0
  · rw [Hub.pairDown_of_unused cause hst, hop]
  · obtain ⟨hfailed, -, -⟩ := (h.downNoted peer cause).failPeer_keeps peer
    obtain ⟨-, -, hnoted, -⟩ := h.downNoted_keeps peer cause
    have hops := hfailed.trans hnoted
    rw [Hub.pairDown_eq cause hst]
    generalize hg : ((h.downNoted peer cause).failPeer peer).putPair peer
      (((h.downNoted peer cause).failPeer peer).pair peer).restarted = g
    have hgops : g.ops = h.ops := by rw [← hg, ← hops]; rfl
    have hgop : (g.newOffer peer 0 false).opOf pSec = some op := by
      rw [Hub.opOf_of_ops ((Hub.newOffer_ops _ _ _ _).trans hgops), hop]
    rw [Hub.rekeyOpEnd_of_other hgop hcode, hgop]

/-! Far-ports while pairs enter DOWN (R311) -/

/-- The far-ports of g are those of h but for the frames they have been handed, and every interrupt cause of their page still stands. -/
structure Hub.KeepsPorts (g h : Hub) : Prop where
  port : ∀ i, (g.farPort i).line = (h.farPort i).line
  cause : ∀ n, bit (h.rd pFarport 0x10) n = true → bit (g.rd pFarport 0x10) n = true

theorem Hub.KeepsPorts.refl (h : Hub) : h.KeepsPorts h := ⟨fun _ => rfl, fun _ => id⟩

theorem Hub.KeepsPorts.trans {f g h : Hub} (a : f.KeepsPorts g) (b : g.KeepsPorts h) : f.KeepsPorts h :=
  ⟨fun i => (a.port i).trans (b.port i), fun n hn => a.cause n (b.cause n hn)⟩

theorem Hub.pairDown_keepsPorts (h : Hub) (peer cause : Nat) : (h.pairDown peer cause).KeepsPorts h := by
  by_cases hst : (h.pair peer).st = 0
  · rw [Hub.pairDown_of_unused cause hst]
    exact .refl h
  · obtain ⟨-, hport, hrd⟩ := (h.downNoted peer cause).failPeer_keeps peer
    have e := Hub.pairDown_sameLinks cause hst
    refine ⟨fun i => ?_, fun n hn => ?_⟩
    · rw [e.port, Hub.farPort_putPair, hport, Hub.farPort_of_far (congrArg Far.ports (h.downNoted_keeps peer cause).1)]
    · rw [e.rd _ _ (by decide) (.inl (by decide)), Hub.rd_putPair,
        hrd _ _ (by decide) (by decide) (by decide) (.inr (by decide))]
      exact Hub.bit_downNoted_of_bit cause hn

theorem Hub.checkPairs_keepsPorts (h : Hub) : h.checkPairs.KeepsPorts h := by
  unfold Hub.checkPairs
  split
  · exact .refl h
  · exact List.foldlRecOn _ _ (motive := fun g : Hub => g.KeepsPorts h) (.refl h) fun g hg p _ => (g.pairDown_keepsPorts p 3).trans hg

end Sys2Proof.Machine
end

section

/-! SUPPORT. Far-ports that lose their link, train, or receive what belongs nowhere: O45. -/

namespace Sys2Proof.Machine

/-! Links (R305, R321) -/

@[simp] theorem Hub.farPort_putFarPort_same (h : Hub) (i : Nat) (v : FarPort) : (h.putFarPort i v).farPort i = v := by
  simp [Hub.farPort_putFarPort]

theorem Hub.farPort_raise (h : Hub) (p n i : Nat) : (h.raise p n).farPort i = h.farPort i := Hub.farPort_of_far (by simp) i

theorem Hub.farPort_submitO (h : Hub) (typ : Nat) (flags : Byte) (payload : List Byte) (i : Nat) :
    (h.submitO typ flags payload).farPort i = h.farPort i := Hub.farPort_of_far (by simp) i

/-- A PORT_RETRAIN of a far-port that waits for its training ends with it (R324). -/
def Hub.retrainEnds (h : Hub) (i : Nat) : Hub :=
  match h.opOf pFarport with
  | some o => if o.opcode = 2 ∧ o.waits ∧ o.index = i then h.endOp pFarport 0 else h
  | none => h

theorem Hub.retrainEnds_keepsPorts (h : Hub) (i : Nat) : (h.retrainEnds i).KeepsPorts h := by
  unfold Hub.retrainEnds
  split
  · split
    · exact ⟨fun j => congrArg FarPort.line (Hub.farPort_of_far (by simp) j), fun n => Hub.bit_endOp_of_bit 0⟩
    · exact .refl h
  · exact .refl h

@[simp] theorem Hub.retrainEnds_mem (h : Hub) (i : Nat) : (h.retrainEnds i).mem = h.mem := by
  unfold Hub.retrainEnds
  split
  · split <;> simp
  · rfl

/-- The far-port whose engine lost the link. -/
def FarPort.lost (f : FarPort) : FarPort := { f with st := 0, linkUp := false, inFrame := false }

def Hub.linkLost (h : Hub) (i : Nat) : Hub :=
  ((h.putFarPort i (h.farPort i).lost).raise pFarport 2).checkPairs.retrainEnds i

theorem exec_oeLinkUpFall {s : State} {p : BitVec 2} (hr : s.hub.inReset = false) (hlink : (s.hub.farPort p.toNat).linkUp = true) :
    exec (.oeLinkUpFall p) s = .next { s with hub := s.hub.linkLost p.toNat } := by
  show execOeLinkUpFall p s = _
  simp only [execOeLinkUpFall, onHub, hr, hlink, Bool.not_true, Bool.false_eq_true, or_self, if_false]
  rfl

/-- A lost link leaves the far-port DOWN and its interrupt cause set. -/
theorem Hub.linkLost_shows (h : Hub) (i : Nat) : ((h.linkLost i).farPort i).line = (h.farPort i).lost.line ∧
    bit ((h.linkLost i).rd pFarport 0x10) 2 = true := by
  have e : (h.linkLost i).KeepsPorts ((h.putFarPort i (h.farPort i).lost).raise pFarport 2) :=
    (Hub.retrainEnds_keepsPorts _ _).trans (Hub.checkPairs_keepsPorts _)
  exact ⟨by rw [e.port, Hub.farPort_raise, Hub.farPort_putFarPort_same], e.cause 2 (Hub.bit_raise_same _ _ (by decide))⟩

/-! Training (R321, R322) -/

/-- The lanes a far-port uses: the widest set among those that passed. -/
def usedLanes (lanes : BitVec 8) : BitVec 8 :=
  BitVec.ofNat 8 (((passing lanes).take (farWidth (passing lanes).length).1).map (fun l => 2 ^ l)).sum

/-- A far-port that came UP on the lanes that passed. -/
def FarPort.trained (f : FarPort) (lanes : BitVec 8) : FarPort :=
  { f with st := 2, width := BitVec.ofNat 2 (farWidth (passing lanes).length).2, lanesOk := lanes, lanesUsed := usedLanes lanes }

theorem exec_farportTrainingEnd {s : State} {p : BitVec 2} {lanes : BitVec 8} (hst : (s.hub.farPort p.toNat).st = 1) :
    exec (.farportTrainingEnd p lanes) s = .next { s with hub := (s.hub.farTrained p.toNat lanes).retrainEnds p.toNat } := by
  show execFarportTrainingEnd p lanes s = _
  simp only [execFarportTrainingEnd, onHub, hst, ne_eq, not_true_eq_false, if_false]
  rfl

/-- A far-port that no lane passed stays DOWN. -/
def FarPort.failed (f : FarPort) : FarPort := { f with st := 0, width := 0, lanesOk := 0, lanesUsed := 0 }

theorem Hub.farTrained_of_none {lanes : BitVec 8} (h : Hub) (i : Nat) (hnone : passing lanes = []) :
    h.farTrained i lanes = (h.putFarPort i (h.farPort i).failed).checkPairs := by
  simp [Hub.farTrained, hnone, FarPort.failed]

theorem farWidth_lt {n : Nat} (hn : n < 8) : (farWidth n).1 < 8 := by
  unfold farWidth
  split_ifs <;> simp only [] <;> omega

theorem farWidth_of_all {n : Nat} (hn : 8 ≤ n) : (farWidth n).1 = 8 := by simp [farWidth, hn]

theorem Hub.farTrained_of_some {lanes : BitVec 8} (h : Hub) (i : Nat) (hsome : passing lanes ≠ []) : h.farTrained i lanes =
    if (passing lanes).length < 8 then
      ((h.putFarPort i ((h.farPort i).trained lanes)).raise pFarport 1).submitO 0x25 0
        [BitVec.ofNat 8 i, BitVec.ofNat 8 (farWidth (passing lanes).length).1]
    else h.putFarPort i ((h.farPort i).trained lanes) := by
  have hwidth : (farWidth (passing lanes).length).1 < 8 ↔ (passing lanes).length < 8 :=
    ⟨fun hw => by by_contra hn; rw [farWidth_of_all (Nat.not_lt.mp hn)] at hw; omega, farWidth_lt⟩
  simp only [Hub.farTrained, if_neg hsome, hwidth]
  rfl

/-- What a training that some lanes passed leaves of the far-port, and the interrupt cause of a reduced width. -/
theorem Hub.farTrained_shows {lanes : BitVec 8} (h : Hub) (i : Nat) (hsome : passing lanes ≠ []) :
    (h.farTrained i lanes).farPort i = (h.farPort i).trained lanes ∧
    ((passing lanes).length < 8 → bit ((h.farTrained i lanes).rd pFarport 0x10) 1 = true) := by
  rw [Hub.farTrained_of_some h i hsome]
  split
  · refine ⟨by rw [Hub.farPort_submitO, Hub.farPort_raise, Hub.farPort_putFarPort_same], fun _ => ?_⟩
    rw [Hub.rd_submitO_page _ _ _ _ (by decide) (by decide)]
    exact Hub.bit_raise_same _ _ (by decide)
  · next hall => exact ⟨h.farPort_putFarPort_same i _, fun hlt => absurd hlt hall⟩

/-! Flits and frames that belong nowhere (R305, R308) -/

theorem Hub.toNat_rd_badFrame (h : Hub) :
    ((h.badFrames 1).rd pFarport 0x90).toNat = min (2 ^ 32 - 1) ((h.rd pFarport 0x90).toNat + 1) := h.toNat_rd_bump pFarport 0x90

/-- Whether the far-port's receiver is within a frame. -/
def Hub.setFrame (h : Hub) (i : Nat) (b : Bool) : Hub := h.putFarPort i { h.farPort i with inFrame := b }

theorem exec_strayFlit {s : State} {p : BitVec 2} {sof eof : Bool} (hr : s.hub.inReset = false)
    (hst : (s.hub.farPort p.toNat).st = 2) : exec (.strayFlit p sof eof) s = .next { s with hub :=
      if sof = (s.hub.farPort p.toNat).inFrame then (s.hub.setFrame p.toNat false).badFrames 1 else s.hub.setFrame p.toNat (!eof) } := by
  show execStrayFlit p sof eof s = _
  have hopen : ¬(s.hub.inReset = true ∨ (s.hub.farPort p.toNat).st ≠ 2) := by simp [hr, hst]
  simp only [execStrayFlit, onHub, if_neg hopen, beq_iff_eq]
  rfl

/-- Settles O45: a lost link, a training, a stray flit, a frame of no type. -/
theorem farPortLinks : Obligations.FarPortLinks := by
  unfold Obligations.FarPortLinks
  refine ⟨fun s p hr hlink => ?_, fun s p lanes hst => ?_, fun s p sof eof hr hst => ?_, fun s p f htype hr hst hframe => ?_⟩
  · obtain ⟨hport, hcause⟩ := s.hub.linkLost_shows p.toNat
    obtain ⟨hst, -, hup, -⟩ := FarPort.fields_of_line hport
    exact ⟨_, exec_oeLinkUpFall hr hlink, hst, hup, hcause, by simp [Hub.linkLost]⟩
  · have e := (s.hub.farTrained p.toNat lanes).retrainEnds_keepsPorts p.toNat
    refine ⟨_, exec_farportTrainingEnd hst, fun hnone => ?_, fun hsome => ?_, by simp⟩
    · rw [Hub.farTrained_of_none _ _ hnone] at e ⊢
      have hport := (e.trans (Hub.checkPairs_keepsPorts _)).port p.toNat
      rw [Hub.farPort_putFarPort_same] at hport
      exact (FarPort.fields_of_line hport).1
    · obtain ⟨htrained, hreduced⟩ := s.hub.farTrained_shows p.toNat hsome
      have hport := e.port p.toNat
      rw [htrained] at hport
      obtain ⟨hup, hwidth, -, hlanes⟩ := FarPort.fields_of_line hport
      exact ⟨hup, hlanes, hwidth, fun hlt => e.cause 1 (hreduced hlt)⟩
  · refine ⟨_, exec_strayFlit hr hst, fun hsame => ?_, fun hother => ?_, ?_⟩
    · dsimp only
      rw [if_pos hsame]
      exact ⟨congrArg FarPort.inFrame (s.hub.farPort_putFarPort_same p.toNat _), Hub.toNat_rd_badFrame _⟩
    · dsimp only
      rw [if_neg hother]
      exact ⟨congrArg FarPort.inFrame (s.hub.farPort_putFarPort_same p.toNat _), rfl⟩
    · dsimp only
      split <;> exact ⟨rfl, rfl⟩
  · have hbad : execOtherTypeFrame p f s = .next { s with hub := s.hub.badFrames 1 } :=
      onHubIf_next.mpr ⟨by rw [htype]; rfl, by simp [hr, hst, hframe]⟩
    exact ⟨_, hbad, s.hub.toNat_rd_badFrame, rfl, rfl, rfl⟩

end Sys2Proof.Machine
end

section

/-! SUPPORT. Control frames and timers of a pair: O43. -/

namespace Sys2Proof.Machine

/-! The receiver (R305, R308, R309) -/

theorem Hub.rxFrame_of_hears {h : Hub} {port : Nat} {f : Frame} (hh : h.hears port f) : h.rxFrame port f = (true, h) := by
  obtain ⟨hreset, hst, hframe, hdst⟩ := hh
  simp [Hub.rxFrame, hreset, hst, hframe, hdst]

theorem Hub.rxControl_of_hears {h : Hub} {port : Nat} {f : Frame} (hh : h.hearsControl port f) : h.rxControl port f = (true, h) := by
  obtain ⟨hhears, hcrc, hst⟩ := hh
  simp only [Hub.rxControl, Hub.rxFrame_of_hears hhears, hcrc, Bool.not_true, Bool.false_eq_true, if_false, if_neg hst]

theorem Hub.pair_heard_same (h : Hub) (peer : Nat) : (h.heard peer).pair peer = { h.pair peer with lastRx := h.now } :=
  h.pair_putPair_same peer _

/-! Heartbeats (R311, R375) -/

/-- A valid HEARTBEAT of a pair: one in DOWN enters UP. -/
def Hub.heartbeat (h : Hub) (peer : Nat) : Hub :=
  if (h.pair peer).st = 1 then (h.heard peer).pairUp peer else h.heard peer

theorem exec_rxHeartbeat {s : State} {p : BitVec 2} {f : Frame} (hwf : wfFrame 8 f = true) (hh : s.hub.hearsControl p.toNat f)
    (hok : (s.hub.pair f.srcHub.toNat).heartbeatOk f = true) :
    exec (.rxHeartbeat p f) s = .next { s with hub := s.hub.heartbeat f.srcHub.toNat } := by
  refine onHubIf_next.mpr ⟨hwf, ?_⟩
  simp only [Hub.rxControl_of_hears hh, hok, Hub.pair_heard_same, Bool.not_true, Bool.false_eq_true, or_self, if_false,
    Hub.heartbeat]

theorem Hub.pair_pairUp_heard (h : Hub) (peer : Nat) : ((h.heard peer).pairUp peer).pair peer = { h.pair peer with
    lastRx := h.now, st := 2, rdCrd := (Config.peerGrant peer).1.toNat, wrCrd := (Config.peerGrant peer).2.toNat, ackAt := h.now } := by
  rw [Hub.pairUp, Hub.pair_putPair_same, Hub.pair_heard_same]
  rfl

/-! Acknowledgements (R312) -/

/-- The frames a pair still holds after an ACK of counter c. -/
def Pair.heldAfter (q : Pair) (c : BitVec 64) : List Frame := q.held.filter (fun g => decide (c.toNat < g.counter.toNat))

/-- The hub once it took an ACK of counter c, a frame it has sent: what that freed, and the time where it freed any. -/
def Hub.ackTaken (h : Hub) (peer : Nat) (c : BitVec 64) : Hub :=
  if ((h.pair peer).heldAfter c).length = (h.pair peer).held.length then h.heard peer
  else (h.heard peer).putPair peer { h.pair peer with lastRx := h.now, held := (h.pair peer).heldAfter c, ackAt := h.now }

theorem Hub.ackTaken_shows (h : Hub) (peer : Nat) (c : BitVec 64) :
    ((h.ackTaken peer c).pair peer).held = (h.pair peer).heldAfter c ∧ ((h.ackTaken peer c).pair peer).lastRx = h.now ∧
    (h.ackTaken peer c).lines = h.lines ∧ (h.ackTaken peer c).regs = h.regs ∧ (h.ackTaken peer c).mem = h.mem := by
  unfold Hub.ackTaken
  split
  · next hall =>
    rw [Hub.pair_heard_same]
    exact ⟨(List.filter_sublist.eq_of_length hall).symm, rfl, rfl, rfl, rfl⟩
  · rw [Hub.pair_putPair_same]
    exact ⟨rfl, rfl, rfl, rfl, rfl⟩

theorem exec_rxAck {s : State} {p : BitVec 2} {f : Frame} (hwf : wfFrame 9 f = true) (hh : s.hub.hearsControl p.toNat f)
    (hc : f.counter.toNat < (s.hub.pair f.srcHub.toNat).txNext.toNat) :
    exec (.rxAck p f) s = .next { s with hub := s.hub.ackTaken f.srcHub.toNat f.counter } := by
  refine onHubIf_next.mpr ⟨hwf, ?_⟩
  simp only [Hub.rxControl_of_hears hh, Bool.not_true, Bool.false_eq_true, if_false, Hub.pair_heard_same, Nat.not_le.mpr hc, false_or]
  rfl

/-! An ACK that is due (R312) -/

/-- A control frame to a pair whose far-port is UP is the next one handed to it, unless the hub has tripped (R310, R433). -/
theorem Hub.sent_emit {h : Hub} {peer i : Nat} (f : Frame) (hport : h.pairPort peer = some i) (htrip : h.therm.trip < 4) :
    ((h.emit peer f).farPort i).sent = (h.farPort i).sent ++ [f] := by
  simp only [Hub.emit, hport, if_neg (Nat.not_le.mpr htrip), Hub.farPort_putFarPort_same, Hub.farPort_putPair]

theorem Hub.pair_emit (h : Hub) (peer p : Nat) (f : Frame) : ∃ t, (h.emit peer f).pair p = { h.pair p with lastTx := t } := by
  unfold Hub.emit
  split
  · split
    · exact ⟨_, rfl⟩
    · dsimp only
      rw [Hub.pair_putFarPort, Hub.pair_putPair]
      split
      · next hp => exact ⟨h.now, by rw [hp]⟩
      · exact ⟨_, rfl⟩
  · exact ⟨_, rfl⟩

/-- An ACK changes of its pair the frames to acknowledge and the time of the last frame sent, and of the hub no register and no queue. -/
theorem Hub.sendAck_shows (h : Hub) (peer : Nat) :
    (∃ t, (h.sendAck peer).pair peer = { h.pair peer with unacked := 0, lastTx := t }) ∧ (h.sendAck peer).now = h.now ∧
    (h.sendAck peer).lines = h.lines ∧ (h.sendAck peer).regs = h.regs ∧
    ∀ i, h.pairPort peer = some i → h.therm.trip < 4 → ((h.sendAck peer).farPort i).sent =
      (h.farPort i).sent ++ [crcFrame (Frame.plain 9 h.hubId peer ((h.pair peer).rxNext - 1) [])] := by
  obtain ⟨t, ht⟩ := (h.putPair peer { h.pair peer with unacked := 0 }).pair_emit peer peer
    (crcFrame (Frame.plain 9 h.hubId peer ((h.pair peer).rxNext - 1) []))
  rw [Hub.pair_putPair_same] at ht
  refine ⟨⟨t, ht⟩, by simp [Hub.sendAck, Hub.sendControl], by simp [Hub.sendAck, Hub.sendControl],
    by simp [Hub.sendAck, Hub.sendControl], fun i hport htrip => ?_⟩
  exact Hub.sent_emit (h := h.putPair peer { h.pair peer with unacked := 0 }) _ hport htrip

/-! Timers (R311, R312) -/

theorem exec_ackDue {s : State} {p : BitVec 10} (hr : s.hub.inReset = false) (hunacked : (s.hub.pair p.toNat).unacked ≠ 0) :
    exec (.ackDue p) s = .next { s with hub := (s.hub.reach ((s.hub.pair p.toNat).unackedAt + 100)).sendAck p.toNat } := by
  show execAckDue p s = _
  simp [execAckDue, onHub, hr, hunacked]

theorem exec_heartbeatTimeout {s : State} {p : BitVec 10} (hr : s.hub.inReset = false) (hst : (s.hub.pair p.toNat).st = 2) :
    exec (.heartbeatTimeout p) s = .next { s with hub :=
      (s.hub.reach ((s.hub.pair p.toNat).lastRx + 100 * s.hub.fld pFarport 0x74 8 8)).pairDown p.toNat 1 } := by
  show execHeartbeatTimeout p s = _
  simp [execHeartbeatTimeout, onHub, hr, hst]

/-- A pair that leaves UP raises its interrupt cause, which the entry into DOWN keeps. -/
theorem Hub.bit_pairDown_of_up {h : Hub} {peer : Nat} (cause : Nat) (hst : (h.pair peer).st = 2) :
    bit ((h.pairDown peer cause).rd pFarport 0x10) 3 = true := by
  have hne : (h.pair peer).st ≠ 0 := by rw [hst]; decide
  obtain ⟨-, -, hrd⟩ := (h.downNoted peer cause).failPeer_keeps peer
  rw [(Hub.pairDown_sameLinks cause hne).rd _ _ (by decide) (.inl (by decide)), Hub.rd_putPair,
    hrd _ _ (by decide) (by decide) (by decide) (.inr (by decide)), Hub.bit_downNoted_of_up cause hst]

/-- Settles O43: what each control frame and each timer of a pair leaves. -/
theorem controlFramesAct : Obligations.ControlFramesAct := by
  unfold Obligations.ControlFramesAct
  refine ⟨fun s p f hwf hh hok => ?_, fun s p f hwf hh hc => ?_, fun s p f hwf hh => ?_, fun s p hr hheld => ?_,
    fun s p hr hunacked => ?_, fun s p hr hst => ?_, fun s p hr hst => ?_⟩
  · refine ⟨_, exec_rxHeartbeat hwf hh hok, ?_⟩
    dsimp only [Hub.heartbeat]
    split
    · next hdown =>
      have hup : (s.hub.pair f.srcHub.toNat).st ≠ 2 := by rw [hdown]; decide
      rw [Hub.pair_pairUp_heard]
      exact ⟨rfl, fun _ => ⟨rfl, rfl, rfl⟩, fun hst => absurd hst hup, rfl, rfl, rfl⟩
    · next hdown =>
      rw [Hub.pair_heard_same]
      exact ⟨rfl, fun hst => absurd hst hdown, id, rfl, rfl, rfl⟩
  · exact ⟨_, exec_rxAck hwf hh hc, s.hub.ackTaken_shows f.srcHub.toNat f.counter⟩
  · refine becomes_onHubIf (f := _) hwf ?_
    simp only [Hub.rxControl_of_hears hh, Hub.pair_heard_same, Bool.not_true, Bool.false_eq_true, if_false]
  · refine ⟨_, rfl, ?_⟩
    show Becomes (execRetryTimeout p s) s _
    refine becomes_onHub ?_
    simp [hr, hheld]
  · obtain ⟨⟨t, hpair⟩, hnow, hlines, hregs, hsent⟩ :=
      (s.hub.reach ((s.hub.pair p.toNat).unackedAt + 100)).sendAck_shows p.toNat
    exact ⟨_, exec_ackDue hr hunacked, congrArg Pair.unacked hpair, hnow, hsent, hlines, hregs, by simp⟩
  · show Becomes (execHeartbeatDue p s) s _
    refine becomes_onHub ?_
    simp only [hr, Bool.false_eq_true, false_or, if_neg hst]
  · have hup : ((s.hub.reach ((s.hub.pair p.toNat).lastRx + 100 * s.hub.fld pFarport 0x74 8 8)).pair p.toNat).st = 2 := hst
    have hne : ((s.hub.reach ((s.hub.pair p.toNat).lastRx + 100 * s.hub.fld pFarport 0x74 8 8)).pair p.toNat).st ≠ 0 := by
      rw [hup]; decide
    obtain ⟨hdown, ⟨hrd, hwr⟩, ⟨htx, hrx, hheld⟩, -, htxKey, hrxKey⟩ := Pair.fields_of_standing (Hub.pairDown_pair 1 hne)
    exact ⟨_, exec_heartbeatTimeout hr hst, hdown, hrd, hwr, htx, hrx, hheld, htxKey, hrxKey, Hub.bit_pairDown_of_up 1 hup, by simp⟩

end Sys2Proof.Machine
end

section

/-! SUPPORT. Data frames a pair sends: a request, the RESPONSE to one, and their time limits: O41. -/

namespace Sys2Proof.Machine

/-! What the turn of a transmit key and a rekey leave (R376) -/

/-- What a pair's credits and counter of sent frames are, and the frames it holds. -/
def Pair.sending (q : Pair) : Nat × Nat × BitVec 64 × List Frame := (q.rdCrd, q.wrCrd, q.txNext, q.held)

theorem Pair.sending_of_standing {q r : Pair} (e : q.standing = r.standing) : q.sending = r.sending := by
  obtain ⟨-, ⟨hrd, hwr⟩, ⟨htx, -, hheld⟩, -⟩ := Pair.fields_of_standing e
  rw [Pair.sending, hrd, hwr, htx, hheld, Pair.sending]

/-- The credits, counters and held frames of the pairs of g, and its registers outside the SEC page, are those of h. -/
structure Hub.SameSending (g h : Hub) : Prop where
  pair : ∀ p, (g.pair p).sending = (h.pair p).sending
  rd : ∀ p o, o < 4096 → p ≠ pSec → g.rd p o = h.rd p o

theorem Hub.SameSending.refl (h : Hub) : h.SameSending h := ⟨fun _ => rfl, fun _ _ _ _ => rfl⟩

theorem Hub.SameSending.trans {f g h : Hub} (a : f.SameSending g) (b : g.SameSending h) : f.SameSending h :=
  ⟨fun p => (a.pair p).trans (b.pair p), fun p o ho hp => (a.rd p o ho hp).trans (b.rd p o ho hp)⟩

theorem Hub.SameLinks.sameSending {g h : Hub} (e : g.SameLinks h) : g.SameSending h :=
  ⟨fun p => Pair.sending_of_standing (e.pair p), fun p o ho hp => e.rd p o ho (.inl hp)⟩

theorem Hub.putPair_sameSending {h : Hub} {peer : Nat} {q : Pair} (hq : q.sending = (h.pair peer).sending) :
    (h.putPair peer q).SameSending h := by
  refine ⟨fun p => ?_, fun _ _ _ _ => rfl⟩
  rw [Hub.pair_putPair]
  split
  · next hp => rw [hp, hq]
  · rfl

theorem Hub.submit_sameSending (h : Hub) (typ : Nat) (critical : Bool) (payload : List Byte) :
    (h.submit typ critical payload).SameSending h := ⟨fun _ => rfl, fun _ _ _ _ => rfl⟩

theorem Hub.turnTx_sameSending (h : Hub) (peer : Nat) : (h.turnTx peer).SameSending h := by
  unfold Hub.turnTx
  dsimp only
  split
  · next k start _ =>
    split
    · exact .refl h
    · generalize hq : ({ h.pair peer with txKey := some k, txPend := none, txFrames := 0 } : Pair) = q
      have hput : (h.putPair peer q).SameSending h := Hub.putPair_sameSending (by rw [← hq]; rfl)
      have hcounted : ((h.putPair peer q).bump pSec 0x68 0 32 1).SameSending (h.putPair peer q) :=
        ⟨fun _ => rfl, fun p o ho hp => Hub.rd_bump_page _ _ _ _ hp ho (by decide)⟩
      exact (Hub.rekeyOpEnd_sameLinks _ _).sameSending.trans ((Hub.submit_sameSending _ _ _ _).trans (hcounted.trans hput))
  · exact .refl h

/-! A data frame (R312) -/

/-- The frame as it leaves for its pair: the next counter, sealed under the transmit key. -/
def Pair.seals (q : Pair) (k : BitVec 256) (f : Frame) : Frame := sealFrame k { f with counter := q.txNext }

/-- The pair that holds a data frame it has sent. -/
def Pair.sent (q : Pair) (k : BitVec 256) (f : Frame) (now : Nat) : Pair :=
  { q with
    txNext := q.txNext + 1, txFrames := q.txFrames + 1, held := q.held ++ [q.seals k f]
    ackAt := if q.held = [] then now else q.ackAt }

/-- The hub once a data frame has left for its pair and the transmit key has turned where it was due. -/
def Hub.dataSent (h : Hub) (peer : Nat) (k : BitVec 256) (f : Frame) : Hub :=
  ((h.putPair peer ((h.pair peer).sent k f h.now)).emit peer ((h.pair peer).seals k f)).turnTx peer

theorem Hub.sendData_eq {h : Hub} {peer : Nat} {k : BitVec 256} (f : Frame) (hk : (h.pair peer).txKey = some k) : h.sendData peer f =
    if (h.dataSent peer k f).rekeyDue peer then (h.dataSent peer k f).startRekey peer else h.dataSent peer k f := by
  unfold Hub.sendData
  extract_lets q
  split
  · next hnone => exact absurd (hk.symm.trans hnone) (by simp)
  · next k' hk' =>
    obtain rfl : k = k' := Option.some.inj (hk.symm.trans hk')
    rfl

/-- A data frame takes the pair's next counter and is held for retry; no credit and no register outside the SEC page changes. -/
theorem Hub.sendData_sameSending {h : Hub} {peer : Nat} {k : BitVec 256} (f : Frame) (hk : (h.pair peer).txKey = some k) :
    (h.sendData peer f).SameSending (h.putPair peer ((h.pair peer).sent k f h.now)) := by
  have hsent : (h.dataSent peer k f).SameSending (h.putPair peer ((h.pair peer).sent k f h.now)) :=
    (Hub.turnTx_sameSending _ _).trans (Hub.emit_sameLinks _ _ _).sameSending
  rw [Hub.sendData_eq f hk]
  split
  · exact (Hub.newOffer_sameLinks _ _ _ _).sameSending.trans hsent
  · exact hsent

theorem Hub.txKey_of_mayTx {h : Hub} {peer : Nat} (hmay : h.mayTx peer = true) : ∃ k, (h.pair peer).txKey = some k := by
  simp only [Hub.mayTx, Bool.and_eq_true] at hmay
  obtain ⟨⟨⟨⟨-, hkey⟩, -⟩, -⟩, -⟩ := hmay
  exact Option.isSome_iff_exists.mp hkey

/-! Requests to peers (R315, R319) -/

/-- A pair that spends the credit of a request. -/
def Pair.spent (q : Pair) (wr : Bool) : Pair :=
  { q with rdCrd := if wr then q.rdCrd else q.rdCrd - 1, wrCrd := if wr then q.wrCrd - 1 else q.wrCrd }

/-- The request as sent: its credit spent, its context taken, its event counted. -/
def Hub.requestSent (h : Hub) (peer : Nat) (r : Req) : Hub :=
  ((h.putPair peer ((h.pair peer).spent r.hdr.wrCredit)).putReq { r with phase := .sent, ctx := h.freeCtx }).countLine 0x12 1 r.src
    r.hdr 0 0

theorem Hub.requestSent_keeps (h : Hub) (peer : Nat) (r : Req) :
    (h.requestSent peer r).pair peer = (h.pair peer).spent r.hdr.wrCredit ∧
    ∀ o, o < 4096 → (h.requestSent peer r).rd pFarport o = h.rd pFarport o := by
  refine ⟨?_, fun o ho => Hub.rd_countLine _ _ _ _ _ _ _ (by decide) ho⟩
  rw [← h.pair_putPair_same peer ((h.pair peer).spent r.hdr.wrCredit)]
  exact Hub.pair_of_far (by simp [Hub.requestSent]) peer

theorem Hub.remoteSend_of_ready {h : Hub} {id : Nat} {r : Req} {peer : BitVec 10} {e : BitVec 8} {off : Nat}
    (hfind : h.findReq id = some r) (htarget : r.target = .peer peer e off) (hphase : r.phase = .endpoint)
    (hst : (h.pair peer.toNat).st = 2)
    (hcredit : (if r.hdr.wrCredit then (h.pair peer.toNat).wrCrd else (h.pair peer.toNat).rdCrd) ≠ 0)
    (hmay : h.mayTx peer.toNat = true) (hblocked : h.sendBlocked peer.toNat r = false) : h.remoteSend id =
      (h.requestSent peer.toNat r).sendData peer.toNat
        (r.toFrame h.hubId peer.toNat e.toNat off h.freeCtx) := by
  have hgoes : ¬((if r.hdr.wrCredit then (h.pair peer.toNat).wrCrd else (h.pair peer.toNat).rdCrd) = 0 ∨
      (!h.mayTx peer.toNat) = true ∨ h.sendBlocked peer.toNat r = true) := by simp [hcredit, hmay, hblocked]
  unfold Hub.remoteSend
  rw [hfind]
  dsimp only
  split
  · next ht =>
    obtain ⟨rfl, rfl, rfl⟩ := Target.peer.inj (htarget.symm.trans ht)
    rw [if_neg (by simp [hphase]), if_neg (by simp [hst]), if_neg hgoes]
    rfl
  · next hnone => exact absurd htarget (hnone _ _ _)

/-- What a request leaves that was sent: its credit and the next counter taken, its frame held. -/
theorem Hub.sendData_requestSent {h : Hub} {peer : Nat} {r : Req} {k : BitVec 256} (f : Frame) (hk : (h.pair peer).txKey = some k) :
    (((h.requestSent peer r).sendData peer f).pair peer).sending = (((h.pair peer).spent r.hdr.wrCredit).sent k f h.now).sending ∧
    ∀ o, o < 4096 → ((h.requestSent peer r).sendData peer f).rd pFarport o = h.rd pFarport o := by
  obtain ⟨hpair, hrd⟩ := h.requestSent_keeps peer r
  have e : ((h.requestSent peer r).sendData peer f).SameSending _ := Hub.sendData_sameSending (k := k) f (by rw [hpair]; exact hk)
  refine ⟨?_, fun o ho => (e.rd _ _ ho (by decide)).trans (hrd o ho)⟩
  rw [e.pair, Hub.pair_putPair_same, hpair]
  rfl

/-! Time limits (R316, R319) -/

theorem Hub.remoteDeadline_of_found {h : Hub} {id ctx : Nat} {o : LineOp}
    (hfind : (h.lines.ready ++ h.lines.ordered.filter (fun o => o.kind == .read)).find? (fun o => o.id == id) = some o)
    (hsrc : o.src = .remote ctx) : h.remoteDeadline id =
      ((((h.reach (o.accepted + 500)).withdrawOp o).bump pHub 0x140 0 16 1).answer o.req o.idx 4 0 []).settleOn := by
  simp only [Hub.remoteDeadline, hfind, hsrc]

theorem Hub.responseSend_of_answered {h : Hub} {ctx : Nat} {a : Arrival} (hfind : h.far.arrivals.find? (fun a => a.ctx == ctx) = some a)
    (hall : a.lines ≤ a.codes.length) (hst : (h.pair a.frame.srcHub.toNat).st = 2) (hmay : h.mayTx a.frame.srcHub.toNat = true) :
    h.responseSend ctx = (h.dropArrival ctx).sendData a.frame.srcHub.toNat (a.response h.hubId) := by
  simp [Hub.responseSend, hfind, Nat.not_lt.mpr hall, hst, hmay]

/-- Settles O41: a request and a RESPONSE that are sent, and the two time limits. -/
theorem framesAreSent : Obligations.FramesAreSent := by
  unfold Obligations.FramesAreSent
  refine ⟨fun s id r peer e off hfind htarget hphase hst hcredit hmay hblocked hroom => ?_,
    fun s id r peer e off hfind htarget hphase => ?_, fun s ctx a hfind hall hst hmay hroom => ?_, fun s id o ctx hfind hsrc => ?_⟩
  · obtain ⟨k, hk⟩ := Hub.txKey_of_mayTx hmay
    have hsend := Hub.remoteSend_of_ready hfind htarget hphase hst hcredit hmay hblocked
    obtain ⟨hpair, hrd⟩ := s.hub.sendData_requestSent (r := r)
      (r.toFrame s.hub.hubId peer.toNat e.toNat off s.hub.freeCtx) hk
    rw [← hsend, Pair.sending, Pair.sending, Prod.mk.injEq, Prod.mk.injEq, Prod.mk.injEq] at hpair
    obtain ⟨hrdCrd, hwrCrd, htx, hheld⟩ := hpair
    show Ends (execRemoteSend id s) _
    refine ends_onHub ?_
    dsimp only
    rw [Hub.withRoom_free _ hroom, hrdCrd, hwrCrd, htx, hheld]
    refine ⟨?_, ?_, rfl, ⟨_, rfl, rfl, rfl, rfl⟩, fun o ho => ?_, by simp⟩
    · cases hwr : r.hdr.wrCredit <;> simp [Pair.sent, Pair.spent]
    · cases hwr : r.hdr.wrCredit <;> simp [Pair.sent, Pair.spent]
    · rw [hsend, hrd o ho]
  · show Becomes (execPeerFailTimeout id s) s _
    refine becomes_onHub ?_
    simp [hfind, htarget, hphase]
  · exact becomes_withRoom hroom (Hub.responseSend_of_answered hfind hall hst hmay)
  · have hid : o.id = id := beq_iff_eq.mp (List.find?_some (p := fun o : LineOp => o.id == id) hfind)
    exact ⟨_, rfl, fun x hx => hid ▸ Hub.id_ne_of_mem_withdrawOp hx,
      becomes_onHub (f := fun h => h.remoteDeadline id) (Hub.remoteDeadline_of_found hfind hsrc)⟩

end Sys2Proof.Machine
end

section

/-! SUPPORT. Data frames a pair accepts, and the requests and RESPONSEs they carry: O42. -/

namespace Sys2Proof.Machine

/-! Acceptance (R309, R312, R376) -/

/-- The pair that accepted the frame it expects: the next counter, the receive key turned where its START was reached, one more frame
to acknowledge. -/
def Pair.accepted (q : Pair) (k : BitVec 256) (turn : Bool) (now : Nat) : Pair :=
  { q with
    lastRx := now
    rxNext := q.rxNext + 1
    rxKey := if turn then some k else q.rxKey
    rxPend := if turn then none else q.rxPend
    unacked := q.unacked + 1
    unackedAt := if q.unacked = 0 then now else q.unackedAt }

/-- The hub once a pair accepted a frame: the ACK of 32 frames leaves at once. -/
def Hub.frameAccepted (h : Hub) (peer : Nat) (q : Pair) : Hub :=
  if 32 ≤ q.unacked then (h.putPair peer q).sendAck peer else h.putPair peer q

theorem Hub.frameAccepted_shows (h : Hub) (peer : Nat) (q : Pair) : ((h.frameAccepted peer q).pair peer).rxNext = q.rxNext ∧
    ((h.frameAccepted peer q).pair peer).lastRx = q.lastRx ∧ (h.frameAccepted peer q).lines = h.lines ∧
    (h.frameAccepted peer q).regs = h.regs ∧ (h.frameAccepted peer q).mem = h.mem := by
  unfold Hub.frameAccepted
  split
  · obtain ⟨⟨t, hpair⟩, -, hlines, hregs, -⟩ := (h.putPair peer q).sendAck_shows peer
    rw [hpair, Hub.pair_putPair_same, hlines, hregs]
    exact ⟨rfl, rfl, rfl, rfl, by simp⟩
  · rw [Hub.pair_putPair_same]
    exact ⟨rfl, rfl, rfl, rfl, rfl⟩

/-- A frame with the expected counter and a tag that holds is opened and accepted. -/
theorem Hub.rxData_of_hearsNext {h : Hub} {port : Nat} {f : Frame} {k : BitVec 256} (hh : h.hearsNext port f k) : ∃ turn,
    h.rxData port f = (some (openFrame k f), (h.heard f.srcHub.toNat).frameAccepted f.srcHub.toNat
      ((h.pair f.srcHub.toNat).accepted k turn h.now)) := by
  obtain ⟨hhears, hkey, htag, hcounter⟩ := hh
  unfold Hub.rxData
  rw [Hub.rxFrame_of_hears hhears]
  dsimp only
  rw [hkey]
  simp only [htag, hcounter, Bool.not_true, Bool.false_eq_true, if_false, lt_irrefl, false_and]
  rw [Hub.pair_heard_same]
  exact ⟨_, rfl⟩

/-- What an accepted frame leaves before what it carries is carried out. -/
theorem Hub.rxData_shows {h : Hub} {port : Nat} {f : Frame} {k : BitVec 256} (hh : h.hearsNext port f k) : ∃ g : Hub,
    h.rxData port f = (some (openFrame k f), g) ∧ (g.pair f.srcHub.toNat).rxNext = (h.pair f.srcHub.toNat).rxNext + 1 ∧
    (g.pair f.srcHub.toNat).lastRx = h.now ∧ g.lines = h.lines ∧ g.regs = h.regs ∧ g.mem = h.mem := by
  obtain ⟨turn, hdata⟩ := Hub.rxData_of_hearsNext hh
  exact ⟨_, hdata, (h.heard f.srcHub.toNat).frameAccepted_shows f.srcHub.toNat ((h.pair f.srcHub.toNat).accepted k turn h.now)⟩

/-! Arriving requests (R314, R316) -/

/-- A request frame carried out is among the arriving requests. -/
theorem Hub.carryOut_arrives (h : Hub) (port : Nat) (f : Frame) : ∃ a ∈ (h.carryOut port f).far.arrivals, a.frame = f := by
  unfold Hub.carryOut
  dsimp only
  split_ifs <;> exact ⟨_, List.mem_append_right _ (List.mem_singleton.mpr rfl), rfl⟩

/-- A request frame that is accepted is carried out. -/
theorem Hub.rxRequest_shows {h : Hub} {port : Nat} {f : Frame} {k : BitVec 256} (hh : h.hearsNext port f k) : ∃ g : Hub,
    h.rxRequest port f = g.carryOut port (openFrame k f) ∧ (g.pair f.srcHub.toNat).rxNext = (h.pair f.srcHub.toNat).rxNext + 1 ∧
    (g.pair f.srcHub.toNat).lastRx = h.now ∧ g.lines = h.lines ∧ g.regs = h.regs ∧ g.mem = h.mem := by
  obtain ⟨g, hdata, hshows⟩ := Hub.rxData_shows hh
  exact ⟨g, by simp only [Hub.rxRequest, hdata], hshows⟩

/-! RESPONSE frames (R317, R319) -/

/-- A RESPONSE that is accepted gives its request's credit back and answers it. -/
theorem Hub.rxResponse_shows {h : Hub} {port : Nat} {f : Frame} {k : BitVec 256} {r : Req} (hh : h.hearsNext port f k)
    (hfind : h.lines.reqs.find? (fun r => r.peerIs f.srcHub.toNat && decide (r.ctx = f.tag.toNat) &&
      (decide (r.phase = .sent) || decide (r.phase = .failed))) = some r) (hphase : r.phase = .sent) : ∃ g : Hub,
    h.rxResponse port f = (g.creditBack f.srcHub.toNat r.hdr.wrCredit).answerFrom r (openFrame k f) ∧
    (g.pair f.srcHub.toNat).rxNext = (h.pair f.srcHub.toNat).rxNext + 1 ∧
    (g.pair f.srcHub.toNat).lastRx = h.now ∧ g.lines = h.lines ∧ g.regs = h.regs ∧ g.mem = h.mem := by
  obtain ⟨g, hdata, hrx, hlast, hlines, hkept⟩ := Hub.rxData_shows hh
  have htag : (openFrame k f).tag = f.tag := rfl
  exact ⟨g, by simp [Hub.rxResponse, hdata, hlines, htag, hfind, hphase], hrx, hlast, hlines, hkept⟩

/-- A request frame of any of the three types is taken by one rule. -/
theorem ends_requestFrame {ok : Bool} {s : State} {p : BitVec 2} {f : Frame} {k : BitVec 256} (hok : ok = true)
    (hh : s.hub.hearsNext p.toNat f k) (hroom : s.hub.journalFull = false) :
    Ends (onHubIf ok s fun h => h.withRoom fun h => h.rxRequest p.toNat f) fun t => ∃ h : Hub,
      t.hub = h.carryOut p.toNat (openFrame k f) ∧
      (h.pair f.srcHub.toNat).rxNext = (s.hub.pair f.srcHub.toNat).rxNext + 1 ∧ (h.pair f.srcHub.toNat).lastRx = s.hub.now ∧
      h.lines = s.hub.lines ∧ h.regs = s.hub.regs ∧ h.mem = s.hub.mem ∧ ∃ a ∈ t.hub.far.arrivals, a.frame = openFrame k f := by
  obtain ⟨g, hcarried, hrx, hlast, hlines, hregs, hmem⟩ := Hub.rxRequest_shows hh
  have htaken : s.hub.withRoom (fun h => h.rxRequest p.toNat f) = g.carryOut p.toNat (openFrame k f) :=
    (Hub.withRoom_free _ hroom).trans hcarried
  exact ⟨_, onHubIf_next.mpr ⟨hok, rfl⟩, g, htaken, hrx, hlast, hlines, hregs, hmem, htaken ▸ g.carryOut_arrives _ _⟩

/-- Settles O42: requests of the three types are carried out, a RESPONSE answers the request that awaits it. -/
theorem framesAreTaken : Obligations.FramesAreTaken := by
  unfold Obligations.FramesAreTaken
  refine ⟨fun s p f k i hframe hh hroom => ?_, fun s p f k r hwf hh hfind hphase hroom => ?_⟩
  · rcases hframe with ⟨rfl, hwf⟩ | ⟨rfl, hwf⟩ | ⟨rfl, hwf⟩ <;> exact ends_requestFrame hwf hh hroom
  · obtain ⟨g, hanswered, hshows⟩ := Hub.rxResponse_shows hh hfind hphase
    have htaken : s.hub.withRoom (fun h => h.rxResponse p.toNat f) = _ := (Hub.withRoom_free _ hroom).trans hanswered
    exact ⟨_, onHubIf_next.mpr ⟨hwf, rfl⟩, g, htaken, hshows⟩

end Sys2Proof.Machine
end

section

/-! SUPPORT. Operations of the FARPORT, SEC, PERF and JOURNAL pages that take effect at GO: O55. -/

namespace Sys2Proof.Machine

/-! The start of an operation (R482) -/

/-- A write of GO that a page takes, neither a PART nor a DMA page, begins the operation, which does at once what it does. -/
theorem Hub.go_of_starts {h : Hub} {init : Initiator} {c : PageClass} {page : Nat} (hs : h.starts init c page) (hpart : c ≠ .part)
    (hdma : c ≠ .dma) (opcode : Nat) (index : Hub → Nat) (f : Hub → Hub) :
    h.go init page opcode index f = f (h.begun page opcode (index h)) := by
  obtain ⟨hr, hclass, hrefusal⟩ := hs
  unfold Hub.go
  rw [if_neg (by simp [hr]), hclass]
  cases c <;> simp_all <;> rfl

theorem Hub.opOf_begun (h : Hub) (page opcode index : Nat) :
    (h.begun page opcode index).opOf page = some ⟨opcode, 0, index, false⟩ := Hub.beginOp_opOf ..

/-- The start of an operation changes no register beyond the header. -/
theorem Hub.rd_begun (h : Hub) (page opcode index : Nat) {p o : Nat} (hfar : 0x20 ≤ o) (ho : o < 4096) :
    (h.begun page opcode index).rd p o = h.rd p o := by
  unfold Hub.begun Hub.beginOp
  dsimp only
  rw [Hub.rd_putLongOp, Hub.rd_wrFld, if_neg (by omega), Hub.rd_wr_ne _ _ (by omega), Hub.rd_respondMmio]

/-- The start of an operation changes registers, the operations and the answer alone. -/
@[simp] theorem Hub.begun_keeps (h : Hub) (page opcode index : Nat) : (h.begun page opcode index).far = h.far ∧
    (h.begun page opcode index).amap = h.amap ∧ (h.begun page opcode index).sec = h.sec ∧
    (h.begun page opcode index).journal = h.journal ∧ (h.begun page opcode index).perf = h.perf ∧
    (h.begun page opcode index).boot = h.boot ∧ (h.begun page opcode index).mem = h.mem ∧
    (h.begun page opcode index).flash = h.flash := by simp [Hub.begun]

theorem Hub.sec_begun (h : Hub) (page opcode index : Nat) : (h.begun page opcode index).sec = h.sec := by simp

theorem Hub.perf_begun (h : Hub) (page opcode index : Nat) : (h.begun page opcode index).perf = h.perf := by simp

theorem Hub.fld_begun (h : Hub) (page opcode index : Nat) {p o : Nat} (lo n : Nat) (hfar : 0x20 ≤ o) (ho : o < 4096) :
    (h.begun page opcode index).fld p o lo n = h.fld p o lo n := Hub.fld_of_rd (h.rd_begun page opcode index hfar ho) lo n

theorem Hub.rd64_begun (h : Hub) (page opcode index : Nat) {p o : Nat} (hfar : 0x20 ≤ o) (ho : o + 4 < 4096) :
    (h.begun page opcode index).rd64 p o = h.rd64 p o := by
  rw [Hub.rd64, Hub.rd_begun _ _ _ _ hfar (by omega), Hub.rd_begun _ _ _ _ (by omega) ho, Hub.rd64]

theorem Hub.opOf_opWaits_begun (h : Hub) (page opcode index : Nat) :
    ((h.begun page opcode index).opWaits page 0).opOf page = some ⟨opcode, 0, index, true⟩ :=
  Hub.opOf_opWaits 0 (h.opOf_begun page opcode index)

theorem Hub.opOf_putLongOp_same (h : Hub) (page : Nat) (o : Option LongOp) : (h.putLongOp page o).opOf page = o := by
  simp [Hub.opOf_putLongOp]

theorem Hub.linkSeen_starts {h : Hub} {init : Initiator} {c : PageClass} {page : Nat} (i : Nat) (up : Bool) (hs : h.starts init c page) :
    (h.linkSeen i up).starts init c page := by
  unfold Hub.linkSeen
  split <;> exact hs

theorem Hub.fld_linkSeen (h : Hub) (i : Nat) (up : Bool) (p o lo n : Nat) : (h.linkSeen i up).fld p o lo n = h.fld p o lo n := by
  unfold Hub.linkSeen
  split <;> rfl

theorem Hub.exp_putExp (h : Hub) (n : Nat) (e : ExportCfg) (j : Nat) : (h.putExp n e).exp j = if j = n then e else h.exp j := by
  simp only [Hub.exp, Hub.putExp, Hub.setFar, SMap.get_set]

theorem Hub.opOf_putExp (h : Hub) (n : Nat) (e : ExportCfg) (page : Nat) : (h.putExp n e).opOf page = h.opOf page := rfl

theorem Hub.exp_begun (h : Hub) (page opcode index j : Nat) : (h.begun page opcode index).exp j = h.exp j := by simp [Hub.exp]

theorem Hub.pair_begun (h : Hub) (page opcode index p : Nat) : (h.begun page opcode index).pair p = h.pair p :=
  Hub.pair_of_far (by simp) p

theorem Hub.farPort_begun (h : Hub) (page opcode index i : Nat) : (h.begun page opcode index).farPort i = h.farPort i :=
  Hub.farPort_of_far (by simp) i

theorem Hub.stagedExport_begun (h : Hub) (page opcode index : Nat) : (h.begun page opcode index).stagedExport = h.stagedExport := by
  simp [Hub.stagedExport, Hub.rd_begun]

theorem Hub.expCheck_begun (h : Hub) (page opcode index n : Nat) (e : ExportCfg) :
    (h.begun page opcode index).expCheck n e = h.expCheck n e := by
  simp [Hub.expCheck, Hub.part, Hub.fld_begun]

/-! FARPORT: exports, training, pairs (R311, R323, R324) -/

section
variable {s : State} {init : Initiator}

theorem expApply_ends (hs : s.hub.starts init .farport pFarport) {n code : Nat} (hn : s.hub.fld pFarport 0x58 0 8 = n)
    (hcode : s.hub.expCheck n s.hub.stagedExport = code) : Ends (exec (.expApply init) s) fun t =>
      t.hub.opOf pFarport = some ⟨1, code, n, false⟩ ∧ t.hub.exp n = (if code = 0 then s.hub.stagedExport else s.hub.exp n) ∧
      (∀ j, j ≠ n → t.hub.exp j = s.hub.exp j) ∧ t.hub.mem = s.hub.mem := by
  show Ends (execExpApply init s) _
  refine ends_onHub ?_
  dsimp only
  rw [Hub.go_of_starts hs (by decide) (by decide), hn, Hub.fld_begun _ _ _ _ _ _ (by decide) (by decide), hn, Hub.stagedExport_begun,
    Hub.expCheck_begun, hcode]
  split
  · refine ⟨(Hub.opOf_putExp ..).trans (Hub.opOf_putLongOp_same ..), ?_, fun j hj => ?_, by simp⟩
    · rw [Hub.exp_putExp, if_pos rfl]
    · rw [Hub.exp_putExp, if_neg hj]
      exact s.hub.exp_begun pFarport 1 n j
  · exact ⟨Hub.opOf_putLongOp_same .., s.hub.exp_begun pFarport 1 n n, fun j _ => s.hub.exp_begun pFarport 1 n j, by simp⟩

theorem portRetrain_becomes (hs : s.hub.starts init .farport pFarport) {up : Bool} {i : Nat} (hi : s.hub.fld pFarport 0x44 0 2 = i)
    (henable : (s.hub.farPort i).enable = true) (hlink : (s.hub.farPort i).linkUp = true ∨ up = true) :
    Becomes (exec (.portRetrain ⟨init, up⟩) s) s ((((s.hub.linkSeen i up).begun pFarport 2 i).opWaits pFarport 0).trainFar i) := by
  have hport : ((s.hub.linkSeen i up).farPort i).enable = true ∧ ((s.hub.linkSeen i up).farPort i).linkUp = true := by
    obtain ⟨hr, -, -⟩ := hs
    cases up
    · simpa [Hub.linkSeen, henable] using hlink
    · simp [Hub.linkSeen, hr, henable]
  show Becomes (execPortRetrain ⟨init, up⟩ s) s _
  refine becomes_onHub ?_
  rw [Hub.go_of_starts (by exact Hub.linkSeen_starts _ _ hs) (by decide) (by decide)]
  simp only [hi, Hub.fld_linkSeen, Hub.fld_begun _ _ _ _ _ _ (show 0x20 ≤ 0x44 by decide) (show 0x44 < 4096 by decide),
    Hub.farPort_begun, hport, Bool.not_true, Bool.false_eq_true, or_self, if_false]

theorem peerReset_becomes (hs : s.hub.starts init .farport pFarport) {p : Nat} (hp : s.hub.fld pFarport 0x50 0 10 = p)
    (hst : (s.hub.pair p).st ≠ 0) : Becomes (exec (.peerReset init) s) s ((s.hub.begun pFarport 3 p).pairDown p 2) := by
  show Becomes (execPeerReset init s) s _
  refine becomes_onHub ?_
  dsimp only
  rw [Hub.go_of_starts hs (by decide) (by decide), Hub.fld_begun _ _ _ _ _ _ (by decide) (by decide), hp, Hub.pair_begun, if_neg hst]

end

/-! SEC: pair keys and fuses (R376, R377, R381) -/

theorem Hub.secPeer_begun (h : Hub) (page opcode index : Nat) : secPeer (h.begun page opcode index) = secPeer h :=
  h.fld_begun page opcode index 0 10 (by decide) (by decide)

theorem Hub.hubId_begun (h : Hub) (page opcode index : Nat) : (h.begun page opcode index).hubId = h.hubId :=
  h.fld_begun page opcode index 0 10 (by decide) (by decide)

theorem Hub.signKey_begun (h : Hub) (page opcode index : Nat) : (h.begun page opcode index).signKey = h.signKey :=
  h.fld_begun page opcode index 0 2 (by decide) (by decide)

theorem Hub.keyBuf_begun (h : Hub) (page opcode index : Nat) : (h.begun page opcode index).keyBuf = h.keyBuf := by
  refine congrArg (fun l => BitVec.ofNat 256 (List.sum l)) (List.map_congr_left fun i hi => ?_)
  have hlt := List.mem_range.mp hi
  rw [Hub.rd_begun _ _ _ _ (by omega) (by omega)]

theorem Hub.journalFull_begun (h : Hub) (page opcode index : Nat) : (h.begun page opcode index).journalFull = h.journalFull := by
  simp [Hub.journalFull]

theorem Hub.drbgError_begun (h : Hub) (page opcode index : Nat) : (h.begun page opcode index).drbgError = h.drbgError := by
  simp [Hub.drbgError, Hub.rd_begun]

/-- An operation of the SEC page begins at once while the management core runs (R383). -/
theorem Hub.go_sec {h : Hub} {init : Initiator} (hs : h.starts init .sec pSec) (hcore : h.sec.coreReset = false) (opcode : Nat)
    (index : Hub → Nat) (f : Hub → Hub) :
    h.go init pSec opcode index (fun h => h.secGo f) = f (h.begun pSec opcode (index h)) := by
  rw [Hub.go_of_starts hs (by decide) (by decide), Hub.secGo, Hub.sec_begun, if_neg (by simp [hcore])]

/-- KEY_BUF cleared by the operation that installs its key. -/
def Hub.keyBufCleared (h : Hub) (p : Nat) : Hub := (h.putLongOp pSec (some ⟨1, 0, p, false⟩)).fillRegs pSec 0xC0 8 0

/-- The pair under its new master key. -/
def Hub.masterInstalled (h : Hub) (p : Nat) : Hub :=
  (h.keyBufCleared p).putPair p { (h.keyBufCleared p).pair p with
    master := some h.keyBuf
    st := if ((h.keyBufCleared p).pair p).st = 0 then 1 else ((h.keyBufCleared p).pair p).st }

@[simp] theorem Hub.fillRegs_keeps (h : Hub) (page o n : Nat) (v : Word) :
    (h.fillRegs page o n v).far = h.far ∧ (h.fillRegs page o n v).ops = h.ops :=
  ⟨foldl_keeps Hub.far _ (by intros; rfl) _ h, foldl_keeps Hub.ops _ (by intros; rfl) _ h⟩

theorem Hub.pairInstall_of_key {h : Hub} {p : Nat} (hp : secPeer h = p) (hpeer : p ≠ h.hubId) (hkey : h.keyBuf ≠ 0)
    (hroom : h.journalFull = false) : h.pairInstall = ((h.masterInstalled p).pairDown p 5).pairKeyEntry p 0 := by
  have hroom' (o : Option LongOp) : (h.putLongOp pSec o).journalFull = false := hroom
  have hbuf (o : Option LongOp) : (h.putLongOp pSec o).keyBuf = h.keyBuf := by simp only [Hub.keyBuf, Hub.rd_putLongOp]
  simp only [Hub.pairInstall, hp, if_neg hpeer, if_neg hkey, hroom, hroom', hbuf, Bool.and_false, ne_eq, not_true_eq_false,
    Bool.false_eq_true, or_self, if_false, Hub.masterInstalled, Hub.keyBufCleared, Hub.fillRegs]
  rfl

theorem Hub.pair_masterInstalled (h : Hub) (p : Nat) : ((h.masterInstalled p).pair p).st ≠ 0 ∧
    ((h.masterInstalled p).pair p).master = some h.keyBuf := by
  rw [Hub.masterInstalled, Hub.pair_putPair_same]
  refine ⟨?_, rfl⟩
  dsimp only
  split
  · decide
  · next hst => exact hst

theorem Hub.holds_of_regs {g h : Hub} (e : g.regs = h.regs) {page o n : Nat} {v : Word} (hh : h.holds page o n v) :
    g.holds page o n v := fun i hi => (Hub.rd_of_regs e _ _).trans (hh i hi)

theorem Hub.holds_masterInstalled (h : Hub) (p : Nat) : (h.masterInstalled p).holds pSec 0xC0 8 0 :=
  Hub.holds_of_regs (h := h.keyBufCleared p) (by simp [Hub.masterInstalled])
    ((h.putLongOp pSec (some ⟨1, 0, p, false⟩)).holds_fillRegs pSec 0xC0 8 0)

theorem Hub.opOf_masterInstalled (h : Hub) (p : Nat) : (h.masterInstalled p).opOf pSec = some ⟨1, 0, p, false⟩ :=
  (Hub.opOf_of_ops (by simp [Hub.masterInstalled, Hub.keyBufCleared]) pSec).trans (h.opOf_putLongOp_same pSec _)

theorem Hub.holds_pairDown {h : Hub} {peer cause o n : Nat} {v : Word} (hh : h.holds pSec o n v) (hfar : 0x80 ≤ o)
    (ho : o + 4 * n ≤ 4096) : (h.pairDown peer cause).holds pSec o n v := fun i hi => by
  rw [Hub.rd_pairDown_sec _ _ _ (by omega) (by omega), hh i hi]

/-- The journal entry of a pair's key changes the journal alone. -/
theorem Hub.pairKeyEntry_keeps (h : Hub) (peer what : Nat) : (h.pairKeyEntry peer what).far = h.far ∧
    (h.pairKeyEntry peer what).regs = h.regs ∧ (h.pairKeyEntry peer what).ops = h.ops := ⟨rfl, rfl, rfl⟩

theorem Pair.master_restarted (q : Pair) (rd wr : Nat) : (q.credited rd wr).restarted.master = q.master := rfl

theorem Hub.lastEntry_pairKeyEntry (h : Hub) (peer what : Nat) :
    ∃ gen, (h.pairKeyEntry peer what).lastEntry 0x12 (le16 peer ++ [BitVec.ofNat 8 what] ++ le32 gen) :=
  ⟨_, Hub.lastEntry_submit ..⟩

/-- What PAIR_INSTALL shows at GO: the key under the pair, which is in DOWN; the buffer cleared; the journal's entry. -/
theorem Hub.pairInstall_shows (h : Hub) (p : Nat) : ∀ g, g = ((h.masterInstalled p).pairDown p 5).pairKeyEntry p 0 →
    (g.pair p).master = some h.keyBuf ∧ (g.pair p).st = 1 ∧ g.holds pSec 0xC0 8 0 ∧ g.opOf pSec = some ⟨1, 0, p, false⟩ ∧
    ∃ gen, g.lastEntry 0x12 (le16 p ++ [0] ++ le32 gen) := by
  rintro _ rfl
  obtain ⟨hst, hmaster⟩ := h.pair_masterInstalled p
  obtain ⟨hdown, -, -, hkept, -⟩ := Pair.fields_of_standing (Hub.pairDown_pair 5 hst)
  have hbuf := Hub.holds_pairDown (peer := p) (cause := 5) (h.holds_masterInstalled p) (by decide) (by decide)
  have hop := Hub.opOf_pairDown (peer := p) 5 (h.opOf_masterInstalled p) (by simp)
  generalize (h.masterInstalled p).pairDown p 5 = g at hdown hkept hbuf hop ⊢
  obtain ⟨hfar, hregs, hops⟩ := g.pairKeyEntry_keeps p 0
  rw [Hub.pair_of_far (congrArg Far.pairs hfar)]
  exact ⟨(hkept.trans (Pair.master_restarted ..)).trans hmaster, hdown, Hub.holds_of_regs hregs hbuf, (Hub.opOf_of_ops hops pSec).trans hop,
    g.lastEntry_pairKeyEntry p 0⟩

theorem Hub.pairRemove_of_used {h : Hub} {p : Nat} (hp : secPeer h = p) (hst : (h.pair p).st ≠ 0) (hroom : h.journalFull = false) :
    h.pairRemove = (((h.putLongOp pSec (some ⟨2, 0, p, false⟩)).pairKeyEntry p 1).failPeer p).putPair p Pair.empty := by
  have hroom' (o : Option LongOp) : (h.putLongOp pSec o).journalFull = false := hroom
  simp only [Hub.pairRemove, hp, if_neg hst, hroom, hroom', Bool.and_false, ne_eq, not_true_eq_false, Bool.false_eq_true, or_self,
    if_false]

theorem Hub.pairRekey_of_up {h : Hub} {p : Nat} (hp : secPeer h = p) (hst : (h.pair p).st = 2) (hoffer : (h.pair p).offer = none)
    (hpend : (h.pair p).txPend = none) (hdrbg : h.drbgError = false) : h.pairRekey = (h.opWaits pSec 0).startRekey p := by
  simp [Hub.pairRekey, hp, hst, Pair.rekeying, hoffer, hpend, hdrbg]

section
variable {s : State} {init : Initiator} (hs : s.hub.starts init .sec pSec) (hcore : s.hub.sec.coreReset = false)
include hs hcore

theorem pairInstall_ends {p : Nat} (hp : secPeer s.hub = p) (hpeer : p ≠ s.hub.hubId) (hkey : s.hub.keyBuf ≠ 0)
    (hroom : s.hub.journalFull = false) : Ends (exec (.pairInstall init) s) fun t =>
      (t.hub.pair p).master = some s.hub.keyBuf ∧ (t.hub.pair p).st = 1 ∧ t.hub.holds pSec 0xC0 8 0 ∧
      t.hub.opOf pSec = some ⟨1, 0, p, false⟩ ∧ (∃ gen, t.hub.lastEntry 0x12 (le16 p ++ [0] ++ le32 gen)) ∧
      t.hub.mem = s.hub.mem := by
  have hinstalled := Hub.pairInstall_of_key (h := s.hub.begun pSec 1 p) ((Hub.secPeer_begun ..).trans hp)
    (by rwa [Hub.hubId_begun]) (by rwa [Hub.keyBuf_begun]) ((Hub.journalFull_begun ..).trans hroom)
  obtain ⟨hmaster, hst, hbuf, hop, hentry⟩ := (s.hub.begun pSec 1 p).pairInstall_shows p _ hinstalled
  show Ends (execPairInstall init s) _
  refine ends_onHub ?_
  dsimp only
  rw [Hub.go_sec hs hcore, hp]
  rw [Hub.keyBuf_begun] at hmaster
  exact ⟨hmaster, hst, hbuf, hop, hentry, by simp⟩

theorem pairRemove_ends {p : Nat} (hp : secPeer s.hub = p) (hst : (s.hub.pair p).st ≠ 0) (hroom : s.hub.journalFull = false) :
    Ends (exec (.pairRemove init) s) fun t =>
      t.hub.pair p = Pair.empty ∧ t.hub.opOf pSec = some ⟨2, 0, p, false⟩ ∧ t.hub.mem = s.hub.mem := by
  have hremoved := Hub.pairRemove_of_used (h := s.hub.begun pSec 2 p) ((Hub.secPeer_begun ..).trans hp) (by rwa [Hub.pair_begun])
    ((Hub.journalFull_begun ..).trans hroom)
  show Ends (execPairRemove init s) _
  refine ends_onHub ?_
  dsimp only
  rw [Hub.go_sec hs hcore, hp, hremoved]
  obtain ⟨-, -, hentered⟩ := ((s.hub.begun pSec 2 p).putLongOp pSec (some ⟨2, 0, p, false⟩)).pairKeyEntry_keeps p 1
  obtain ⟨hops, -, -⟩ :=
    (((s.hub.begun pSec 2 p).putLongOp pSec (some ⟨2, 0, p, false⟩)).pairKeyEntry p 1).failPeer_keeps p
  exact ⟨Hub.pair_putPair_same .., (Hub.opOf_of_ops (hops.trans hentered) pSec).trans (Hub.opOf_putLongOp_same ..), by simp⟩

theorem pairRekey_becomes {p : Nat} (hp : secPeer s.hub = p) (hst : (s.hub.pair p).st = 2) (hoffer : (s.hub.pair p).offer = none)
    (hpend : (s.hub.pair p).txPend = none) (hdrbg : s.hub.drbgError = false) :
    Becomes (exec (.pairRekey init) s) s (((s.hub.begun pSec 3 p).opWaits pSec 0).startRekey p) := by
  show Becomes (execPairRekey init s) s _
  refine becomes_onHub ?_
  rw [Hub.go_sec hs hcore, hp]
  exact Hub.pairRekey_of_up ((Hub.secPeer_begun ..).trans hp) (by rwa [Hub.pair_begun]) (by rwa [Hub.pair_begun])
    (by rwa [Hub.pair_begun]) ((Hub.drbgError_begun ..).trans hdrbg)

theorem fuseSvn_waits {n : Nat} (hn : min 64 (s.hub.fld pSec 0x48 8 7) = n) (hsvn : s.fuses.svn < n) :
    Ends (exec (.fuseSvn init) s) fun t =>
      t.hub.opOf pSec = some ⟨4, 0, 0, true⟩ ∧ t.hub.lastEntry 0x0A [4, BitVec.ofNat 8 n] ∧
      t.fuses = s.fuses ∧ t.hub.mem = s.hub.mem := by
  show Ends (execFuseSvn init s) _
  refine ends_onHub ?_
  dsimp only
  rw [Hub.go_sec hs hcore, Hub.fuseSvnGo, Hub.fld_begun _ _ _ _ _ _ (by decide) (by decide), hn]
  rw [if_neg (Nat.not_le.mpr hsvn)]
  exact ⟨Hub.opOf_opWaits_begun .., Hub.lastEntry_submit .., rfl, by simp⟩

theorem fuseRevoke_waits {k : Nat} (hk : s.hub.signKey = k) (hrun : k ≠ s.hub.runKey) (hfuse : bit s.fuses.revoked k = false) :
    Ends (exec (.fuseRevoke init) s) fun t =>
      t.hub.opOf pSec = some ⟨5, 0, k, true⟩ ∧ t.hub.lastEntry 0x0A [5, BitVec.ofNat 8 k] ∧
      t.fuses = s.fuses ∧ t.hub.mem = s.hub.mem := by
  have hgoes : ¬(k = (s.hub.begun pSec 5 k).runKey ∨ bit s.fuses.revoked k = true) := by
    rw [Hub.runKey, Hub.sec_begun, hfuse]
    simpa [Hub.runKey] using hrun
  show Ends (execFuseRevoke init s) _
  refine ends_onHub ?_
  dsimp only
  rw [Hub.go_sec hs hcore, hk, Hub.fuseRevokeGo, Hub.signKey_begun, hk]
  rw [if_neg hgoes]
  exact ⟨Hub.opOf_opWaits_begun .., Hub.lastEntry_submit .., rfl, by simp⟩

end

/-! PERF: dumps (R457) -/

theorem Hub.dumping_begun (h : Hub) (page opcode index : Nat) : (h.begun page opcode index).dumping = h.dumping := by
  rw [Hub.dumping, Hub.rd_begun _ _ _ _ (by decide) (by decide), Hub.dumping]

theorem Hub.dumpSize_begun (h : Hub) (page opcode index : Nat) : (h.begun page opcode index).dumpSize = h.dumpSize := by
  rw [Hub.dumpSize, Hub.dumpEngines, Hub.rd_begun _ _ _ _ (by decide) (by decide), Hub.dumpSize, Hub.dumpEngines]

theorem Hub.dumpRangeOk_begun (h : Hub) (page opcode index : Nat) : (h.begun page opcode index).dumpRangeOk = h.dumpRangeOk := by
  rw [Bool.eq_iff_iff]
  simp only [Hub.dumpRangeOk, Bool.and_eq_true, decide_eq_true_eq]
  simp (disch := decide) only [Hub.dumpPart, Hub.dumpBase, Hub.dumpRecords, Hub.dumpSize_begun, Hub.part, Hub.begun_keeps,
    Hub.fld_begun, Hub.rd64_begun, Hub.rd_begun]

/-- DUMP_STOP noted: it waits for the record in progress. -/
def Hub.stopNoted (h : Hub) : Hub := (h.opWaits pPerf 0).setPerf { h.perf with stopping := true }

theorem Hub.dumping_stopNoted (h : Hub) : h.stopNoted.dumping = h.dumping := by
  rw [Hub.dumping, Hub.rd_of_regs (h := h) (by simp [Hub.stopNoted]), Hub.dumping]

/-- Dumping over. -/
def Hub.dumpOff (h : Hub) : Hub := (h.setPerf { h.perf with stopping := false }).wrFld pPerf 0x8C 0 1 0

theorem Hub.dumpStopGo_of_dumping {h : Hub} (hdump : h.dumping = true) :
    h.dumpStopGo = if h.perf.dump.step = 0 then h.stopNoted.dumpOpEnd else h.stopNoted := by
  have hstep : h.stopNoted.perf.dump.step = h.perf.dump.step := by simp [Hub.stopNoted]
  rw [← hstep]
  simp only [Hub.dumpStopGo, hdump, Bool.not_true, Bool.false_eq_true, if_false]
  rfl

theorem Hub.dumpOpEnd_of_stopping {h : Hub} {o : LongOp} (hstop : h.perf.stopping = true) (ho : h.opOf pPerf = some o)
    (hw : o.waits = true) : h.dumpOpEnd = h.dumpOff.endOp pPerf 0 := by
  have ho' : h.dumpOff.opOf pPerf = some o := ho
  unfold Hub.dumpOpEnd
  rw [if_pos hstop]
  change (match h.dumpOff.opOf pPerf with | some o => if o.waits then h.dumpOff.endOp pPerf 0 else h.dumpOff | none => h.dumpOff) = _
  rw [ho']
  exact if_pos hw

/-- The end of DUMP_STOP leaves no operation of the page and no dumping. -/
theorem Hub.dumpOff_ends {h : Hub} {o : LongOp} (ho : h.opOf pPerf = some o) :
    (h.dumpOff.endOp pPerf 0).dumping = false ∧ (h.dumpOff.endOp pPerf 0).opOf pPerf = none := by
  have hops : h.dumpOff.ops = h.ops := by simp [Hub.dumpOff]
  refine ⟨?_, Hub.opOf_endOp 0 hops ho rfl⟩
  rw [Hub.dumping, Hub.rd_endOp_other 0 hops ho rfl (by decide) (by decide) (by decide), Hub.dumpOff, Hub.rd_wrFld, if_pos rfl,
    bit_putBits_zero _ (le_refl 0) (by decide) (by decide)]

section
variable {s : State} {init : Initiator} (hs : s.hub.starts init .perf pPerf)
include hs

theorem dumpStop_waits (hdump : s.hub.dumping = true) (hstep : s.hub.perf.dump.step ≠ 0) : Ends (exec (.dumpStop init) s) fun t =>
      t.hub.perf.stopping = true ∧ t.hub.opOf pPerf = some ⟨2, 0, 0, true⟩ ∧ t.hub.dumping = true ∧ t.hub.mem = s.hub.mem := by
  have hdump' : (s.hub.begun pPerf 2 0).dumping = true := (Hub.dumping_begun ..).trans hdump
  have hgo := Hub.dumpStopGo_of_dumping hdump'
  rw [Hub.perf_begun, if_neg hstep] at hgo
  show Ends (execDumpStop init s) _
  refine ends_onHub ?_
  dsimp only
  rw [Hub.go_of_starts hs (by decide) (by decide), hgo]
  exact ⟨rfl, Hub.opOf_opWaits_begun .., (Hub.dumping_stopNoted _).trans hdump', by simp [Hub.stopNoted]⟩

theorem dumpStop_ends (hdump : s.hub.dumping = true) (hstep : s.hub.perf.dump.step = 0) : Ends (exec (.dumpStop init) s) fun t =>
      t.hub.dumping = false ∧ t.hub.opOf pPerf = none ∧ t.hub.mem = s.hub.mem := by
  have hop : (s.hub.begun pPerf 2 0).stopNoted.opOf pPerf = some ⟨2, 0, 0, true⟩ := Hub.opOf_opWaits_begun ..
  have hgo := Hub.dumpStopGo_of_dumping ((Hub.dumping_begun s.hub pPerf 2 0).trans hdump)
  rw [Hub.perf_begun, if_pos hstep, Hub.dumpOpEnd_of_stopping rfl hop rfl] at hgo
  show Ends (execDumpStop init s) _
  refine ends_onHub ?_
  dsimp only
  rw [Hub.go_of_starts hs (by decide) (by decide), hgo]
  obtain ⟨hoff, hnone⟩ := Hub.dumpOff_ends hop
  exact ⟨hoff, hnone, by simp [Hub.dumpOff, Hub.stopNoted]⟩

theorem dumpNow_becomes (hstep : s.hub.perf.dump.step = 0) (hrange : s.hub.dumpRangeOk = true) :
    Becomes (exec (.dumpNow init) s) s (((s.hub.begun pPerf 3 0).opWaits pPerf 0).dumpBegin true) := by
  show Becomes (execDumpNow init s) s _
  refine becomes_onHub ?_
  rw [Hub.go_of_starts hs (by decide) (by decide)]
  simp [Hub.dumpNowGo, hstep, Hub.dumpRangeOk_begun, hrange]

end

/-! JOURNAL: entries read and appended (R467) -/

theorem Hub.copyAt_begun (h : Hub) (page opcode index half slot : Nat) :
    (h.begun page opcode index).copyAt half slot = h.copyAt half slot := by
  have hbytes (a n : Nat) : (h.begun page opcode index).flashBytes a n = h.flashBytes a n := by simp [Hub.flashBytes, Hub.flashByte]
  unfold Hub.copyAt
  rw [hbytes]

theorem Hub.pastS0_begun (h : Hub) (page opcode index : Nat) : (h.begun page opcode index).pastS0 = h.pastS0 := by
  simp [Hub.pastS0]

/-- The entry that RD names is read where the copy in its own half of the flash is valid. -/
theorem Hub.journalReadGo_of_copy {h : Hub} {n : Nat} {b : List Byte} (hn : h.rd64 pJournal 0x60 = n) (hpast : h.pastS0 = true)
    (hcopy : h.copyAt (n % 2) (n % 131072) = some b) (hseq : entrySeq b = n) : h.journalReadGo =
      (h.setJournal { h.journal with rdData := b }).putLongOp pJournal (some ⟨1, 0, 0, false⟩) := by
  have hcopy' : h.copyAt ((n + 0) % 2) (n % 131072) = some b := hcopy
  simp [Hub.journalReadGo, hn, hpast, hcopy, hseq, List.filterMap_cons]

/-- The 36 bytes staged for APPEND. -/
def Hub.appendData (h : Hub) : List Byte := (List.range 9).flatMap (fun i => bytesOf (h.rd pJournal (0xC0 + 4 * i)))

theorem Hub.appendData_begun (h : Hub) (page opcode index : Nat) : (h.begun page opcode index).appendData = h.appendData := by
  refine congrArg List.flatten (List.map_congr_left fun i hi => ?_)
  have hlt := List.mem_range.mp hi
  rw [Hub.rd_begun _ _ _ _ (by omega) (by omega)]

theorem Hub.dropsOrdinary_begun (h : Hub) (page opcode index : Nat) : (h.begun page opcode index).dropsOrdinary = h.dropsOrdinary := by
  simp [Hub.dropsOrdinary, Hub.twoErased, Hub.sectorErased, Hub.rd_begun]

theorem Hub.ordinary_submitO {h : Hub} (typ : Nat) (flags : Byte) (payload : List Byte) (hkeeps : h.dropsOrdinary = false) :
    (h.submitO typ flags payload).journal.ordinary = h.journal.ordinary ++ [⟨BitVec.ofNat 16 typ, flags, true, payload⟩] := by
  simp [Hub.submitO, hkeeps]

/-- APPEND of a C entry, which waits for its commit. -/
def Hub.appendCritical (h : Hub) (typ : BitVec 16) (data : List Byte) : Hub :=
  (h.opWaits pJournal 0).setJournal { h.journal with queue := h.journal.queue ++ [⟨typ, 3, false, data⟩] }

theorem Hub.appendGo_of_critical {h : Hub} (hpast : h.pastS0 = true) (hcrit : h.fld pJournal 0x78 16 1 = 1) :
    h.appendGo = h.appendCritical (BitVec.ofNat 16 (h.fld pJournal 0x78 0 16)) h.appendData := by
  simp only [Hub.appendGo, hpast, hcrit, Bool.not_true, Bool.false_eq_true, if_false, if_true]
  rfl

theorem Hub.appendGo_of_ordinary {h : Hub} (hpast : h.pastS0 = true) (hord : h.fld pJournal 0x78 16 1 = 0)
    (hkeeps : h.dropsOrdinary = false) : h.appendGo = (h.putLongOp pJournal (some ⟨2, 0, 0, false⟩)).submitO
      (BitVec.ofNat 16 (h.fld pJournal 0x78 0 16)).toNat 2 h.appendData := by
  simp only [Hub.appendGo, hpast, hord, hkeeps, Bool.not_true, Bool.false_eq_true, if_false]
  rfl

section
variable {s : State} {init : Initiator} (hs : s.hub.starts init .journal pJournal) (hpast : s.hub.pastS0 = true)
include hs hpast

theorem journalRead_ends {n : Nat} {b : List Byte} (hn : s.hub.rd64 pJournal 0x60 = n)
    (hcopy : s.hub.copyAt (n % 2) (n % 131072) = some b) (hseq : entrySeq b = n) : Ends (exec (.journalRead init) s) fun t =>
      t.hub.journal.rdData = b ∧ t.hub.opOf pJournal = some ⟨1, 0, 0, false⟩ ∧ t.hub.mem = s.hub.mem := by
  have hread := Hub.journalReadGo_of_copy (h := s.hub.begun pJournal 1 0)
    ((Hub.rd64_begun _ _ _ _ (by decide) (by decide)).trans hn) ((Hub.pastS0_begun ..).trans hpast)
    ((Hub.copyAt_begun ..).trans hcopy) hseq
  show Ends (execJournalRead init s) _
  refine ends_onHub ?_
  dsimp only
  rw [Hub.go_of_starts hs (by decide) (by decide), hread]
  exact ⟨by simp, Hub.opOf_putLongOp_same .., by simp⟩

theorem append_waits (hcrit : s.hub.fld pJournal 0x78 16 1 = 1) : Ends (exec (.append init) s) fun t =>
      t.hub.lastEntry (s.hub.fld pJournal 0x78 0 16) s.hub.appendData ∧ t.hub.opOf pJournal = some ⟨2, 0, 0, true⟩ ∧
      t.hub.mem = s.hub.mem := by
  have hgo := Hub.appendGo_of_critical (h := s.hub.begun pJournal 2 0) ((Hub.pastS0_begun ..).trans hpast)
    ((Hub.fld_begun _ _ _ _ _ _ (by decide) (by decide)).trans hcrit)
  rw [Hub.appendData_begun, Hub.fld_begun _ _ _ _ _ _ (by decide) (by decide)] at hgo
  show Ends (execAppend init s) _
  refine ends_onHub ?_
  dsimp only
  rw [Hub.go_of_starts hs (by decide) (by decide), hgo]
  exact ⟨⟨_, List.getLast?_concat .., rfl, rfl⟩, Hub.opOf_opWaits_begun .., by simp [Hub.appendCritical]⟩

theorem append_ends (hord : s.hub.fld pJournal 0x78 16 1 = 0) (hkeeps : s.hub.dropsOrdinary = false) :
    Ends (exec (.append init) s) fun t =>
      t.hub.journal.ordinary = s.hub.journal.ordinary ++
        [⟨BitVec.ofNat 16 (s.hub.fld pJournal 0x78 0 16), 2, true, s.hub.appendData⟩] ∧
      t.hub.opOf pJournal = some ⟨2, 0, 0, false⟩ ∧ t.hub.mem = s.hub.mem := by
  have hkeeps' : (s.hub.begun pJournal 2 0).dropsOrdinary = false := (Hub.dropsOrdinary_begun ..).trans hkeeps
  have hgo := Hub.appendGo_of_ordinary (h := s.hub.begun pJournal 2 0) ((Hub.pastS0_begun ..).trans hpast)
    ((Hub.fld_begun _ _ _ _ _ _ (by decide) (by decide)).trans hord) hkeeps'
  rw [Hub.appendData_begun, Hub.fld_begun _ _ _ _ _ _ (by decide) (by decide)] at hgo
  show Ends (execAppend init s) _
  refine ends_onHub ?_
  dsimp only
  rw [Hub.go_of_starts hs (by decide) (by decide), hgo]
  generalize hg : (s.hub.begun pJournal 2 0).putLongOp pJournal (some ⟨2, 0, 0, false⟩) = g
  have hroom : g.dropsOrdinary = false := hg ▸ hkeeps'
  have hop : g.opOf pJournal = some ⟨2, 0, 0, false⟩ := by rw [← hg, Hub.opOf_putLongOp_same]
  have hjournal : g.journal = s.hub.journal := by simp [← hg]
  refine ⟨?_, (Hub.opOf_of_ops (by simp) pJournal).trans hop, by simp [← hg]⟩
  rw [Hub.ordinary_submitO _ _ _ hroom, hjournal, BitVec.ofNat_toNat, BitVec.setWidth_eq]

end

/-- Settles O55, operation by operation. -/
theorem serviceOperationsTakeEffect : Obligations.ServiceOperationsTakeEffect := by
  unfold Obligations.ServiceOperationsTakeEffect
  intro s init
  refine ⟨fun hs => ?_, fun up hs => ?_, fun hs => ?_, fun hs hcore hpeer hkey hroom => ?_, fun hs hcore hst hroom => ?_,
    fun hs hcore hst hoffer hpend hdrbg => ?_, fun hs hcore hsvn => ?_, fun hs hcore hrun hfuse => ?_, fun hs hdump hstep => ?_,
    fun hs hdump hstep => ?_, fun hs hstep hrange => ?_, fun b hs hpast hcopy hseq => ?_, fun hs hpast hcrit => ?_,
    fun hs hpast hord hkeeps => ?_⟩
  · exact expApply_ends hs rfl rfl
  · exact fun henable hlink => portRetrain_becomes hs rfl henable hlink
  · exact fun hst => peerReset_becomes hs rfl hst
  · exact pairInstall_ends hs hcore rfl hpeer hkey hroom
  · exact pairRemove_ends hs hcore rfl hst hroom
  · exact pairRekey_becomes hs hcore rfl hst hoffer hpend hdrbg
  · exact fuseSvn_waits hs hcore rfl hsvn
  · exact fuseRevoke_waits hs hcore rfl hrun hfuse
  · exact dumpStop_waits hs hdump hstep
  · exact dumpStop_ends hs hdump hstep
  · exact dumpNow_becomes hs hstep hrange
  · exact journalRead_ends hs hpast rfl hcopy hseq
  · exact append_waits hs hpast hcrit
  · exact append_ends hs hpast hord hkeeps

end Sys2Proof.Machine
end

section

/-! SUPPORT. What leaves the regions, the migrations and the address map as they were. -/

namespace Sys2Proof.Machine

/-- The chapter 11 state (regions, repairs, migrations) and the address map of g are those of h. -/
@[simp] abbrev Hub.SameSlabs (g h : Hub) : Prop := g.ras = h.ras ∧ g.amap = h.amap

@[simp] theorem Hub.ite_slabs (c : Prop) [Decidable c] (a b : Hub) :
    (if c then a else b : Hub).ras = (if c then a.ras else b.ras) ∧
    (if c then a else b : Hub).amap = (if c then a.amap else b.amap) :=
  ⟨apply_ite .., apply_ite ..⟩

@[simp] theorem foldl_slabs {α : Type} (f : Hub → α → Hub) (H : ∀ h a, (f h a).SameSlabs h) (l : List α) (h : Hub) :
    (l.foldl f h).SameSlabs h :=
  ⟨foldl_keeps Hub.ras f (fun h a => (H h a).1) l h, foldl_keeps Hub.amap f (fun h a => (H h a).2) l h⟩

/-! Reads and writes handed to the engines (R222, R223) -/

@[simp] theorem Hub.engCount_slabs (h : Hub) (pcIdx ev amt : Nat) (part : Option (BitVec 6)) :
    (h.engCount pcIdx ev amt part).SameSlabs h := by simp [Hub.engCount]

@[simp] theorem Hub.dropFetch_slabs (h : Hub) (id : Nat) : (h.dropFetch id).SameSlabs h := ⟨rfl, rfl⟩

@[simp] theorem Hub.capture_slabs (h : Hub) (id sector : Nat) (w : Code) : (h.capture id sector w).SameSlabs h := by
  unfold Hub.capture
  split <;> exact ⟨rfl, rfl⟩

@[simp] theorem Hub.pushRead_slabs (h : Hub) (e : RdEntry) : (h.pushRead e).SameSlabs h := by
  unfold Hub.pushRead
  dsimp only
  split <;> simp

@[simp] theorem Hub.pushWrite_slabs (h : Hub) (ps off sector : Nat) (w : Code) (part : Option (BitVec 6)) :
    (h.pushWrite ps off sector w part).SameSlabs h := by simp [Hub.pushWrite]

@[simp] theorem Hub.openFetch_slabs (h : Hub) (f : Fetch) : (h.openFetch f).2.SameSlabs h := by
  simp [Hub.openFetch, Hub.fresh]

@[simp] theorem Hub.bgFetch_slabs (h : Hub) (kind : FetchKind) (p : BitVec 6) (l ps s k : Nat) (want : BitVec 4) :
    (h.bgFetch kind p l ps s k want).2.SameSlabs h := by simp [Hub.bgFetch]

@[simp] theorem Hub.fetchWordAt_slabs (h : Hub) (p l k s : Nat) (c : Cause) : (h.fetchWordAt p l k s c).2.SameSlabs h := by
  unfold Hub.fetchWordAt Hub.fetchOf
  dsimp only
  split <;> simp

/-! Metadata words (R331) -/

@[simp] theorem Hub.setWords_slabs (h : Hub) (ws : List MetaWord) : (h.setWords ws).SameSlabs h := ⟨rfl, rfl⟩

@[simp] theorem Hub.cacheWord_slabs (h : Hub) (k s : Nat) (m : Meta) : (h.cacheWord k s m).SameSlabs h := by
  unfold Hub.cacheWord
  split
  · exact Hub.setWords_slabs ..
  · unfold Hub.enterWord
    dsimp only
    split <;> exact Hub.setWords_slabs ..

@[simp] theorem Hub.startRmw_slabs (h : Hub) (k s : Nat) : (h.startRmw k s).SameSlabs h := by simp [Hub.startRmw]
@[simp] theorem Hub.putMeta_slabs (h : Hub) (k s : Nat) (m : Meta) : (h.putMeta k s m).SameSlabs h := by simp [Hub.putMeta]

@[simp] theorem Hub.poisonLine_slabs (h : Hub) (p l : Nat) : (h.poisonLine p l).SameSlabs h := by
  unfold Hub.poisonLine Hub.putLineMeta
  dsimp only
  split
  · exact ⟨rfl, rfl⟩
  · split <;> simp

@[simp] theorem Hub.writeWords_slabs (h : Hub) (k off i : Nat) (x : Sector) : (h.writeWords k off i x).SameSlabs h := by
  simp [Hub.writeWords]

/-! Units of the cache die that are read (R338) -/

@[simp] theorem Hub.readUnit_slabs (h : Hub) (k i : Nat) : (h.readUnit k i).SameSlabs h := by
  unfold Hub.readUnit
  dsimp only
  split <;> simp [Hub.noteCacheCe, Hub.noteCacheUe]

@[simp] theorem Hub.putWb_slabs (h : Hub) (e : WbEntry) : (h.putWb e).SameSlabs h := ⟨rfl, rfl⟩

@[simp] theorem Hub.readWb_slabs (h : Hub) (p l : Nat) (mask : BitVec 4) : (h.readWb p l mask).SameSlabs h := by
  refine foldl_slabs _ (fun h i => ?_) _ h
  dsimp only
  split
  · exact ⟨rfl, rfl⟩
  · split
    · exact ⟨rfl, rfl⟩
    · split <;> simp [Hub.noteCacheCe, Hub.noteCacheUe]

@[simp] theorem Hub.readUnits_slabs (h : Hub) (p l : Nat) (mask : BitVec 4) : (h.readUnits p l mask).SameSlabs h := by
  unfold Hub.readUnits Hub.readWay
  split <;> simp

/-! Copies of the internal tricks (R202, R351) -/

@[simp] theorem Hub.askCopy_slabs (h : Hub) (ctx : Nat) (i : CopyItem) : (h.askCopy ctx i).SameSlabs h := by
  unfold Hub.askCopy
  dsimp only
  repeat' split
  all_goals simp

@[simp] theorem Hub.copyWords_slabs (h : Hub) (k base : Nat) : (h.copyWords k base).SameSlabs h := by simp [Hub.copyWords]
@[simp] theorem Hub.endItrick_slabs (h : Hub) (t : ITrick) : (h.endItrick t).SameSlabs h := ⟨rfl, rfl⟩
@[simp] theorem Hub.unreserve_slabs (h : Hub) (ls : List (Nat × Nat)) : (h.unreserve ls).SameSlabs h := ⟨rfl, rfl⟩

end Sys2Proof.Machine
end

section

/-! SUPPORT. The targets of the migrations: what an error found while a batch is copied leaves of them. -/

namespace Sys2Proof.Machine

/-- The slabs of g have the size of those of h, and each target of a migration of h is one of g. -/
structure Hub.KeepsTargets (g h : Hub) : Prop where
  bigD : g.bigD = h.bigD
  targets : ∀ m ∈ h.ras.migs, ∃ x ∈ g.ras.migs, x.b = m.b

theorem Hub.KeepsTargets.trans {f g h : Hub} (a : f.KeepsTargets g) (b : g.KeepsTargets h) : f.KeepsTargets h :=
  ⟨a.bigD.trans b.bigD, fun m hm => by
    obtain ⟨x, hx, hxm⟩ := b.targets m hm
    obtain ⟨y, hy, hyx⟩ := a.targets x hx
    exact ⟨y, hy, hyx.trans hxm⟩⟩

/-- More migrations, and no other slab size. -/
theorem Hub.KeepsTargets.of_subset {g h : Hub} (hdens : g.amap.dens = h.amap.dens) (hmigs : h.ras.migs ⊆ g.ras.migs) :
    g.KeepsTargets h :=
  ⟨by rw [Hub.bigD, hdens, Hub.bigD], fun m hm => ⟨m, hmigs hm, rfl⟩⟩

theorem Hub.KeepsTargets.of_slabs {g h : Hub} (e : g.SameSlabs h) : g.KeepsTargets h :=
  of_subset (by rw [e.2]) (by rw [e.1]; exact List.Subset.refl _)

theorem Hub.KeepsTargets.refl (h : Hub) : h.KeepsTargets h := of_slabs ⟨rfl, rfl⟩

theorem foldl_keepsTargets {α : Type} {f : Hub → α → Hub} (H : ∀ h a, (f h a).KeepsTargets h) (l : List α) (h : Hub) :
    (l.foldl f h).KeepsTargets h :=
  List.foldlRecOn l f (motive := fun g => g.KeepsTargets h) (.refl h) fun g hg a _ => (H g a).trans hg

/-- Every migration becomes another to the same target. -/
theorem Hub.KeepsTargets.of_map {g h : Hub} {f : Migration → Migration} (hf : ∀ m, (f m).b = m.b)
    (hdens : g.amap.dens = h.amap.dens) (hmigs : g.ras.migs = h.ras.migs.map f) : g.KeepsTargets h :=
  ⟨by rw [Hub.bigD, hdens, Hub.bigD], fun m hm => ⟨f m, hmigs ▸ List.mem_map_of_mem hm, hf m⟩⟩

theorem Hub.abandon_keepsTargets (h : Hub) (b : Nat) : (h.abandon b).KeepsTargets h := by
  unfold Hub.abandon
  split
  · exact .refl h
  · next m _ =>
    extract_lets h1 h2
    have e1 : h1.SameSlabs h := by
      simp only [h1]
      split <;> simp
    refine .of_map (f := fun x => if x.b = b then { x with phase := 3 } else x) (fun x => by split <;> rfl) ?_ ?_
    · simp [h2, e1]
    · simp [h2, e1]

theorem Hub.startRetire_keepsTargets (h : Hub) (ps cause : Nat) : (h.startRetire ps cause).KeepsTargets h := by
  unfold Hub.startRetire
  extract_lets v k room wait h1
  have hwait (g : Hub) : (wait g).KeepsTargets g := .of_subset (by simp [wait]) (by simp [wait])
  split
  · exact .refl h
  · split
    · have e1 : h1.KeepsTargets h := .of_slabs (by simp [h1])
      split
      · exact (hwait h1).trans e1
      · exact e1
    · split
      · split
        · exact hwait h
        · split
          · exact .refl h
          · exact .of_slabs (by simp)
      · exact .of_subset (by simp) (by simp)

theorem Hub.kickRepair_keepsTargets (h : Hub) (st : Nat) : (h.kickRepair st).KeepsTargets h := by
  unfold Hub.kickRepair
  split
  · split
    · exact .refl h
    · exact .of_subset (by simp) (by simp)
  · exact .refl h

theorem Hub.requestRepair_keepsTargets (h : Hub) (ps off : Nat) : (h.requestRepair ps off).KeepsTargets h := by
  unfold Hub.requestRepair
  extract_lets v bg bank row
  split
  · exact .refl h
  · split
    · exact h.startRetire_keepsTargets ps 0
    · split
      · exact .refl h
      · split
        · exact .refl h
        · exact (Hub.kickRepair_keepsTargets ..).trans (.of_subset (by simp) (List.Subset.refl _))

theorem Hub.putPslab_keepsTargets (h : Hub) (ps : Nat) (v : PSlab) : (h.putPslab ps v).KeepsTargets h :=
  .of_subset rfl (List.Subset.refl _)

theorem Hub.reportUe_keepsTargets (h : Hub) (ps off sector source : Nat) : (h.reportUe ps off sector source).KeepsTargets h := by
  unfold Hub.reportUe Hub.noteUe
  extract_lets v h1 h2 h3
  have e1 : h1.KeepsTargets h :=
    ((h.raise pRas 1).bump pRas 0x4C 0 32 1).putPslab_keepsTargets ps _ |>.trans (.of_slabs (by simp))
  have e3 : h3.KeepsTargets h := (Hub.KeepsTargets.of_slabs (by simp [h3, h2])).trans e1
  split
  · exact (h3.abandon_keepsTargets ps).trans e3
  · exact (h3.requestRepair_keepsTargets ps off).trans e3

theorem Hub.reportCe_keepsTargets (h : Hub) (ps n : Nat) : (h.reportCe ps n).KeepsTargets h :=
  (Hub.putPslab_keepsTargets ..).trans (.of_slabs (by simp))

/-- What a copied line was found to have lost is reported; no migration loses its target (R333, R351). -/
theorem Hub.copyValue_keepsTargets (h : Hub) (t : ITrick) (n : Nat) (i : CopyItem) (errs : Flips) :
    (h.copyValue t n i errs).2.2.KeepsTargets h := by
  unfold Hub.copyValue
  extract_lets js ps lost ce m h1 h2
  dsimp only
  have e1 : h1.KeepsTargets h := by
    simp only [h1]
    split
    · exact .refl h
    · exact h.reportCe_keepsTargets ps ce
  have e2 : h2.KeepsTargets h := (foldl_keepsTargets (fun h c => h.reportUe_keepsTargets ..) lost h1).trans e1
  split
  · exact e2
  · dsimp only
    split
    · exact (Hub.KeepsTargets.of_slabs (by simp [Hub.reportMac])).trans e2
    · exact e2

theorem Hub.copyOffset_keepsTargets (h : Hub) (m : Migration) (t : ITrick) (n : Nat) (i : CopyItem) (errs : Flips) :
    (h.copyOffset m t n i errs).KeepsTargets h :=
  (Hub.KeepsTargets.of_slabs (by simp [Hub.copyOffset])).trans (h.copyValue_keepsTargets t n i errs)

theorem Hub.dropLostReads_keepsTargets (h : Hub) (t : ITrick) (items : List CopyItem) (errs : Flips) :
    (h.dropLostReads t items errs).KeepsTargets h := by
  refine foldl_keepsTargets (fun g e => ?_) _ h
  split
  · next f _ =>
    split
    · exact (Hub.KeepsTargets.of_slabs (Hub.dropFetch_slabs ..)).trans (g.abandon_keepsTargets f.ps)
    · exact .refl g
  · exact .refl g

end Sys2Proof.Machine
end

section

/-! SUPPORT. A batch of a migration, and the locks of an internal trick: O30. -/

namespace Sys2Proof.Machine

/-! Batches (R351 step 4) -/

theorem Hub.putMig_keepsTargets (h : Hub) (m : Migration) : (h.putMig m).KeepsTargets h :=
  .of_map (f := fun x => if x.b = m.b then m else x) (fun x => by
    split
    · next e => exact e.symm
    · rfl) rfl rfl

/-- A migration is put in the place of those to its target. -/
theorem Hub.mem_putMig {h : Hub} {m : Migration} (hm : ∃ x ∈ h.ras.migs, x.b = m.b) : m ∈ (h.putMig m).ras.migs := by
  obtain ⟨x, hx, hxm⟩ := hm
  exact List.mem_map.mpr ⟨x, hx, if_pos hxm⟩

/-- Before the last batch the watermark rises by 16 and nothing else is asked. -/
theorem Hub.raiseMark_of_more {h : Hub} {m : Migration} (hmore : m.wm + 16 < h.bigD) :
    h.raiseMark m = h.putMig { m with wm := m.wm + 16, tries := 0, blocked := [] } := if_pos hmore

/-- After the last batch RETIRE_END is submitted. -/
theorem Hub.lastEntry_raiseMark {h : Hub} {m : Migration} (hdone : h.bigD ≤ m.wm + 16) :
    (h.raiseMark m).lastEntry 4 (le16 m.k ++ le16 m.a ++ le16 m.b) := by
  rw [Hub.raiseMark, if_neg (Nat.not_lt.mpr hdone)]
  exact Hub.lastEntry_submit ..

theorem Hub.pages_raiseMark (h : Hub) (m : Migration) : (h.raiseMark m).pages = h.pages := by
  unfold Hub.raiseMark
  dsimp only
  split <;> rfl

/-- The hub once the sixteen offsets of a batch stand at the target. -/
def Hub.offsetsCopied (h : Hub) (m : Migration) (t : ITrick) (errs : Flips) : Hub :=
  (h.migItems m).zipIdx.foldl (fun h e => h.copyOffset m t e.2 e.1 errs) h

theorem Hub.offsetsCopied_keepsTargets (h : Hub) (m : Migration) (t : ITrick) (errs : Flips) :
    (h.offsetsCopied m t errs).KeepsTargets h :=
  foldl_keepsTargets (fun g (e : CopyItem × Nat) => g.copyOffset_keepsTargets m t e.2 e.1 errs) _ h

/-- The hub once the two metadata sectors of a batch are copied too and its internal trick has ended (R351). -/
def Hub.batchCopied (h : Hub) (m : Migration) (t : ITrick) (errs : Flips) : Hub :=
  (((((h.offsetsCopied m t errs).copyWords m.k m.wm).copyWords m.k (m.wm + 8)).endItrick t).unreserve (h.migLines m)).bump
    pTrick 0x64 0 32 1

theorem Hub.commitBatch_eq (h : Hub) (m : Migration) (t : ITrick) (errs : Flips) :
    h.commitBatch m t errs = ((h.batchCopied m t errs).raiseMark m).settleOn := rfl

theorem Hub.batchCopied_keepsTargets (h : Hub) (m : Migration) (t : ITrick) (errs : Flips) :
    (h.batchCopied m t errs).KeepsTargets h :=
  (Hub.KeepsTargets.of_slabs (by simp [Hub.batchCopied])).trans (h.offsetsCopied_keepsTargets m t errs)

theorem Hub.itricks_endItrick (h : Hub) (t : ITrick) (ls : List (Nat × Nat)) :
    ((h.endItrick t).unreserve ls).pages.itricks = h.pages.itricks.filter (fun x => x.ctx != t.ctx) := rfl

/-- The context of an internal trick that has ended is free. -/
theorem Hub.itricks_batchCopied {h : Hub} {m : Migration} {t : ITrick} {errs : Flips} {x : ITrick}
    (hx : x ∈ (h.batchCopied m t errs).pages.itricks) : x.ctx ≠ t.ctx := by
  simp only [Hub.batchCopied, Hub.bump_fields, Hub.itricks_endItrick, List.mem_filter, bne_iff_ne] at hx
  exact hx.2

/-- A committed batch: its trick has ended, and the watermark has risen or RETIRE_END is submitted. -/
theorem Hub.commitBatch_ends {h h1 : Hub} {m : Migration} (t : ITrick) (errs : Flips) (hm : m ∈ h.ras.migs) (hkeeps : h1.KeepsTargets h) :
    ∃ h' : Hub, h1.commitBatch m t errs = h'.settleOn ∧ (∀ x ∈ h'.pages.itricks, x.ctx ≠ t.ctx) ∧
      (m.wm + 16 < h.bigD → { m with wm := m.wm + 16, tries := 0, blocked := [] } ∈ h'.ras.migs) ∧
      (h.bigD ≤ m.wm + 16 → h'.lastEntry 4 (le16 m.k ++ le16 m.a ++ le16 m.b)) := by
  have hcopied : (h1.batchCopied m t errs).KeepsTargets h := (h1.batchCopied_keepsTargets m t errs).trans hkeeps
  refine ⟨(h1.batchCopied m t errs).raiseMark m, Hub.commitBatch_eq .., ?_, fun hmore => ?_, fun hdone => ?_⟩
  · rw [Hub.pages_raiseMark]
    exact fun x hx => Hub.itricks_batchCopied hx
  · rw [Hub.raiseMark_of_more (hcopied.bigD.symm ▸ hmore)]
    exact Hub.mem_putMig (hcopied.targets m hm)
  · exact Hub.lastEntry_raiseMark (hcopied.bigD.symm ▸ hdone)

/-- A batch of an UNFILLED chunk is skipped. -/
theorem Hub.migBatch_of_unfilled {h : Hub} {i : Nat} {m : Migration} (errs : Flips)
    (hm : (h.ras.migs.filter (fun m => m.phase != 0))[i]? = some m) (hrun : m.phase = 1) (hchunk : h.chunkState m.k m.wm = .unfilled) :
    h.migBatch i errs = h.raiseMark m := by
  simp only [Hub.migBatch, hm, hrun, hchunk, ne_eq, not_true_eq_false, if_false]

/-- A batch of a FILLED chunk whose internal trick holds its locks goes on with that trick. -/
theorem Hub.migBatch_of_locked {h : Hub} {i : Nat} {m : Migration} {t : ITrick} (errs : Flips)
    (hm : (h.ras.migs.filter (fun m => m.phase != 0))[i]? = some m) (hrun : m.phase = 1) (hchunk : h.chunkState m.k m.wm = .filled)
    (ht : h.migTrick m = some t) :
    h.migBatch i errs = (h.putMig m).itrickStep t.ctx ((h.putMig m).migItems m) errs (fun t h => h.commitBatch m t errs) := by
  have ht' : (h.putMig m).migTrick m = some t := ht
  have hruns : ¬ m.phase ≠ 1 := not_not_intro hrun
  simp only [Hub.migBatch, hm, if_neg hruns, hchunk, ht, ht', Option.isSome_some, if_true]

/-! Locks of an internal trick (R201) -/

/-- A first attempt at lines that nothing locks and nothing uses places the locks. -/
theorem Hub.attempt_of_free {h : Hub} {g c : Nat} (move : Option Nat) (target : Nat) {a : Tries} {ls : List (Nat × Nat)}
    (hctx : h.freeItrick g = some c) (hmet : a.blocked = []) (hfew : a.n < 4) (hunreserved : h.anyReserved ls = false)
    (hunlocked : h.lockers ls = []) (hidle : h.linesBusy ls = false) :
    h.attempt g move target a ls = (⟨a.n, []⟩, h.placeLocks ⟨c, move, target, ls, []⟩) := by
  have hnow : ¬ (h.lines.ordered.any (fun o => a.blocked.contains o.id) = true ∨ (a.n < 5 ∧ h.anyReserved ls = true)) := by
    simp [hmet, hunreserved]
  have hunreserving : a.n ≠ 4 := Nat.ne_of_lt hfew
  simp only [Hub.attempt, hctx, if_neg hnow, if_neg hunreserving, hunlocked, hidle, ne_eq, not_true_eq_false, if_false,
    Bool.false_eq_true]

/-- Each line of the trick has its lock in the queue of its home slice. -/
theorem Hub.placeLocks_locks (h : Hub) (t : ITrick) {e : Nat × Nat} (he : e ∈ t.lines) :
    ∃ o ∈ (h.placeLocks t).lines.ordered, o.kind = .ilock t.ctx ∧ o.line = e.2 ∧ o.part = BitVec.ofNat 6 e.1 := by
  obtain ⟨i, hi⟩ := List.mem_iff_getElem?.mp he
  exact ⟨_, List.mem_append_right _ (List.mem_map_of_mem (List.mk_mem_zipIdx_iff_getElem?.mpr hi)), rfl, rfl, rfl⟩

/-- Settles O30: the skipped batch, the copied one by the rule of its internal trick, and the locks that a first attempt places. -/
theorem migrationBatches : Obligations.MigrationBatches := by
  unfold Obligations.MigrationBatches
  refine ⟨fun s i errs m hm hrun hroom => ⟨fun hchunk => ?_, ?_⟩,
    fun h g c target move a ls hctx hmet hfew hunreserved hunlocked hidle => ?_⟩
  · exact becomes_withRoom (f := fun h => h.migBatch i.toNat errs) hroom (Hub.migBatch_of_unfilled errs hm hrun hchunk)
  · intro hchunk t t' ht h ht0 items h1 ht1 hready
    have hstep := Hub.itrickStep_of_ready (h1 := h1) (commit := fun t h => h.commitBatch m t errs) ht0 rfl ht1 hready
    have hbatch : s.hub.migBatch i.toNat errs = h1.commitBatch m t' errs := (Hub.migBatch_of_locked errs hm hrun hchunk ht).trans hstep
    have hmig : m ∈ s.hub.ras.migs := (List.mem_filter.mp (List.mem_of_getElem? hm)).1
    have hkeeps : h1.KeepsTargets s.hub :=
      (foldl_keepsTargets (fun g i => .of_slabs (g.askCopy_slabs t.ctx i)) items _).trans
        ((h.dropLostReads_keepsTargets t items errs).trans (s.hub.putMig_keepsTargets m))
    obtain ⟨h', hcommit, hends⟩ := Hub.commitBatch_ends t' errs hmig hkeeps
    exact ⟨h', becomes_withRoom (f := fun h => h.migBatch i.toNat errs) hroom (hbatch.trans hcommit), hends⟩
  · rw [Hub.attempt_of_free move target hctx hmet hfew hunreserved hunlocked hidle]
    exact ⟨rfl, fun e he => Hub.placeLocks_locks h ⟨c, move, target, ls, []⟩ he⟩

end Sys2Proof.Machine
end

section

/-! SUPPORT. Chunks that are filled: O31. -/

namespace Sys2Proof.Machine

/-- The base of chunk c of a region is an offset of that chunk (R339). -/
theorem chunkOf_base {r c : Nat} (hc : c < 64) : chunkOf (r * 8192 + c * 128) = c := by
  unfold chunkOf
  omega

/-- A chunk that is filled has its bit, and is not PENDING (R342). -/
theorem Hub.setFilled_fills (h : Hub) (slab off : Nat) :
    (h.setFilled slab off).chunkMap slab off = putBit (h.chunkMap slab off) (chunkOf off) true ∧
    (h.setFilled slab off).isPending slab off = false := by
  unfold Hub.setFilled
  extract_lets m mine _ h1
  have hras {l : List MetaWord} : (l.foldl (fun h w => h.startRmw slab w.off) h1).ras = h1.ras := by simp
  constructor
  · rw [Hub.chunkMap, hras]
    exact SMap.get_set_same ..
  · rw [Hub.isPending, hras]
    simp only [h1, List.any_filter, Bool.not_and_self, List.any_eq_false, Bool.false_eq_true, not_false_eq_true, implies_true]

theorem Hub.fillChunk_of_entered {h : Hub} {k region chunk : Nat} (hpending : h.isPending k (region * 8192 + chunk * 128) = true)
    (hfree : h.chunkHeld k (region * 8192 + chunk * 128) = false) :
    h.fillChunk k region chunk = (h.setFilled k (region * 8192 + chunk * 128)).settleOn := by
  simp only [Hub.fillChunk, hpending, hfree, Bool.not_true, Bool.false_eq_true, or_self, if_false]

/-- The background fill goes on in a region whose fill has begun (R343). -/
theorem Hub.backgroundChunk_of_filling {h : Hub} {k region c : Nat} (hbegun : h.chunkMap k (region * 8192) ≠ 0)
    (howned : (h.slabOwner k).isSome = true) (hdata : region * 8192 < h.bigD)
    (hlowest : (List.range 64).find? (fun c => h.chunkState k (region * 8192 + 128 * c) == .unfilled) = some c)
    (hroom : h.roomFor 0 [(k, (region * 8192 + 128 * c) / 128, (h.lslab k).home)] = true) :
    h.backgroundChunk k region = h.makePending k (region * 8192 + 128 * c) := by
  have hruns : ¬ ((!(decide (h.chunkMap k (region * 8192) ≠ 0) ||
      (List.range 64).any (fun c => h.isPending k (region * 8192 + 128 * c)))) = true ∨
      (h.slabOwner k).isNone = true ∨ h.bigD ≤ region * 8192) := by
    rw [decide_eq_true hbegun, Bool.true_or]
    simp [Nat.not_le.mpr hdata, Option.isSome_iff_ne_none.mp howned]
  simp only [Hub.backgroundChunk, if_neg hruns, hlowest, hroom, if_true]

/-- Settles O31: the chunk whose writes have all entered, and the lowest chunk that the background fill takes. -/
theorem chunksFill : Obligations.ChunksFill := by
  unfold Obligations.ChunksFill
  refine ⟨fun s slab region chunk hpending hfree => ?_, fun s slab region c hbegun howned hdata hlowest hroom => ?_⟩
  · obtain ⟨hmap, hdone⟩ := s.hub.setFilled_fills slab.toNat (region.toNat * 8192 + chunk.toNat * 128)
    refine ⟨becomes_onHub (f := fun h => h.fillChunk slab.toNat region.toNat chunk.toNat) (Hub.fillChunk_of_entered hpending hfree),
      ?_, hdone⟩
    rw [hmap, chunkOf_base chunk.isLt]
    exact bit_putBit_same _ _ chunk.isLt
  · exact becomes_onHub (f := fun h => h.backgroundChunk slab.toNat region.toNat)
      (Hub.backgroundChunk_of_filling hbegun howned hdata hlowest hroom)

end Sys2Proof.Machine
end

section

/-! SUPPORT. The scrubber's next read: O32. -/

namespace Sys2Proof.Machine

/-- A stack with one LIVE slab whose scrubber is enabled and has a write queued where it reads next (R344); a fill bears the number
that the next fetch takes. -/
def Hub.numberTaken : Hub :=
  let h := ((Hub.reset.putPslab 0 { PSlab.absent with st := 1 }).wr pRas 0x80 0x80000000).pushWrite 0 761856 0 0 none
  h.setLines { h.lines with fetches := [⟨h.lines.next, .fill, 0, 0, 4, 0, 0, 0, 0, [], 0, 0, false, none, none⟩] }

/-- The queued write answers the scrubber's read at once, and the word reaches the first fetch of that number: the fill. -/
theorem Hub.scrubIssue_numberTaken : ∀ f ∈ (Hub.numberTaken.scrubIssue 0).lines.fetches, f.kind ≠ .scrub := by decide

/-- Refutes O32: its first clause does not ask that the number of the next fetch be free. Where a fill bears it and a sector of the
next read waits in the write queue, the forwarded word (R223) is captured by the fill, which replaces the scrubber's fetch. -/
theorem not_scrubberWalks : ¬ Obligations.ScrubberWalks := by
  unfold Obligations.ScrubberWalks
  rintro ⟨hissue, -⟩
  obtain ⟨t, hnext, ⟨f, hf, hkind, -⟩, -⟩ := hissue { State.reset with hub := Hub.numberTaken } 0 0 761856 (by decide)
    (by decide) (by decide) (by decide)
  obtain rfl := (onHub_next (f := fun h => h.scrubIssue (0 : BitVec 3).toNat)).mp hnext
  exact Hub.scrubIssue_numberTaken f hf hkind

end Sys2Proof.Machine
end

section

/-! SUPPORT. A row repair that ends with its row rewritten: O33. -/

namespace Sys2Proof.Machine

theorem becomes_onStack {s : State} {st : Nat} {f : Hub → Hub} {h : Hub} (hfit : s.hub.pins.stackFit.getLsbD st = true)
    (e : f s.hub = h) : Becomes (onStack s st f) s h := by
  rw [Becomes, onStack_next, e]
  exact ⟨hfit, rfl⟩

/-- PPR_MAX keeps the longest sequence (R359). -/
def Hub.pprTimed (h : Hub) (units : Nat) : Hub := if h.fld pRas 0xA0 0 16 < units then h.wrFld pRas 0xA0 0 16 units else h

theorem Hub.fld_pprTimed (h : Hub) (units lo n : Nat) : (h.pprTimed units).fld pRas 0x808 lo n = h.fld pRas 0x808 lo n := by
  unfold Hub.pprTimed
  split
  · exact Hub.fld_of_rd ((Hub.rd_wrFld ..).trans (if_neg (by decide))) lo n
  · rfl

/-- The hub with the row of a repair rewritten and in the repair table (R346 step 5, R348). -/
def Hub.rowMapped (h : Hub) (r : Repair) (errs : Flips) : Hub :=
  let h := r.offsets.zipIdx.foldl (fun h x => h.rewrite r x.1 errs (4 * x.2)) h
  h.setRas { h.ras with table := h.ras.table ++ [(r.ps, r.bg, r.bank, r.row)] }

/-- A repair within its time limit ends: counted for its slab and the hub, raised, its holds released (R346 step 6, R359). -/
def Hub.repaired (h : Hub) (r : Repair) : Hub :=
  (((h.putPslab r.ps { h.pslab r.ps with repairs := satAdd 15 (h.pslab r.ps).repairs 1, slow := false }).bump pRas 0x60 0 32
    1).raise pRas 3).dropRepair r

theorem Hub.pprEnd_of_spare {h : Hub} {st units : Nat} {r : Repair} (errs : Flips)
    (hfind : h.ras.repairs.find? (fun r => slabStack r.ps == st && r.phase == 3) = some r)
    (hfast : units ≤ 100 * h.fld pRas 0x808 0 8) :
    h.pprEnd st units false errs = ((h.pprTimed units).rowMapped r errs).repaired r := by
  have hquick : decide (100 * (h.pprTimed units).fld pRas 0x808 0 8 < units) = false := by
    rw [Hub.fld_pprTimed]
    exact decide_eq_false (Nat.not_lt.mpr hfast)
  unfold Hub.pprTimed at hquick
  simp only [Hub.pprEnd, hfind, hquick, Bool.false_eq_true, if_false]
  rfl

/-- Settles O33, by the rule of a sequence that finds a spare row within its limit. -/
theorem rowRepairEnds : Obligations.RowRepairEnds := by
  unfold Obligations.RowRepairEnds
  intro s st units errs r hfit hfind hfast
  exact becomes_onStack (f := fun h => h.pprEnd st.toNat units.toNat false errs) hfit (Hub.pprEnd_of_spare errs hfind hfast)

end Sys2Proof.Machine
end

section

/-! SUPPORT. Operations of the window that begin, and those of the PART, CACHE, STK, DMA and RAS pages that take effect at GO: O1, O53,
O54. -/

namespace Sys2Proof.Machine

/-- Settles O1: the command at the front of the queue is the one that runs. -/
theorem stepRunsTheFrontCommand : Obligations.StepRunsTheFrontCommand := by
  unfold Obligations.StepRunsTheFrontCommand
  intro s c rest hpending
  rw [step, hpending]

/-! The start of an operation on a PART or a DMA page (R290, R482) -/

/-- A write of GO that the PART page takes begins its operation: PART_ENABLE and PART_RELEASE only for the management core, or for a host
that SEC_CTRL lets (R363). -/
theorem Hub.go_part {h : Hub} {init : Initiator} (hs : h.starts init .part pPart) {opcode : Nat}
    (hallow : (opcode ≠ 1 ∧ opcode ≠ 4) ∨ init = .mgmt ∨ h.fld pSec 0x44 0 1 = 1) (index : Hub → Nat) (f : Hub → Hub) :
    h.go init pPart opcode index f = f (h.begun pPart opcode (index h)) := by
  obtain ⟨hr, hclass, hrefusal⟩ := hs
  unfold Hub.go
  rw [if_neg (by simp [hr]), hclass]
  dsimp only
  rw [if_pos rfl, hrefusal]
  split
  · exact if_neg (fun hdenied => absurd hdenied.1 (by decide))
  · next hhost =>
    refine if_neg ?_
    rintro ⟨-, hop, -, hfld⟩
    rcases hallow with ⟨h1, h4⟩ | hmgmt | h1
    · exact hop.elim h1 h4
    · exact hhost hmgmt
    · exact absurd (h1.symm.trans hfld) (by decide)

/-- A write of GO that a DMA page takes begins its operation once S7 has ended (R290). -/
theorem Hub.go_dma {h : Hub} {init : Initiator} {page : Nat} (hs : h.starts init .dma page) (hs7 : h.afterS7 = true) (opcode : Nat)
    (index : Hub → Nat) (f : Hub → Hub) : h.go init page opcode index f = f (h.begun page opcode (index h)) := by
  obtain ⟨hr, hclass, hrefusal⟩ := hs
  unfold Hub.go
  rw [if_neg (by simp [hr]), hclass]
  dsimp only
  rw [if_neg (by simp), hrefusal]
  dsimp only
  rw [if_neg (by simp [hs7])]
  rfl

/-- What an operation shows once it has begun (R482). -/
theorem Hub.begun_shows (h : Hub) (page opcode index : Nat) :
    (h.begun page opcode index).opOf page = some ⟨opcode, 0, index, false⟩ ∧
    bit ((h.begun page opcode index).rd page 0x0C) 2 = false ∧ (h.begun page opcode index).mmio = (0, 0) := by
  refine ⟨h.opOf_begun page opcode index, ?_, by simp [Hub.begun, Hub.respondMmio]⟩
  rw [Hub.begun, Hub.beginOp, Hub.rd_putLongOp, Hub.rd_wrFld, if_pos rfl, bit_putBits_zero _ (le_refl 2) (by decide) (by decide)]

section
variable {s : State} {init : Initiator} {page : Nat}

/-- An operation whose start has no effect of its own leaves the hub as its start leaves it. -/
theorem begins {c : PageClass} (hs : s.hub.starts init c page) (hpart : c ≠ .part) (hdma : c ≠ .dma) (opcode : Nat) (index : Hub → Nat) :
    Becomes (onHub s (fun h => h.go init page opcode index (fun h => h))) s (s.hub.begun page opcode (index s.hub)) :=
  becomes_onHub (Hub.go_of_starts hs hpart hdma opcode index _)

theorem begins_part (hs : s.hub.starts init .part pPart) {opcode : Nat}
    (hallow : (opcode ≠ 1 ∧ opcode ≠ 4) ∨ init = .mgmt ∨ s.hub.fld pSec 0x44 0 1 = 1) (index : Hub → Nat) :
    Becomes (onHub s (fun h => h.go init pPart opcode index (fun h => h))) s (s.hub.begun pPart opcode (index s.hub)) :=
  becomes_onHub (Hub.go_part hs hallow index _)

end

/-- Settles O53: each operation's start is the one of R482, and has no effect of its own. -/
theorem operationsBegin : Obligations.OperationsBegin := by
  unfold Obligations.OperationsBegin
  intro s init
  refine ⟨fun hs hallow => ?_, fun hs => ⟨?_, ?_⟩, fun hs => ⟨?_, ?_⟩, fun hs => ?_, fun hs => ⟨?_, ?_, ?_⟩, fun hs => ⟨?_, ?_, ?_⟩,
    fun hs => ?_, fun hs => ?_, s.hub.begun_shows⟩
  · exact begins_part hs (.inr hallow) _
  · exact begins_part hs (.inl (by decide)) _
  · exact begins_part hs (.inl (by decide)) _
  all_goals exact begins hs (by decide) (by decide) _ _

/-! What the start of an operation leaves (R482) -/

/-- Beside registers, operations and the answer, the start of an operation changes nothing. -/
@[simp] theorem Hub.begun_keeps_units (h : Hub) (page opcode index : Nat) : (h.begun page opcode index).cache = h.cache ∧
    (h.begun page opcode index).lines = h.lines ∧ (h.begun page opcode index).pcs = h.pcs ∧ (h.begun page opcode index).stk = h.stk ∧
    (h.begun page opcode index).dma = h.dma ∧ (h.begun page opcode index).ras = h.ras ∧
    (h.begun page opcode index).therm = h.therm ∧ (h.begun page opcode index).pins = h.pins ∧
    (h.begun page opcode index).now = h.now := by simp [Hub.begun]

theorem Hub.kitty_begun (h : Hub) (page opcode index i : Nat) : (h.begun page opcode index).kitty i = h.kitty i := by simp [Hub.kitty]

theorem Hub.part_begun (h : Hub) (page opcode index p : Nat) : (h.begun page opcode index).part p = h.part p := by simp [Hub.part]

theorem Hub.dmaCh_begun (h : Hub) (page opcode index c : Nat) : (h.begun page opcode index).dmaCh c = h.dmaCh c := by simp [Hub.dmaCh]

theorem Hub.pc_begun (h : Hub) (page opcode index i : Nat) : (h.begun page opcode index).pc i = h.pc i := by simp [Hub.pc]

theorem Hub.pslab_begun (h : Hub) (page opcode index i : Nat) : (h.begun page opcode index).pslab i = h.pslab i := by simp [Hub.pslab]

theorem Hub.lslab_begun (h : Hub) (page opcode index i : Nat) : (h.begun page opcode index).lslab i = h.lslab i := by simp [Hub.lslab]

theorem Hub.retiring_begun (h : Hub) (page opcode index i : Nat) : (h.begun page opcode index).retiring i = h.retiring i := by
  simp [Hub.retiring]

theorem Hub.partSel_begun (h : Hub) (page opcode index : Nat) : partSel (h.begun page opcode index) = partSel h :=
  h.fld_begun page opcode index 0 6 (by decide) (by decide)

theorem Hub.kwSel_begun (h : Hub) (page opcode index : Nat) : kwSel (h.begun page opcode index) = kwSel h :=
  h.fld_begun page opcode index 0 4 (by decide) (by decide)

theorem Hub.flushIndex_begun (h : Hub) (page opcode index : Nat) : flushIndex (h.begun page opcode index) = flushIndex h := by
  simp [flushIndex, Hub.kwSel_begun, Hub.fld_begun]

theorem Hub.stagedKw_begun (h : Hub) (page opcode index : Nat) : (h.begun page opcode index).stagedKw = h.stagedKw := by
  simp [Hub.stagedKw, Hub.rd_begun, Hub.fld_begun]

theorem Hub.kwCheck_begun (h : Hub) (page opcode index i : Nat) (w : KittyWin) :
    (h.begun page opcode index).kwCheck i w = h.kwCheck i w := by
  simp [Hub.kwCheck, Hub.part_begun, Hub.kitty_begun]

theorem Hub.kittySpan_begun (h : Hub) (page opcode index : Nat) (w : KittyWin) :
    (h.begun page opcode index).kittySpan w = h.kittySpan w := by
  simp [Hub.kittySpan, Hub.part_begun]

theorem KittyWin.has_begun (w : KittyWin) (h : Hub) (page opcode index p l : Nat) : w.has (h.begun page opcode index) p l = w.has h p l := by
  simp [KittyWin.has, Hub.part_begun]

theorem Hub.dirtyLines_begun (h : Hub) (page opcode index scope i : Nat) : (h.begun page opcode index).dirtyLines
    ((h.begun page opcode index).flushScope scope i) = h.dirtyLines (h.flushScope scope i) := by
  have hscope : (h.begun page opcode index).flushScope scope i = h.flushScope scope i := by
    funext p l
    simp [Hub.flushScope, Hub.kitty_begun, KittyWin.has_begun]
  simp [Hub.dirtyLines, hscope]

theorem Hub.retireFull_begun (h : Hub) (page opcode index ps : Nat) : (h.begun page opcode index).retireFull ps = h.retireFull ps := by
  simp [Hub.retireFull, Hub.pickTalon, Hub.pslab_begun, Hub.pc_begun]

/-! PART_RELEASE (R391) -/

theorem Hub.opOf_submit (h : Hub) (typ : Nat) (critical : Bool) (payload : List Byte) (page : Nat) :
    (h.submit typ critical payload).opOf page = h.opOf page := rfl

theorem partRelease_waits {s : State} {init : Initiator} (hs : s.hub.starts init .part pPart)
    (hallow : init = .mgmt ∨ s.hub.fld pSec 0x44 0 1 = 1) (hon : (s.hub.part (partSel s.hub)).enabled = true) :
    Ends (exec (.partRelease init) s) fun t =>
      t.hub.opOf pPart = some ⟨4, 0, partSel s.hub + 256 * s.hub.fld pSec 0x44 1 1, true⟩ ∧
      t.hub.lastEntry 9 [BitVec.ofNat 8 (partSel s.hub), BitVec.ofNat 8 (s.hub.fld pSec 0x44 1 1)] ∧ t.hub.mem = s.hub.mem := by
  show Ends (execPartRelease init s) _
  refine ends_onHub ?_
  dsimp only
  rw [Hub.go_part hs (.inr hallow)]
  simp only [Hub.partSel_begun, Hub.part_begun, hon, Hub.fld_begun _ _ _ _ _ _ (show 0x20 ≤ 0x44 by decide) (show 0x44 < 4096 by decide),
    Bool.not_true, Bool.false_eq_true, if_false]
  exact ⟨(Hub.opOf_submit ..).trans (Hub.opOf_putLongOp_same ..), Hub.lastEntry_submit .., by simp⟩

/-! CACHE: kitty windows, FLUSH and the way count (R148, R149) -/

section
variable {s : State} {init : Initiator} (hs : s.hub.starts init .cache pCache)
include hs

theorem kwApply_judges : Ends (exec (.kwApply init) s) fun t =>
    t.hub.opOf pCache = some ⟨1, s.hub.kwCheck (kwSel s.hub) s.hub.stagedKw, kwSel s.hub, false⟩ ∧ t.hub.cache = s.hub.cache ∧
    t.hub.mem = s.hub.mem := by
  show Ends (execKwApply init s) _
  refine ends_onHub ?_
  dsimp only
  rw [Hub.go_of_starts hs (by decide) (by decide), Hub.kwSel_begun, Hub.stagedKw_begun, Hub.kwCheck_begun]
  exact ⟨Hub.opOf_putLongOp_same .., by simp, by simp⟩

theorem kittyFill_becomes (hon : (s.hub.kitty (kwSel s.hub)).on = true) : Becomes (exec (.kittyFill init) s) s
    ((s.hub.begun pCache 2 (kwSel s.hub)).setCache { s.hub.cache with
      kfill := ((s.hub.kitty (kwSel s.hub)).owner, s.hub.kittySpan (s.hub.kitty (kwSel s.hub))) }).kittyOn := by
  show Becomes (execKittyFill init s) s _
  refine becomes_onHub ?_
  rw [Hub.go_of_starts hs (by decide) (by decide)]
  simp [Hub.kwSel_begun, Hub.kitty_begun, Hub.kittySpan_begun, hon]

theorem flush_becomes (hscope : s.hub.fld pCache 0x64 8 2 = 0 ∨ s.hub.fld pCache 0x64 8 2 = 1 ∨
      (s.hub.fld pCache 0x64 8 2 = 2 ∧ (s.hub.kitty (kwSel s.hub)).on = true)) : Becomes (exec (.flush init) s) s
    ((s.hub.begun pCache 3 (flushIndex s.hub)).setCache { s.hub.cache with
      flush := s.hub.dirtyLines (s.hub.flushScope (s.hub.fld pCache 0x64 8 2) (flushIndex s.hub)) }) := by
  have hnames : ¬(s.hub.fld pCache 0x64 8 2 = 3 ∨ (s.hub.fld pCache 0x64 8 2 = 2 ∧ (!(s.hub.kitty (flushIndex s.hub)).on) = true)) := by
    rcases hscope with h0 | h1 | ⟨h2, hon⟩
    · simp [h0]
    · simp [h1]
    · simp [h2, flushIndex, hon]
  show Becomes (execFlush init s) s _
  refine becomes_onHub ?_
  rw [Hub.go_of_starts hs (by decide) (by decide)]
  simp only [Hub.flushIndex_begun, Hub.kitty_begun, Hub.dirtyLines_begun, Hub.fld_begun _ _ _ _ _ _ (show 0x20 ≤ 0x64 by decide)
    (show 0x64 < 4096 by decide), if_neg hnames, Hub.begun_keeps_units]

theorem setWays_judges : Ends (exec (.setWays init) s) fun t =>
    t.hub.opOf pCache = some ⟨4, if (List.range 16).any (fun i => (s.hub.kitty i).on) then 4
      else if 12 < s.hub.fld pCache 0x48 0 4 then 5 else 0, 0, false⟩ ∧ t.hub.cache = s.hub.cache ∧ t.hub.mem = s.hub.mem := by
  show Ends (execSetWays init s) _
  refine ends_onHub ?_
  dsimp only
  rw [Hub.go_of_starts hs (by decide) (by decide)]
  simp only [Hub.kitty_begun, Hub.fld_begun _ _ _ _ _ _ (show 0x20 ≤ 0x48 by decide) (show 0x48 < 4096 by decide)]
  exact ⟨Hub.opOf_putLongOp_same .., by simp, by simp⟩

end

/-! STK: a slice (R241) -/

theorem retrainSlice_becomes {s : State} {init : Initiator} {st : BitVec 3} (hs : s.hub.starts init .stk (pStk st.toNat)) {n : Nat}
    (hn : s.hub.fld (pStk st.toNat) 0x70 0 6 = n) (hpc : (s.hub.pc (st.toNat * 64 + n)).st = 1 ∨
      (s.hub.pc (st.toNat * 64 + n)).st = 2 ∨ (s.hub.pc (st.toNat * 64 + n)).st = 3) :
    Becomes (exec (.retrainSlice init st) s) s
      (((s.hub.begun (pStk st.toNat) 1 n).opWaits (pStk st.toNat) 0).opSliceNext st.toNat) := by
  show Becomes (execRetrainSlice init st s) s _
  refine becomes_onHub ?_
  rw [Hub.go_of_starts hs (by decide) (by decide), hn, Hub.retrainGo, Hub.fld_begun _ _ _ _ _ _ (by decide) (by decide), hn, Hub.pc_begun]
  exact if_neg fun ⟨h1, h2, h3⟩ => hpc.elim h1 fun hpc => hpc.elim h2 h3

/-! DMA: start, pause, resume, abort (R290, R294, R303) -/

/-- The start of an operation and its wait leave the position registers of a channel. -/
theorem Hub.rd_waiting (h : Hub) (page opcode code : Nat) {p o : Nat} (hfar : 0x20 ≤ o) (ho : o < 4096) :
    ((h.begun page opcode 0).opWaits page code).rd p o = h.rd p o := by
  rw [Hub.rd_of_regs (h := h.begun page opcode 0) (by simp), Hub.rd_begun _ _ _ _ hfar ho]

theorem Hub.posOfRegs_waiting (h : Hub) (page opcode code ch : Nat) (d : Dma) :
    ((h.begun page opcode 0).opWaits page code).posOfRegs ch d = h.posOfRegs ch d := by
  unfold Hub.posOfRegs Hub.fld
  dsimp only
  rw [Hub.rd_waiting _ _ _ _ (by decide) (by decide), Hub.rd_waiting _ _ _ _ (by decide) (by decide)]

theorem Hub.withShift_waiting (h : Hub) (page opcode code ch : Nat) (d : Dma) (n : Nat) :
    ((h.begun page opcode 0).opWaits page code).withShift ch d n = h.withShift ch d n := by
  simp [Hub.withShift, Hub.rd64, Hub.rd_waiting]

section
variable {s : State} {init : Initiator} {c : BitVec 6} (hs : s.hub.starts init .dma (pDma c.toNat)) (hs7 : s.hub.afterS7 = true)
include hs hs7

theorem dmaStart_becomes (hst : (s.hub.dmaCh c.toNat).st = 1 ∨ (s.hub.dmaCh c.toNat).st = 6) {p : PartCfg}
    (hp : s.hub.part (s.hub.fld (pDma c.toNat) 0x40 0 6) = p) (hon : p.enabled = true) (hdma : bit p.dma c.toNat = true) :
    Becomes (exec (.dmaStart init c) s) s
      (((s.hub.begun (pDma c.toNat) 1 0).opWaits (pDma c.toNat) 0).beginFetch c.toNat 1) := by
  show Becomes (execDmaStart init c s) s _
  refine becomes_onHub ?_
  rw [Hub.go_dma hs hs7, Hub.dmaStartGo, Hub.dmaCh_begun, Hub.part_begun, Hub.fld_begun _ _ _ _ _ _ (by decide) (by decide), hp]
  rw [if_neg (fun ⟨h1, h6⟩ => hst.elim h1 h6), if_neg (by simp [hon, hdma])]

theorem dmaPause_pends (hst : (s.hub.dmaCh c.toNat).st = 5) : Ends (exec (.dmaPause init c) s) fun t =>
    (t.hub.dmaCh c.toNat).pausePend = true ∧ (t.hub.dmaCh c.toNat).st = 5 ∧
    t.hub.opOf (pDma c.toNat) = some ⟨2, 0, 0, false⟩ ∧ t.hub.mem = s.hub.mem := by
  show Ends (execDmaPause init c s) _
  refine ends_onHub ?_
  dsimp only
  rw [Hub.go_dma hs hs7, Hub.dmaPauseGo, Hub.dmaCh_begun]
  rw [if_pos hst]
  have hch : (((s.hub.begun (pDma c.toNat) 2 0).putDma c.toNat { s.hub.dmaCh c.toNat with pausePend := true }).putLongOp
      (pDma c.toNat) (some ⟨2, 0, 0, false⟩)).dmaCh c.toNat = { s.hub.dmaCh c.toNat with pausePend := true } :=
    (Hub.dmaCh_putDma ..).trans (if_pos rfl)
  rw [hch]
  exact ⟨rfl, hst, Hub.opOf_putLongOp_same .., by simp⟩

theorem dmaPause_becomes (hst : (s.hub.dmaCh c.toNat).st = 2 ∨ (s.hub.dmaCh c.toNat).st = 3) : Becomes (exec (.dmaPause init c) s) s
    ((((s.hub.begun (pDma c.toNat) 2 0).opWaits (pDma c.toNat) 0).putDma c.toNat { s.hub.dmaCh c.toNat with
      stopFor := if (s.hub.dmaCh c.toNat).stopFor = 4 then 4 else 1, st := 7 }).dmaSettle c.toNat) := by
  have hrun : (s.hub.dmaCh c.toNat).st ≠ 5 := by rcases hst with h | h <;> rw [h] <;> decide
  show Becomes (execDmaPause init c s) s _
  refine becomes_onHub ?_
  rw [Hub.go_dma hs hs7, Hub.dmaPauseGo, Hub.dmaCh_begun]
  dsimp only
  rw [if_neg hrun, if_pos hst]

theorem dmaResume_halted (hst : (s.hub.dmaCh c.toNat).st = 6) : Becomes (exec (.dmaResume init c) s) s
    (((s.hub.begun (pDma c.toNat) 3 0).opWaits (pDma c.toNat) 0).beginFetch c.toNat 3) := by
  show Becomes (execDmaResume init c s) s _
  refine becomes_onHub ?_
  rw [Hub.go_dma hs hs7, Hub.dmaResumeGo, Hub.dmaCh_begun]
  exact if_pos hst

theorem dmaResume_paused (hst : (s.hub.dmaCh c.toNat).st = 4) (hfetch : (s.hub.dmaCh c.toNat).fetch = 0)
    (hleft : s.hub.fld (pDma c.toNat) 0x68 0 17 ≠ 0) {n : Nat} (hn : s.hub.posOfRegs c.toNat (s.hub.dmaCh c.toNat) = some n)
    (hresumes : (s.hub.withShift c.toNat (s.hub.dmaCh c.toNat) n).resumes (n % max 1 (s.hub.dmaCh c.toNat).length) = true) :
    Becomes (exec (.dmaResume init c) s) s
      ((((s.hub.begun (pDma c.toNat) 3 0).opWaits (pDma c.toNat) 0).putDma c.toNat
        (s.hub.withShift c.toNat (s.hub.dmaCh c.toNat) n)).runDesc c.toNat n) := by
  have hhalted : (s.hub.dmaCh c.toNat).st ≠ 6 := by rw [hst]; decide
  show Becomes (execDmaResume init c s) s _
  refine becomes_onHub ?_
  rw [Hub.go_dma hs hs7, Hub.dmaResumeGo, Hub.dmaCh_begun]
  have hleft' : ((s.hub.begun (pDma c.toNat) 3 0).opWaits (pDma c.toNat) 0).fld (pDma c.toNat) 0x68 0 17 ≠ 0 := by
    rwa [Hub.fld, Hub.rd_waiting _ _ _ _ (by decide) (by decide)]
  simp only [if_neg hhalted, if_pos hst, if_neg (not_not.mpr hfetch), if_neg hleft', Hub.posOfRegs_waiting, hn,
    Hub.withShift_waiting, Hub.dmaCh_putDma, if_true, hresumes]

theorem dmaAbort_becomes (hst : (s.hub.dmaCh c.toNat).st = 2 ∨ (s.hub.dmaCh c.toNat).st = 3 ∨ (s.hub.dmaCh c.toNat).st = 4 ∨
      (s.hub.dmaCh c.toNat).st = 5 ∨ (s.hub.dmaCh c.toNat).st = 6) : Becomes (exec (.dmaAbort init c) s) s
    ((((s.hub.begun (pDma c.toNat) 4 0).opWaits (pDma c.toNat) 0).putDma c.toNat { s.hub.dmaCh c.toNat with
      stopFor := if (s.hub.dmaCh c.toNat).stopFor = 4 then 5 else 2, st := 7 }).dmaSettle c.toNat) := by
  show Becomes (execDmaAbort init c s) s _
  refine becomes_onHub ?_
  rw [Hub.go_dma hs hs7, Hub.dmaAbortGo, Hub.dmaCh_begun]
  exact if_pos hst

end

/-! RAS: a retirement (R350) -/

theorem retire_becomes {s : State} {init : Initiator} (hs : s.hub.starts init .ras pRas) {ps : Nat} (hps : s.hub.fld pRas 0x78 0 11 = ps)
    (hst : (s.hub.pslab ps).st = 1) (hretiring : s.hub.retiring ps = false)
    (hmoves : (s.hub.lslab (s.hub.pslab ps).logical.toNat).st ≠ 2) (hroom : s.hub.retireFull ps = false) :
    Becomes (exec (.retire init) s) s (((s.hub.begun pRas 2 ps).opWaits pRas 0).startRetire ps 3) := by
  show Becomes (execRetire init s) s _
  refine becomes_onHub ?_
  rw [Hub.go_of_starts hs (by decide) (by decide), hps, Hub.retireGo, Hub.fld_begun _ _ _ _ _ _ (by decide) (by decide), hps]
  rw [Hub.pslab_begun, Hub.lslab_begun, Hub.retiring_begun, Hub.retireFull_begun]
  dsimp only
  rw [if_neg (by simpa [hst, hretiring] using hmoves), if_neg (by simp [hroom])]

/-- Settles O54, operation by operation. -/
theorem operationsTakeEffect : Obligations.OperationsTakeEffect := by
  unfold Obligations.OperationsTakeEffect
  intro s init
  refine ⟨fun hs hallow hon => ?_, fun hs => ?_, fun hs hon => ?_, fun hs hscope => ?_, fun hs => ?_, fun st hs => ?_,
    fun c hs hs7 => ⟨fun hst hon hdma => ?_, fun hst => ?_, fun hst => ?_, fun hst => ?_, fun hst hfetch hleft n hn hresumes => ?_,
      fun hst => ?_⟩, fun hs => ?_⟩
  · exact partRelease_waits hs hallow hon
  · exact kwApply_judges hs
  · exact kittyFill_becomes hs hon
  · exact flush_becomes hs hscope
  · exact setWays_judges hs
  · exact fun hpc => retrainSlice_becomes hs rfl hpc
  · exact dmaStart_becomes hs hs7 hst rfl hon hdma
  · exact dmaPause_pends hs hs7 hst
  · exact dmaPause_becomes hs hs7 hst
  · exact dmaResume_halted hs hs7 hst
  · exact dmaResume_paused hs hs7 hst hfetch hleft hn hresumes
  · exact dmaAbort_becomes hs hs7 hst
  · exact fun hst hretiring hmoves hroom => retire_becomes hs rfl hst hretiring hmoves hroom

end Sys2Proof.Machine
end

section

/-! SUPPORT. The key exchange of a pair: O44. -/

namespace Sys2Proof.Machine

/-! KEYX frames (R373, R374) -/

/-- A KEYX frame whose CRC and tag hold is taken, with what it seals. -/
theorem Hub.rxKeyx_of_opens {h : Hub} {port : Nat} {f : Frame} {m : BitVec 256} {x : Word × BitVec 64 × BitVec 256}
    (hh : h.hearsControl port f) (hm : (h.pair f.srcHub.toNat).master = some m) (hx : keyxOpen m f = some x) :
    h.rxKeyx port f = (some x, h.heard f.srcHub.toNat) := by
  simp [Hub.rxKeyx, Hub.rxControl_of_hears hh, hm, hx]

theorem exec_rxKeyxOffer {s : State} {p : BitVec 2} {f : Frame} {m : BitVec 256} {gen : Word} {start : BitVec 64} {o : BitVec 256}
    (hwf : wfFrame 11 f = true) (hhead : f.payload.head? = some 0) (hh : s.hub.hearsControl p.toNat f)
    (hm : (s.hub.pair f.srcHub.toNat).master = some m) (hx : keyxOpen m f = some (gen, start, o)) :
    exec (.rxKeyxOffer p f) s = .next { s with hub := (s.hub.heard f.srcHub.toNat).takeOffer f.srcHub.toNat gen start o } := by
  refine onHubIf_next.mpr ⟨by rw [hwf, hhead]; rfl, ?_⟩
  rw [Hub.rxKeyx_of_opens hh hm hx]
  simp only [if_pos hhead]

theorem exec_rxKeyxAccept {s : State} {p : BitVec 2} {f : Frame} {m : BitVec 256} {gen : Word} {start : BitVec 64} {q : BitVec 256}
    (hwf : wfFrame 11 f = true) (hhead : f.payload.head? = some 1) (hh : s.hub.hearsControl p.toNat f)
    (hm : (s.hub.pair f.srcHub.toNat).master = some m) (hx : keyxOpen m f = some (gen, start, q)) (hroom : s.hub.journalFull = false) :
    exec (.rxKeyxAccept p f) s = .next { s with hub := (s.hub.heard f.srcHub.toNat).takeAccept f.srcHub.toNat gen start q } := by
  refine onHubIf_next.mpr ⟨by rw [hwf, hhead]; rfl, ?_⟩
  have hroom' : (s.hub.heard f.srcHub.toNat).journalFull = false := hroom
  simp only [Hub.rxKeyx_of_opens hh hm hx, Hub.withRoom_free _ hroom']

/-! The transmit key (R374 step 3, R376) -/

/-- A pair whose OFFER has been accepted. -/
def Pair.offerTaken (q : Pair) (gen : Word) : Pair := { q with offer := none, txGen := gen }

/-- What an ACCEPT of the OFFER under way makes: the pending key of a rekey, or else the transmit key. -/
theorem Hub.takeAccept_of_offer {h : Hub} {peer : Nat} {gen : Word} {start : BitVec 64} {o : Offer} (q : BitVec 256)
    (ho : (h.pair peer).offer = some o) (hgen : o.gen = gen) (hstart : o.start = start) : h.takeAccept peer gen start q =
      if o.rekey then (h.putPair peer { (h.pair peer).offerTaken gen with txPend := some (o.key ^^^ q, start) }).turnTx peer
      else h.putPair peer { (h.pair peer).offerTaken gen with txKey := some (o.key ^^^ q), txFrames := 0 } := by
  simp only [Hub.takeAccept, ho, hgen, hstart, ne_eq, not_true_eq_false, or_self, if_false]
  rfl

theorem Hub.turnTx_of_early {h : Hub} {peer : Nat} {k : BitVec 256} {start : BitVec 64} (hp : (h.pair peer).txPend = some (k, start))
    (hearly : (h.pair peer).txNext.toNat < start.toNat) : h.turnTx peer = h := by
  simp [Hub.turnTx, hp, hearly]

/-- The end of PAIR_REKEY changes neither pairs nor requests, and of the SEC page nothing but its header and OP_RESULT. -/
theorem Hub.rekeyOpEnd_keeps (h : Hub) (peer : Nat) : (h.rekeyOpEnd peer).far = h.far ∧ (h.rekeyOpEnd peer).lines = h.lines ∧
    (h.rekeyOpEnd peer).rd pSec 0x68 = h.rd pSec 0x68 := by
  unfold Hub.rekeyOpEnd
  split
  · next o ho =>
    split
    · exact ⟨by simp, by simp, Hub.rd_endOp_other 0 rfl ho rfl (by decide) (by decide) (by decide)⟩
    · exact ⟨rfl, rfl, rfl⟩
  · exact ⟨rfl, rfl, rfl⟩

/-- A pending key whose START the counter has reached is in use, and the rekey counted. -/
theorem Hub.turnTx_shows {h : Hub} {peer : Nat} {k : BitVec 256} {start : BitVec 64} (hp : (h.pair peer).txPend = some (k, start))
    (hdue : start.toNat ≤ (h.pair peer).txNext.toNat) :
    (h.turnTx peer).pair peer = { h.pair peer with txKey := some k, txPend := none, txFrames := 0 } ∧
    ((h.turnTx peer).rd pSec 0x68).toNat = min (2 ^ 32 - 1) ((h.rd pSec 0x68).toNat + 1) ∧ (h.turnTx peer).lines = h.lines := by
  generalize hq : ({ h.pair peer with txKey := some k, txPend := none, txFrames := 0 } : Pair) = q
  have hturn : h.turnTx peer = (((h.putPair peer q).bump pSec 0x68 0 32 1).submit 0x12 true
      (le16 peer ++ [2] ++ le32 (h.pair peer).txGen.toNat)).rekeyOpEnd peer := by
    simp [Hub.turnTx, hp, Nat.not_lt.mpr hdue, ← hq]
  obtain ⟨hfar, hlines, hrd⟩ := (((h.putPair peer q).bump pSec 0x68 0 32 1).submit 0x12 true
    (le16 peer ++ [2] ++ le32 (h.pair peer).txGen.toNat)).rekeyOpEnd_keeps peer
  rw [hturn, Hub.pair_of_far (congrArg Far.pairs hfar), hrd, hlines]
  exact ⟨h.pair_putPair_same peer q, (h.putPair peer q).toNat_rd_bump pSec 0x68, by simp⟩

/-- What an ACCEPT leaves: the transmit key in use or pending, the OFFER gone. -/
theorem Hub.takeAccept_shows {h : Hub} {peer : Nat} {gen : Word} {start : BitVec 64} {o : Offer} (q : BitVec 256)
    (ho : (h.pair peer).offer = some o) (hgen : o.gen = gen) (hstart : o.start = start) : ∀ g, g = h.takeAccept peer gen start q →
      (g.pair peer).txGen = gen ∧ (g.pair peer).offer = none ∧ (o.rekey = false → (g.pair peer).txKey = some (o.key ^^^ q)) ∧
      (o.rekey = true → (h.pair peer).txNext.toNat < start.toNat → (g.pair peer).txPend = some (o.key ^^^ q, start) ∧
        (g.pair peer).txKey = (h.pair peer).txKey ∧ g.rd pSec 0x68 = h.rd pSec 0x68) ∧
      (o.rekey = true → start.toNat ≤ (h.pair peer).txNext.toNat → (g.pair peer).txPend = none ∧
        (g.pair peer).txKey = some (o.key ^^^ q) ∧ (g.rd pSec 0x68).toNat = min (2 ^ 32 - 1) ((h.rd pSec 0x68).toNat + 1)) ∧
      g.lines = h.lines := by
  rintro _ rfl
  rw [Hub.takeAccept_of_offer q ho hgen hstart]
  cases o.rekey with
  | false =>
    rw [if_neg Bool.false_ne_true, Hub.pair_putPair_same]
    exact ⟨rfl, rfl, fun _ => rfl, fun hne => absurd hne Bool.false_ne_true, fun hne => absurd hne Bool.false_ne_true, rfl⟩
  | true =>
    rw [if_pos rfl]
    have hpair := h.pair_putPair_same peer { (h.pair peer).offerTaken gen with txPend := some (o.key ^^^ q, start) }
    have hpend := congrArg Pair.txPend hpair
    have hnext := congrArg (fun p : Pair => p.txNext.toNat) hpair
    have hfalse : true ≠ false := by decide
    by_cases hdue : start.toNat ≤ (h.pair peer).txNext.toNat
    · obtain ⟨hturned, hcount, hlines⟩ := Hub.turnTx_shows hpend (hdue.trans_eq hnext.symm)
      rw [hturned, hpair]
      exact ⟨rfl, rfl, fun hne => absurd hne hfalse, fun _ hlt => absurd hdue (Nat.not_le.mpr hlt), fun _ _ => ⟨rfl, rfl, hcount⟩, hlines⟩
    · rw [Hub.turnTx_of_early hpend (hnext.trans_lt (Nat.not_le.mp hdue)), hpair]
      exact ⟨rfl, rfl, fun hne => absurd hne hfalse, fun _ _ => ⟨rfl, rfl, rfl⟩, fun _ hle => absurd hle hdue, rfl⟩

/-- Settles O44: the frames of a key exchange, the repeat of an OFFER, and the rekey's time limit. -/
theorem keysAreExchanged : Obligations.KeysAreExchanged := by
  unfold Obligations.KeysAreExchanged
  refine ⟨fun s p f m gen start o hwf hhead hh hm hx => exec_rxKeyxOffer hwf hhead hh hm hx,
    fun s p f m gen start q o hwf hhead hh hm hx ho hgen hstart hroom => ?_, fun s p o hr hdrbg ho => ?_, fun s p o hr ho hrekey => ?_⟩
  · have hexec := exec_rxKeyxAccept hwf hhead hh hm hx hroom
    have hpair := s.hub.pair_heard_same f.srcHub.toNat
    have hshows := Hub.takeAccept_shows (h := s.hub.heard f.srcHub.toNat) q (by rw [hpair]; exact ho) hgen hstart _ rfl
    rw [hpair] at hshows
    obtain ⟨htxGen, hoffer, hfirst, hearly, hdue, hlines⟩ := hshows
    exact ⟨_, hexec, htxGen, hoffer, hfirst, hearly, hdue, hlines, exec_keepsMem rfl hexec⟩
  · show Becomes (execKeyxRepeat p s) s _
    refine becomes_onHub ?_
    simp only [hr, hdrbg, ho, Bool.false_eq_true, or_self, if_false]
  · show Becomes (execRekeyTimeout p s) s _
    refine becomes_onHub ?_
    simp [hr, ho, hrekey]

end Sys2Proof.Machine
end

section

/-! SUPPORT. The management flash: what is read where bytes were programmed or erased, and elsewhere (R97, R378, R458). -/

namespace Sys2Proof.Machine

/-- A sparse map read after bytes were written one after the other. -/
theorem SMap.get_foldl_zipIdx_set (d : Nat → Byte) (base : Nat) (l : List Byte) (n : Nat) (m : SMap Byte) (x : Nat) :
    SMap.get d ((l.zipIdx n).foldl (fun m b => SMap.set d m (base + b.2) b.1) m) x =
      if base + n ≤ x ∧ x < base + n + l.length then l.getD (x - (base + n)) 0 else SMap.get d m x := by
  induction l generalizing n m with
  | nil => rw [if_neg (by simp only [List.length_nil]; omega)]; rfl
  | cons b l ih =>
    rw [List.zipIdx_cons, List.foldl_cons, ih, SMap.get_set]
    rcases Nat.lt_trichotomy x (base + n) with hlt | rfl | hgt
    · rw [if_neg (by omega), if_neg (by omega), if_neg (by omega)]
    · rw [if_neg (by omega), if_pos rfl, if_pos (by simp), Nat.sub_self]
      rfl
    · have hstep : x - (base + n) = x - (base + (n + 1)) + 1 := by omega
      rw [if_neg (by omega : ¬x = base + n), hstep, List.getD_cons_succ, List.length_cons]
      exact if_congr (by omega) rfl rfl

theorem SMap.get_dropIf (d : Nat → Byte) (p : Nat → Bool) (m : SMap Byte) (x : Nat) :
    SMap.get d (SMap.dropIf p m) x = if p x then d x else SMap.get d m x := by
  induction m with
  | nil => simp [SMap.dropIf]
  | cons e m ih =>
    have hdrop : SMap.dropIf p (e :: m) = if p e.1 then SMap.dropIf p m else e :: SMap.dropIf p m := by
      cases hp : p e.1 <;> simp [SMap.dropIf, hp]
    rw [hdrop]
    by_cases hx : e.1 = x
    · subst hx
      cases hp : p e.1
      · simp [SMap.get]
      · simp [ih, hp]
    · cases hp : p e.1 <;> simp [SMap.get, hx, ih]

/-- A byte of the flash after a run of bytes was programmed. -/
theorem Hub.flashByte_putFlash (h : Hub) (a : Nat) (bs : List Byte) (x : Nat) : (h.putFlash a bs).flashByte x =
    if a ≤ x ∧ x < a + bs.length then bs.getD (x - a) 0 else h.flashByte x :=
  SMap.get_foldl_zipIdx_set (fun _ => 0xFF) a bs 0 h.flash x

/-- A byte of the flash after an erasure. -/
theorem Hub.flashByte_eraseFlash (h : Hub) (a n x : Nat) : (h.eraseFlash a n).flashByte x =
    if a ≤ x ∧ x < a + n then 0xFF else h.flashByte x := by
  rw [Hub.flashByte, Hub.eraseFlash, SMap.get_dropIf, Hub.flashByte]
  exact if_congr (by simp) rfl rfl

theorem Hub.flashByte_of_flash {g h : Hub} (e : g.flash = h.flash) (x : Nat) : g.flashByte x = h.flashByte x := by
  rw [Hub.flashByte, e, Hub.flashByte]

theorem Hub.flashBytes_of_flash {g h : Hub} (e : g.flash = h.flash) (a n : Nat) : g.flashBytes a n = h.flashBytes a n := by
  simp only [Hub.flashBytes, Hub.flashByte_of_flash e]

/-- The bytes programmed are the bytes read back. -/
theorem Hub.flashBytes_putFlash_same (h : Hub) (a : Nat) (bs : List Byte) : (h.putFlash a bs).flashBytes a bs.length = bs := by
  refine List.ext_getElem (by simp [Hub.flashBytes]) fun i _ hi => ?_
  simp [Hub.flashBytes, Hub.flashByte_putFlash, hi]

/-- Bytes programmed elsewhere leave a run of bytes as it was. -/
theorem Hub.flashBytes_putFlash_apart (h : Hub) {a b n : Nat} (bs : List Byte) (hapart : b + n ≤ a ∨ a + bs.length ≤ b) :
    (h.putFlash a bs).flashBytes b n = h.flashBytes b n := by
  refine List.map_congr_left fun i hi => ?_
  have hlt := List.mem_range.mp hi
  rw [Hub.flashByte_putFlash, if_neg (by omega)]

end Sys2Proof.Machine
end

section

/-! SUPPORT. Messages of the management network: O46. -/

namespace Sys2Proof.Machine

theorem Becomes.keepsMem {i : Instr} {s : State} {h : Hub} (hi : i.writesStacks = false) (e : Becomes (exec i s) s h) :
    h.mem = s.hub.mem := exec_keepsMem hi e

/-! SPDM requests (R385, R387) -/

theorem Hub.spdm_getVersion {h : Hub} (f : Fuses) (hdeaf : h.mgmtDeaf = false) :
    h.spdm f .getVersion = h.reply (.versions [(1, 3)]) := by
  simp [Hub.spdm, hdeaf, Hub.spdmAnswer]

theorem Hub.spdm_beforeS1 {h : Hub} (f : Fuses) {c : SpdmCode} (hdeaf : h.mgmtDeaf = false) (hc : c ≠ .getVersion)
    (hboot : h.boot.ended < 2) :
    h.spdm f c = h.reply (if h.fld pBoot 0x40 8 1 = 1 then .unspecified else .responseNotReady 14 13) := by
  simp [Hub.spdm, hdeaf, hc, hboot]

theorem Hub.spdm_coreReset {h : Hub} (f : Fuses) {c : SpdmCode} (hdeaf : h.mgmtDeaf = false) (hc : c ≠ .getVersion)
    (hboot : 2 ≤ h.boot.ended) (hcore : h.sec.coreReset = true) : h.spdm f c = h.reply (.responseNotReady 14 13) := by
  simp [Hub.spdm, hdeaf, hc, Nat.not_lt.mpr hboot, hcore]

/-- From the end of S1 on, a request meets the responder unless the core resets. -/
theorem Hub.spdm_served {h : Hub} (f : Fuses) (c : SpdmCode) (hdeaf : h.mgmtDeaf = false) (hboot : 2 ≤ h.boot.ended)
    (hcore : h.sec.coreReset = false) : h.spdm f c = h.spdmAnswer f c := by
  simp [Hub.spdm, hdeaf, Nat.not_lt.mpr hboot, hcore]

/-! Updates (R382) -/

/-- An update given up leaves none under way, nothing staged, and PENDING clear; the slot's header goes where one had begun. -/
theorem Hub.dropUpdate_shows (h : Hub) : h.dropUpdate.sec = { h.sec with update := 0, staged := [] } ∧
    h.dropUpdate.fld pSec 0x48 1 1 = 0 := by
  have hsec (g : Hub) (hg : g.sec = h.sec) :
      ((g.setSec { g.sec with update := 0, staged := [] }).wrFld pSec 0x48 1 1 0).sec = { h.sec with update := 0, staged := [] } := by
    simp [hg]
  refine ⟨hsec _ ?_, ?_⟩
  · split <;> simp
  · rw [Hub.dropUpdate, Hub.fld, Hub.rd_wrFld, if_pos rfl, bitsNat_putBits _ _ (by decide), Nat.zero_mod]

theorem Hub.replyContent_sec (h : Hub) : h.replyContent.sec =
    { h.sec with answers := h.sec.answers + 1, mgmtOut := h.sec.mgmtOut ++ [.content (Config.mgmtAnswer h.sec.answers)] } := rfl

theorem Hub.fld_replyContent (h : Hub) (p o lo n : Nat) : h.replyContent.fld p o lo n = h.fld p o lo n := rfl

theorem Hub.flash_replyContent (h : Hub) : h.replyContent.flash = h.flash := rfl

/-- An answered ENDSESSION closes a session, and gives up the update it carried or that has none left. -/
theorem Hub.endSession_shows {h : Hub} (f : Fuses) (own : Bool) (hopen : h.sec.sessions ≠ 0) :
    ((h.spdmAnswer f (.endSession own)).sec.sessions = h.sec.sessions - 1) ∧
    (h.spdmAnswer f (.endSession own)).sec.update = (if own = true ∨ h.sec.sessions = 1 then 0 else h.sec.update) ∧
    (h.spdmAnswer f (.endSession own)).sec.mgmtOut = h.sec.mgmtOut ++ [.content (Config.mgmtAnswer h.sec.answers)] := by
  simp only [Hub.spdmAnswer, if_neg hopen, Hub.replyContent_sec]
  split
  · rw [(Hub.dropUpdate_shows _).1]
    exact ⟨rfl, rfl, rfl⟩
  · exact ⟨rfl, rfl, rfl⟩

section
variable {h : Hub} (hdeaf : h.mgmtDeaf = false) (hboot : 2 ≤ h.boot.ended)
include hdeaf hboot

theorem Hub.pldm_held (hcore : h.sec.coreReset = true) (inSession : Bool) (f : Hub → Hub) : h.pldm inSession f = h.holdMsg false := by
  simp [Hub.pldm, hdeaf, Nat.not_lt.mpr hboot, hcore]

theorem Hub.pldm_inSession (hcore : h.sec.coreReset = false) (hopen : h.sec.sessions ≠ 0) (f : Hub → Hub) : h.pldm true f = f h := by
  simp [Hub.pldm, hdeaf, Nat.not_lt.mpr hboot, hcore, hopen]

end

/-- The slot that image data go to, erased before the first of them. -/
def Hub.staging (h : Hub) : Hub :=
  if h.sec.update = 1 then h.eraseFlash (slotBase (1 - h.fld pSec 0x48 0 1)) 0x1000000 else h

/-- Image data that are not the last are programmed in the slot not running. -/
theorem Hub.stageData_more {h : Hub} (f : Fuses) (off : Nat) (data : List Byte) (hup : h.sec.update = 1 ∨ h.sec.update = 2) :
    h.stageData f off data false = ((h.staging.setSec { h.staging.sec with update := 2 }).putFlash
      (slotBase (1 - h.fld pSec 0x48 0 1) + off) (data.take (0x1000000 - off))).replyContent := by
  have hunder : ¬(h.sec.update ≠ 1 ∧ h.sec.update ≠ 2) := fun ⟨h1, h2⟩ => hup.elim h1 h2
  simp only [Hub.stageData, if_neg hunder, Bool.not_false, if_true]
  rfl

/-- Outside the slot not running, image data leave the flash as it was; in it, they are what is read. -/
theorem Hub.stageData_flash {h : Hub} (f : Fuses) (off : Nat) (data : List Byte) (hup : h.sec.update = 1 ∨ h.sec.update = 2) {base : Nat}
    (hbase : slotBase (1 - h.fld pSec 0x48 0 1) = base) :
    (∀ i, i < data.length → off + i < 0x1000000 → (h.stageData f off data false).flashByte (base + off + i) = data.getD i 0) ∧
    ∀ a, a < base ∨ base + 0x1000000 ≤ a → (h.stageData f off data false).flashByte a = h.flashByte a := by
  have hstaging (a : Nat) (ha : a < base ∨ base + 0x1000000 ≤ a) : h.staging.flashByte a = h.flashByte a := by
    unfold Hub.staging
    split
    · rw [hbase, Hub.flashByte_eraseFlash, if_neg (by omega)]
    · rfl
  rw [Hub.stageData_more f off data hup, hbase]
  refine ⟨fun i hi hfit => ?_, fun a ha => ?_⟩
  · rw [Hub.flashByte_of_flash (Hub.flash_replyContent _), Hub.flashByte_putFlash, if_pos (by rw [List.length_take]; omega),
      Nat.add_sub_cancel_left, List.getD_eq_getElem?_getD, List.getElem?_take_of_lt (by omega), List.getD_eq_getElem?_getD]
  · rw [Hub.flashByte_of_flash (Hub.flash_replyContent _), Hub.flashByte_putFlash, if_neg (by rw [List.length_take]; omega),
      ← hstaging a ha]
    rfl

theorem Hub.writeBootRecord_keeps (h : Hub) (active pend : Nat) : (h.writeBootRecord active pend).regs = h.regs ∧
    (h.writeBootRecord active pend).sec = h.sec ∧ (h.writeBootRecord active pend).journal = h.journal := by
  unfold Hub.writeBootRecord
  split
  simp

/-- The hub once a verified image is to be started: the boot record names it, and the core resets. -/
def Hub.activated (h : Hub) : Hub :=
  let g := (h.writeBootRecord h.bootRecord.1 1).replyContent
  g.setSec { g.sec with coreReset := true, sessions := 0 }

theorem Hub.activated_shows (h : Hub) :
    h.activated.sec.coreReset = true ∧ h.activated.sec.sessions = 0 ∧ h.activated.regs = h.regs := by
  obtain ⟨hregs, -, -⟩ := h.writeBootRecord_keeps h.bootRecord.1 1
  unfold Hub.activated
  generalize h.writeBootRecord h.bootRecord.1 1 = g at hregs ⊢
  exact ⟨rfl, rfl, hregs⟩

section
variable {s : State} (hdeaf : s.hub.mgmtDeaf = false) (hboot : 2 ≤ s.hub.boot.ended) (hcore : s.hub.sec.coreReset = false)
include hdeaf hboot hcore

/-- What the responder answers in service, request by request. -/
theorem spdmRequest_served (c : SpdmCode) : Ends (exec (.spdmRequest c) s) fun t => t.hub.mem = s.hub.mem ∧
      (c = .getCapabilities → t.hub = s.hub.reply
        (.capabilities [.cert, .chal, .measSig, .keyEx, .mutAuth, .encrypt, .mac, .hbeat, .keyUpd])) ∧
      (c = .negotiateAlgorithms → t.hub = s.hub.reply
        (.algorithms .ecdsaP384 .ecdsaP384 .sha384 .sha384 .secp384r1 .aes256Gcm)) ∧
      (c = .getCertificate → t.hub = s.hub.reply (.certificate (s.hub.flashBytes 0x3010000 0x100000))) ∧
      (c = .getMeasurements → ∃ ms, t.hub = s.hub.reply (.measurements ms) ∧ ms.length = 6 ∧
        ∀ i, i < 6 → ms[i]? = some (s.hub.measurement s.fuses (i + 1))) ∧
      (c = .getDigests ∨ c = .challenge → t.hub = s.hub.replyContent) ∧
      (∀ root, c = .openSession root →
        if root.any s.hub.anchors.contains ∧ s.hub.sec.sessions < 2 then
          t.hub = (s.hub.setSec { s.hub.sec with sessions := s.hub.sec.sessions + 1 }).reply .sessionOpen
        else t.hub = s.hub.reply .spdmError) ∧
      (∀ own, c = .endSession own → s.hub.sec.sessions ≠ 0 → t.hub.sec.sessions = s.hub.sec.sessions - 1 ∧
        t.hub.sec.update = (if own = true ∨ s.hub.sec.sessions = 1 then 0 else s.hub.sec.update) ∧
        t.hub.sec.mgmtOut = s.hub.sec.mgmtOut ++ [.content (Config.mgmtAnswer s.hub.sec.answers)]) ∧
      (c = .other → s.hub.sec.sessions ≠ 0 → t.hub = s.hub.replyContent) ∧
      ((∃ own, c = .endSession own) ∨ c = .other → s.hub.sec.sessions = 0 → t.hub = s.hub.reply .spdmError) := by
  refine ⟨_, rfl, exec_keepsMem (i := .spdmRequest c) rfl rfl, ?_⟩
  dsimp only
  rw [Hub.spdm_served s.fuses c hdeaf hboot hcore]
  refine ⟨?_, ?_, ?_, ?_, ?_, ?_, ?_, ?_, ?_⟩
  · rintro rfl; rfl
  · rintro rfl; rfl
  · rintro rfl; rfl
  · rintro rfl
    exact ⟨_, rfl, by simp, fun i hi => by simp [hi]⟩
  · rintro (rfl | rfl) <;> rfl
  · rintro root rfl
    simp only [Hub.spdmAnswer]
    split <;> rfl
  · rintro own rfl hopen
    exact Hub.endSession_shows s.fuses own hopen
  · rintro rfl hopen
    exact if_neg hopen
  · rintro (⟨own, rfl⟩ | rfl) hclosed <;> exact if_pos hclosed

theorem pldm_becomes {f : Hub → Hub} (hopen : s.hub.sec.sessions ≠ 0) : Becomes (onHub s (fun h => h.pldm true f)) s (f s.hub) :=
  becomes_onHub (Hub.pldm_inSession hdeaf hboot hcore hopen f)

/-- The boot record with PENDING = 1 written and the core's reset begun (R382 step 5, R383). -/
theorem pldmActivateFirmware_becomes (hopen : s.hub.sec.sessions ≠ 0) (hverified : s.hub.sec.update = 3) :
    Becomes (exec (.pldmActivateFirmware true) s) s s.hub.activated := by
  show Becomes (execPldmActivateFirmware true s) s _
  refine becomes_onHub ?_
  rw [Hub.pldm_inSession hdeaf hboot hcore hopen]
  exact if_neg (not_not.mpr hverified)

end

/-- Settles O46: SPDM requests by the state they meet, the steps of an update, discovery, MCTP control and ENTDAA. -/
theorem managementNetwork : Obligations.ManagementNetwork := by
  unfold Obligations.ManagementNetwork
  refine ⟨fun s c hdeaf => ⟨?_, fun hc hboot => ?_, fun hc hboot hcore => ?_, fun hboot hcore => ?_⟩,
    fun s x inSession hdeaf hboot hcore => ⟨?_, ?_⟩, fun s hdeaf hboot hcore hopen => ?_,
    fun s off data hdeaf hboot hcore hopen hup => ?_, fun s hdeaf hboot hcore hopen hverified => ?_,
    fun s hdeaf hboot hcore hopen => ?_, fun s x hdeaf hboot hcore => ?_, fun s x hdeaf => ?_, fun s a hdeaf => ?_⟩
  · rintro rfl
    exact becomes_onHub (f := fun h => h.spdm s.fuses .getVersion) (Hub.spdm_getVersion s.fuses hdeaf)
  · exact becomes_onHub (f := fun h => h.spdm s.fuses c) (Hub.spdm_beforeS1 s.fuses hdeaf hc hboot)
  · exact becomes_onHub (f := fun h => h.spdm s.fuses c) (Hub.spdm_coreReset s.fuses hdeaf hc hboot hcore)
  · exact spdmRequest_served hdeaf hboot hcore c
  · show Becomes (execPldmRequestUpdate inSession s) s _
    exact becomes_onHub (Hub.pldm_held hdeaf hboot hcore inSession _)
  · show Becomes (execPldmDiscovery x s) s _
    refine becomes_onHub ?_
    simp [hdeaf, Nat.not_lt.mpr hboot, hcore]
  · obtain ⟨hsec, hpending⟩ := s.hub.dropUpdate_shows
    have hexec : Becomes (exec (.pldmRequestUpdate true) s) s _ := pldm_becomes hdeaf hboot hcore hopen
    refine ⟨_, hexec, ?_, ?_, ?_, hexec.keepsMem rfl⟩
    · rw [Hub.replyContent_sec]
      rfl
    · rw [Hub.replyContent_sec]
      exact congrArg Sec.staged hsec
    · rw [Hub.fld_replyContent, Hub.fld_of_rd (Hub.rd_of_regs (h := s.hub.dropUpdate) (by simp) _ _) _ _, hpending]
  · have hexec : Becomes (exec (.pldmFirmwareData true off data false) s) s _ := pldm_becomes hdeaf hboot hcore hopen
    obtain ⟨hin, hout⟩ := Hub.stageData_flash s.fuses off.toNat data hup rfl
    refine ⟨_, hexec, ?_, hexec.keepsMem rfl, hin, hout⟩
    dsimp only
    rw [Hub.stageData_more s.fuses _ data hup]
    rfl
  · have hexec := pldmActivateFirmware_becomes hdeaf hboot hcore hopen hverified
    obtain ⟨hcore', hclosed, hregs⟩ := s.hub.activated_shows
    exact ⟨_, hexec, hcore', hclosed, hregs, hexec.keepsMem rfl⟩
  · obtain ⟨hsec, hpending⟩ := s.hub.dropUpdate_shows
    have hexec : Becomes (exec (.pldmCancelUpdate true) s) s _ := pldm_becomes hdeaf hboot hcore hopen
    refine ⟨_, hexec, ?_, ?_, (Hub.fld_replyContent ..).trans hpending, hexec.keepsMem rfl⟩
    · rw [Hub.replyContent_sec, hsec]
    · rw [Hub.replyContent_sec, hsec]
  · show Becomes (execPldmDiscovery x s) s _
    refine becomes_onHub ?_
    simp [hdeaf, Nat.not_lt.mpr hboot, hcore]
  · show Becomes (execMctpControlMessage x s) s _
    refine becomes_onHub ?_
    simp [hdeaf]
  · show Becomes (execEntdaa a s) s _
    refine becomes_onHub ?_
    simp [hdeaf]

end Sys2Proof.Machine
end

section

/-! SUPPORT. The management core's restart with an operation of the SEC page waiting for it: O47. -/

namespace Sys2Proof.Machine

/-- The hub once the core runs the image of a slot, the activation's outcome recorded (R382 step 6, R383). -/
def Hub.coreStarted (h : Hub) (f : Fuses) (slot : Nat) : Hub :=
  let fell : Bool := decide (slot = h.fld pSec 0x48 0 1)
  let g := ((h.setSec { h.sec with coreReset := false, sessions := 0 }).startImage f slot fell).writeBootRecord slot 0
  let g := if fell then g.raise pSec 4 else g
  (g.submit 0x13 true [BitVec.ofNat 8 slot, BitVec.ofNat 8 (g.fld pSec 0x48 8 7), if fell then 1 else 0]).answerHeld

theorem Hub.coreRestart_of_pick {h : Hub} {f : Fuses} {slot : Nat} {again : Bool} (hcore : h.sec.coreReset = true)
    (hr : h.inReset = false) (hpick : h.romPick f = some (slot, again)) : h.coreRestart f = h.coreStarted f slot := by
  simp only [Hub.coreRestart, hcore, hr, hpick, Bool.not_true, Bool.false_eq_true, or_self, if_false]
  rfl

/-- A state with the core in its reset for an activation, and a FUSE_SVN that waits for the restart (R383). -/
def fuseWaiting (s : State) : State :=
  { s with hub := (s.hub.setSec { s.hub.sec with coreReset := true }).putLongOp pSec (some ⟨4, notBegun, 0, true⟩) }

theorem Hub.bootCopy_of_flash {g h : Hub} (e : g.flash = h.flash) (x : Nat) : g.bootCopy x = h.bootCopy x := by
  unfold Hub.bootCopy Hub.flashWord
  simp only [Hub.flashBytes_of_flash e]

theorem Hub.imageOk_of_flash {g h : Hub} (e : g.flash = h.flash) (f : Fuses) (slot : Nat) : g.imageOk f slot = h.imageOk f slot := by
  unfold Hub.imageOk Hub.imageBody Hub.flashWord
  simp only [Hub.flashBytes_of_flash e]

/-- The ROM's choice comes from the flash and the fuses alone (R380). -/
theorem Hub.romPick_of_flash {g h : Hub} (e : g.flash = h.flash) (f : Fuses) : g.romPick f = h.romPick f := by
  have hrecord : g.bootRecord = h.bootRecord := by
    unfold Hub.bootRecord
    rw [Hub.bootCopy_of_flash e, Hub.bootCopy_of_flash e]
  have himage : g.imageOk f = h.imageOk f := funext fun slot => Hub.imageOk_of_flash e f slot
  unfold Hub.romPick
  rw [hrecord, himage]

theorem romPick_fuseWaiting (s : State) : (fuseWaiting s).hub.romPick (fuseWaiting s).fuses = s.hub.romPick s.fuses := by
  rw [show (fuseWaiting s).fuses = s.fuses from rfl, Hub.romPick_of_flash (g := (fuseWaiting s).hub) (h := s.hub) rfl]

/-- An image of SVN 3 starts while F = 0: the FUSE_SVN that waited leaves its FUSE entry last in the queue (R381). -/
theorem fuse_entry_is_last : (((fuseWaiting Tests.imaged).hub.coreStarted Tests.imaged.fuses 0).secResume
    Tests.imaged.fuses).journal.queue.getLast?.map JEntry.typ = some 0x0A := by decide +kernel

theorem imaged_quiet : Tests.imaged.hub.inReset = false ∧ Tests.imaged.hub.journalFull = false := by decide +kernel

/-- Refutes O47: the core's restart is recorded, but an operation of the SEC page that waited for it begins in the same step, and a FUSE_SVN
leaves its own entry behind the activation's (R381, R383). -/
theorem not_coreGeneratorAndWipes : ¬ Obligations.CoreGeneratorAndWipes := by
  unfold Obligations.CoreGeneratorAndWipes
  rintro ⟨hcore, -⟩
  obtain ⟨hr, hroom⟩ := imaged_quiet
  have hlast := fuse_entry_is_last
  have hpick := Tests.witness_StagesEnd_2_image.2
  generalize Tests.imaged = s at hr hroom hlast hpick
  have hstart := Hub.coreRestart_of_pick (h := (fuseWaiting s).hub) rfl hr ((romPick_fuseWaiting s).trans hpick)
  obtain ⟨t, hexec, hstarts, -, -⟩ := hcore (fuseWaiting s) rfl hr hroom
  obtain ⟨-, -, -, -, -, svn, fell, e, he, htyp, -⟩ := hstarts 0 false ((romPick_fuseWaiting s).trans hpick)
  have ht : t.hub = ((fuseWaiting s).hub.coreStarted s.fuses 0).secResume s.fuses := by
    have hnext := onHub_next.mp (show execMgmtCoreReset (fuseWaiting s) = .next t from hexec)
    rw [hnext]
    dsimp only
    rw [Hub.withRoom_free (h := (fuseWaiting s).hub) _ hroom, hstart]
    rfl
  rw [ht] at he
  rw [he, Option.map_some, htyp] at hlast
  exact absurd hlast (by decide)

end Sys2Proof.Machine
end

section

/-! SUPPORT. The stages of the bring-up: O10. -/

namespace Sys2Proof.Machine

theorem flag_le_one (p : Prop) [Decidable p] : (if p then 0 else 1) ≤ 1 := by split <;> omega

/-! Reports (R400, R401, R414) -/

@[simp] theorem Hub.putBoot_keeps (h : Hub) (lo n v : Nat) : (h.putBoot lo n v).boot = h.boot ∧ (h.putBoot lo n v).pins = h.pins ∧
    (h.putBoot lo n v).therm = h.therm ∧ (h.putBoot lo n v).sec = h.sec ∧ (h.putBoot lo n v).ops = h.ops := by simp [Hub.putBoot]

/-- A report word holds the next stage until its commit. -/
theorem Hub.writeReport_boot (h : Hub) (r result detail : Nat) (fast : Bool) :
    (h.writeReport r result detail fast).boot = { h.boot with waitCommit := true } := by
  unfold Hub.writeReport
  dsimp only
  split <;> split <;> simp

/-- A report waits for its commit, but for a stage that is not the last of a legacy one. -/
theorem Hub.report_boot (h : Hub) (n result detail : Nat) : (h.report n result detail).boot =
    { h.boot with waitCommit := h.boot.waitCommit || !h.pins.bootSeq || (legacyReport n).isSome } := by
  unfold Hub.report
  dsimp only
  cases hseq : h.pins.bootSeq with
  | false => simp [Hub.writeReport_boot]
  | true =>
    cases hlegacy : legacyReport n with
    | none => simp
    | some r => simp [Hub.writeReport_boot]

/-- Between stages, but for the opening of the ports, no stage ends. -/
theorem Hub.proceed_boot {h : Hub} (hopen : h.boot.waitCommit = true ∨ h.boot.ended ≠ 7) :
    ∃ go, h.proceed.boot = { h.boot with go := go } := by
  unfold Hub.proceed
  dsimp only
  split
  · exact ⟨_, rfl⟩
  · next hgoes =>
    split
    · next hseven =>
      exact absurd hseven.1 (hopen.resolve_left fun hwait => hgoes (.inr (.inl hwait)))
    · split
      · exact ⟨_, rfl⟩
      · split
        · exact ⟨true, by simp⟩
        · split
          · exact ⟨_, rfl⟩
          · split
            · exact ⟨h.boot.go, by simp⟩
            · exact ⟨true, by simp⟩

/-- A stage that ends: the next one is due, unless S1 waits for an image or S7 for its commit, and its result is the last. -/
theorem Hub.endStage_boot (h : Hub) {n : Nat} (hn : n < 8) (result detail : Nat) :
    (h.endStage n result detail).boot.ended = (if (n = 1 ∧ result = 3) ∨ n = 7 then n else n + 1) ∧
    (h.endStage n result detail).boot.results.getLast? = some (result, detail) := by
  unfold Hub.endStage
  extract_lets stays b g
  have hreport := g.report_boot n result detail
  have hended : g.boot.ended = if (n = 1 ∧ result = 3) ∨ n = 7 then n else n + 1 := by simp [g, stays]
  have hresults : g.boot.results.getLast? = some (result, detail) := by simp [g]
  have hopen : (g.report n result detail).boot.waitCommit = true ∨ (g.report n result detail).boot.ended ≠ 7 := by
    rw [hreport]
    dsimp only
    rw [hended]
    by_cases hlast : n = 6 ∨ n = 7
    · rcases hlast with rfl | rfl <;> exact .inl (by simp [legacyReport])
    · right
      split <;> omega
  obtain ⟨go, hproceed⟩ := Hub.proceed_boot hopen
  rw [hproceed, hreport]
  exact ⟨hended, hresults⟩

theorem Hub.rd_submit_setBoot (h : Hub) (typ : Nat) (critical : Bool) (payload : List Byte) (b : Boot) (p o : Nat) :
    ((h.submit typ critical payload).setBoot b).rd p o = h.rd p o := rfl

/-- Beside its own word, a report changes the interrupt causes and the status of the page. -/
theorem Hub.rd_writeReport (h : Hub) (r result detail : Nat) (fast : Bool) {o : Nat} (hirq : o ≠ 0x10) (hstatus : o ≠ 0x40) :
    (h.writeReport r result detail fast).rd pBoot o = if o = 0x60 + 4 * r then BitVec.ofNat 32
      (r + (if h.pins.bootSeq then 16 else 0) + (if fast then 32 else 0) + 256 * result + 65536 * (detail % 65536)) else h.rd pBoot o := by
  have hstop (g : Hub) : (if result = 3 then g.putBoot 8 1 1 else g).rd pBoot o = g.rd pBoot o := by
    split
    · rw [Hub.putBoot, Hub.rd_wrFld, if_neg (by omega)]
    · rfl
  have hcause (g : Hub) : (if result = 1 ∨ result = 3 then g.raise pBoot 3 else g).rd pBoot o = g.rd pBoot o := by
    split
    · exact g.rd_raise_ne 3 hirq
    · rfl
  unfold Hub.writeReport
  dsimp only
  rw [Hub.rd_submit_setBoot, hstop, hcause, Hub.rd_raise_ne _ _ hirq, Hub.rd_wr]
  exact if_congr (by omega) rfl rfl

theorem Hub.pins_writeReport (h : Hub) (r result detail : Nat) (fast : Bool) :
    (h.writeReport r result detail fast).pins = h.pins := by
  unfold Hub.writeReport
  dsimp only
  split <;> split <;> simp

/-- The report of S7 is written in either order, and waits for its commit. -/
theorem Hub.report_seven (h : Hub) (detail : Nat) : (h.report 7 0 detail).boot.waitCommit = true ∧
    (h.report 7 0 detail).reported7 = true ∧ (h.report 7 0 detail).rd pBoot 0x5C = h.rd pBoot 0x5C := by
  have hword (r m : Nat) (hr : r = 4 ∨ r = 7) (hm : m % 16 = 0) : BitVec.ofNat 32 (r + m) ≠ 0 := by
    intro hzero
    have hmod : (r + m) % 2 ^ 32 = 0 := by simpa using congrArg BitVec.toNat hzero
    omega
  have hreported (r result d : Nat) (fast : Bool) (hr : r = 4 ∨ r = 7) (ho : (if h.pins.bootSeq then 0x70 else 0x7C) = 0x60 + 4 * r) :
      (h.writeReport r result d fast).reported7 = true := by
    rw [Hub.reported7, Hub.pins_writeReport, ho, Hub.rd_writeReport _ _ _ _ _ (by omega) (by omega), if_pos rfl, decide_eq_true_eq]
    rw [Nat.add_assoc, Nat.add_assoc, Nat.add_assoc]
    exact hword r _ hr (by split <;> split <;> omega)
  have hduration (r result d : Nat) (fast : Bool) : (h.writeReport r result d fast).rd pBoot 0x5C = h.rd pBoot 0x5C := by
    rw [Hub.rd_writeReport _ _ _ _ _ (by decide) (by decide), if_neg (by omega)]
  refine ⟨by simp [Hub.report_boot, legacyReport], ?_⟩
  unfold Hub.report
  dsimp only
  split
  · next hlegacy =>
    exact ⟨hreported 4 _ _ _ (.inl rfl) (by rw [if_pos hlegacy]), hduration ..⟩
  · next hnative =>
    exact ⟨hreported 7 _ _ _ (.inr rfl) (by rw [if_neg hnative]), hduration ..⟩

theorem Hub.proceed_of_waiting {h : Hub} (hwait : h.boot.waitCommit = true) : h.proceed = h := by
  unfold Hub.proceed
  rw [if_pos (.inr (.inl hwait))]

/-- S7 ends with its report, which waits for its commit (R400). -/
theorem Hub.endStage_seven (h : Hub) (detail : Nat) : (h.endStage 7 0 detail).boot.waitCommit = true ∧
    (h.endStage 7 0 detail).reported7 = true ∧ (h.endStage 7 0 detail).rd pBoot 0x5C = h.rd pBoot 0x5C := by
  unfold Hub.endStage
  extract_lets stays b g
  obtain ⟨hwait, hreported, hduration⟩ := g.report_seven detail
  rw [Hub.proceed_of_waiting hwait]
  exact ⟨hwait, hreported, hduration⟩

/-! S2 (R403, R404) -/

/-- A stack that is found or dropped keeps its TIMING registers. -/
theorem Hub.rd_identify (h : Hub) (st cause st' : Nat) {o : Nat} (hfar : 0x60 ≤ o) (ho : o < 4096) :
    (h.identify st cause).rd (pStk st') o = h.rd (pStk st') o := by
  unfold Hub.identify
  dsimp only
  rw [Hub.rd_wrFld, if_neg (by unfold pStk; omega), Hub.rd_of_regs (h := h.wrFld pBoot 0x50 (4 * st) 4 cause) (by simp), Hub.rd_wrFld,
    if_neg (by unfold pStk pBoot; omega)]

theorem timingFields_range : ∀ f ∈ timingFields, 0x60 ≤ f.1 ∧ f.1 < 4096 := by decide

theorem Hub.zeroTiming_of_rd {g h : Hub} {st : Nat} (e : ∀ o, 0x60 ≤ o → o < 4096 → g.rd (pStk st) o = h.rd (pStk st) o) :
    g.zeroTiming st = h.zeroTiming st := by
  rw [Bool.eq_iff_iff]
  simp only [Hub.zeroTiming, List.any_eq_true]
  refine exists_congr fun f => and_congr_right fun hf => ?_
  rw [Hub.fld, e _ (timingFields_range f hf).1 (timingFields_range f hf).2, Hub.fld]

/-- With no zero field in the TIMING registers of a fitted stack, S2 ends. -/
theorem Hub.endS2_ends {h : Hub} (htiming : ∀ st, st < 8 → h.zeroTiming st = false) : (h.endS2).boot.ended = 3 ∧
    ∃ result detail, h.endS2.boot.results.getLast? = some (result, detail) ∧ result ≤ 1 := by
  have hheld : maskOf (h.populated.filter (fun st => h.zeroTiming st)) = 0 := by
    rw [List.filter_eq_nil_iff.mpr fun st hst => ?_]
    · rfl
    · have hlt := List.mem_range.mp (List.mem_filter.mp hst).1
      simp [htiming st hlt]
  have hresult (g : Hub) (detail : Nat) : (g.endStage 2 (if (h.putBoot 6 1 0).fld pBoot 0x4C 8 8 = 0 then 0 else 1) detail).boot.ended = 3 ∧
      ∃ result detail', (g.endStage 2 (if (h.putBoot 6 1 0).fld pBoot 0x4C 8 8 = 0 then 0 else 1) detail).boot.results.getLast? =
        some (result, detail') ∧ result ≤ 1 := by
    obtain ⟨hended, hlast⟩ := g.endStage_boot (n := 2) (by decide)
      (if (h.putBoot 6 1 0).fld pBoot 0x4C 8 8 = 0 then 0 else 1) detail
    exact ⟨hended.trans (if_neg (by omega)), _, _, hlast, flag_le_one _⟩
  unfold Hub.endS2
  simp only [hheld, ne_eq, not_true_eq_false, if_false]
  split <;> exact hresult _ _

theorem Hub.stageS2_ends {h : Hub} (reports : List StackReport) (htiming : ∀ st, st < 8 → h.zeroTiming st = false) :
    (h.stageS2 reports).boot.ended = 3 ∧
    ∃ result detail, (h.stageS2 reports).boot.results.getLast? = some (result, detail) ∧ result ≤ 1 := by
  unfold Hub.stageS2
  extract_lets fitted of ref h1 src h2 dropped
  refine Hub.endS2_ends fun st hst => ?_
  rw [← htiming st hst]
  refine Hub.zeroTiming_of_rd fun o hfar ho => ?_
  rw [Hub.rd_wr_ne _ _ (by unfold pStk pBoot; omega)]
  have h2regs : h2.regs = h1.regs := by
    simp only [h2]
    clear_value h1 ref
    cases ref <;> simp
  rw [Hub.rd_of_regs h2regs]
  exact List.foldlRecOn fitted _ (motive := fun g : Hub => g.rd (pStk st) o = h.rd (pStk st) o) rfl
    fun g hg i _ => (g.rd_identify i _ st hfar ho).trans hg

/-! The stages (R398, R401) -/

@[simp] theorem Hub.findHead_pins (h : Hub) : h.findHead.pins = h.pins := by
  unfold Hub.findHead
  split <;> simp

/-- A stage whose command ends it shows the next one due and its result. -/
theorem endStage_ends {g : Hub} {n result detail : Nat} (hn : n < 8) (hgoes : ¬((n = 1 ∧ result = 3) ∨ n = 7)) (hresult : result ≤ 1) :
    (g.endStage n result detail).boot.ended = n + 1 ∧
    ∃ result' detail', (g.endStage n result detail).boot.results.getLast? = some (result', detail') ∧ result' ≤ 1 := by
  obtain ⟨hended, hlast⟩ := g.endStage_boot hn result detail
  exact ⟨hended.trans (if_neg hgoes), _, _, hlast, hresult⟩

theorem Hub.stageS6_ends (h : Hub) (up : BitVec 4) (lanes : List (BitVec 8)) : (h.stageS6 up lanes).boot.ended = 7 ∧
    ∃ result detail, (h.stageS6 up lanes).boot.results.getLast? = some (result, detail) ∧ result ≤ 1 := by
  unfold Hub.stageS6
  extract_lets g trained narrow bad
  exact endStage_ends (n := 6) (by decide) (by omega) (Bool.toNat_le bad)

/-- Settles O10, stage by stage. -/
theorem stagesEnd : Obligations.StagesEnd := by
  unfold Obligations.StagesEnd
  refine ⟨⟨fun s hstage => ?_, fun s hstage => ?_, fun s reports hlen hstage hheld htiming => ?_, fun s results hlen hstage => ?_,
    fun s hstage => ?_, fun s links hstage => ?_, fun s up lanes hlen hstage => ?_⟩, fun s hstage hreported => ?_⟩
  · show Ends (execStageS0Rom s) _
    refine ends_onHub ?_
    simp only [hstage, Bool.not_true, Bool.false_eq_true, if_false]
    obtain ⟨hended, hlast⟩ := Hub.endStage_boot (((s.hub.putBoot 9 1 (!s.hub.boot.cold).toNat).putBoot 4 1 s.hub.pins.bootSeq.toNat).findHead)
      (n := 0) (by decide) 0 (s.hub.pins.bootSeq.toNat + 2 * s.hub.pins.fastOk.toNat + 4 * (!s.hub.boot.cold).toNat)
    simp only [Hub.findHead_pins, Hub.putBoot_keeps]
    exact ⟨hended, hlast⟩
  · show Ends (execStageS1Fw s) _
    refine ends_onHub ?_
    simp only [hstage, Bool.not_true, Bool.false_eq_true, if_false]
    refine ⟨fun slot again hpick => ?_, fun hpick => ?_⟩
    · rw [hpick]
      dsimp only
      obtain ⟨hended, hlast⟩ := (s.hub.bootImage s.fuses slot).endStage_boot (n := 1) (by decide) 0
        (slot + 2 * again.toNat + 4 * (s.hub.imageSvn slot % 128))
      exact ⟨hended, _, hlast⟩
    · rw [hpick]
      exact s.hub.endStage_boot (n := 1) (by decide) 3 2
  · refine ⟨_, onHubIf_next.mpr ⟨decide_eq_true hlen, rfl⟩, ?_⟩
    simp only [hstage, hheld, Bool.not_true, Bool.false_eq_true, or_self, if_false]
    exact Hub.stageS2_ends reports htiming
  · refine ⟨_, onHubIf_next.mpr ⟨decide_eq_true hlen, rfl⟩, ?_⟩
    simp only [hstage, if_true]
    exact endStage_ends (by decide) (by omega) (flag_le_one _)
  · show Ends (execStageS4Map s) _
    refine ends_onHub ?_
    simp only [hstage, if_true]
    exact endStage_ends (by decide) (by omega) (flag_le_one _)
  · show Ends (execStageS5Cache true true links s) _
    refine ends_onHub ?_
    simp only [hstage, Bool.not_true, Bool.false_eq_true, or_self, if_false]
    exact Hub.endStage_boot _ (n := 5) (by decide) 0 links.toNat
  · refine ⟨_, onHubIf_next.mpr ⟨decide_eq_true hlen, rfl⟩, ?_⟩
    simp only [hstage, if_true]
    exact s.hub.stageS6_ends up lanes
  · have hexec : Becomes (exec .stageS7Open s) s ((s.hub.wr pBoot 0x5C
        (BitVec.ofNat 32 (min 65535 ((s.hub.now - s.hub.boot.released) / 100000)))).endStage 7 0
          (min 65535 ((s.hub.now - s.hub.boot.released) / 100000))) := by
      show Becomes (execStageS7Open s) s _
      refine becomes_onHub ?_
      simp only [hstage, hreported, Bool.not_true, Bool.false_eq_true, or_self, if_false]
    obtain ⟨hwait, hwritten, hduration⟩ := Hub.endStage_seven (s.hub.wr pBoot 0x5C
      (BitVec.ofNat 32 (min 65535 ((s.hub.now - s.hub.boot.released) / 100000)))) (min 65535 ((s.hub.now - s.hub.boot.released) / 100000))
    exact ⟨_, hexec, hduration.trans (Hub.rd_wr_same ..), hwait, hwritten, hexec.keepsMem rfl⟩

end Sys2Proof.Machine
end

section

/-! SUPPORT. The operations of the BOOT page that begin: O11. -/

namespace Sys2Proof.Machine

/-! Fields of a word -/

theorem bit_putBits_above {w : Nat} (x : BitVec w) {lo n i : Nat} (v : Nat) (hi : lo + n ≤ i) : bit (putBits x lo n v) i = bit x i := by
  have hout (k : Nat) (hk : k < 2 ^ n) : (BitVec.ofNat w (k <<< lo)).getLsbD i = false := by
    rw [BitVec.getLsbD_ofNat, Nat.testBit_shiftLeft,
      Nat.testBit_lt_two_pow (hk.trans_le (Nat.pow_le_pow_right (by decide) (show n ≤ i - lo by omega)))]
    simp
  have hx : x.getLsbD i = true → i < w := BitVec.lt_of_getLsbD
  simp only [bit, putBits, BitVec.getLsbD_or, BitVec.getLsbD_and, BitVec.getLsbD_not,
    hout _ (Nat.sub_lt (Nat.two_pow_pos n) Nat.one_pos), hout _ (Nat.mod_lt v (Nat.two_pow_pos n))]
  simpa using hx

/-! Between stages (R399) -/

/-- Beside the BOOT page's status, and the progress of the bring-up, a stage that is due leaves LOCK of the HUB page and the answer. -/
structure Hub.SameLocks (g h : Hub) : Prop where
  started : bit (g.rd pBoot 0x40) 11 = bit (h.rd pBoot 0x40) 11
  lock : g.rd pHub 0x08 = h.rd pHub 0x08
  mmio : g.mmio = h.mmio

theorem Hub.SameLocks.refl (h : Hub) : h.SameLocks h := ⟨rfl, rfl, rfl⟩

theorem Hub.SameLocks.trans {f g h : Hub} (a : f.SameLocks g) (b : g.SameLocks h) : f.SameLocks h :=
  ⟨a.started.trans b.started, a.lock.trans b.lock, a.mmio.trans b.mmio⟩

theorem Hub.sameLocks_of_regs {g h : Hub} (hregs : g.regs = h.regs) (hmmio : g.mmio = h.mmio) : g.SameLocks h :=
  ⟨by rw [Hub.rd_of_regs hregs], Hub.rd_of_regs hregs _ _, hmmio⟩

theorem Hub.putBoot_sameLocks (h : Hub) {lo n : Nat} (v : Nat) (hn : lo + n ≤ 11) : (h.putBoot lo n v).SameLocks h := by
  refine ⟨?_, ?_, by simp [Hub.putBoot]⟩
  · rw [Hub.putBoot, Hub.rd_wrFld, if_pos rfl, bit_putBits_above _ _ hn]
  · rw [Hub.putBoot, Hub.rd_wrFld, if_neg (by decide)]

theorem Hub.raise_sameLocks (h : Hub) (n : Nat) : (h.raise pBoot n).SameLocks h := by
  refine ⟨?_, ?_, by simp⟩
  · rw [Hub.rd_raise, if_neg (by decide)]
  · rw [Hub.rd_raise, if_neg (by decide)]

theorem Hub.setBoot_sameLocks (h : Hub) (b : Boot) : (h.setBoot b).SameLocks h := Hub.sameLocks_of_regs rfl rfl

theorem Hub.grantAll_sameLocks (h : Hub) : h.grantAll.SameLocks h := by
  refine Hub.sameLocks_of_regs ?_ ?_
  · exact (foldl_keeps Hub.regs _ (by intros; simp) _ _).trans
      ((foldl_keeps Hub.regs _ (by intros; simp) _ _).trans (foldl_keeps Hub.regs _ (by intros; simp) _ _))
  · exact (foldl_keeps Hub.mmio _ (by intros; simp) _ _).trans
      ((foldl_keeps Hub.mmio _ (by intros; simp) _ _).trans (foldl_keeps Hub.mmio _ (by intros; simp) _ _))

theorem Hub.eraseFlash_sameLocks (h : Hub) (a n : Nat) : (h.eraseFlash a n).SameLocks h := Hub.sameLocks_of_regs rfl rfl

theorem Hub.openPorts_sameLocks (h : Hub) : h.openPorts.SameLocks h := by
  unfold Hub.openPorts
  refine (Hub.eraseFlash_sameLocks _ _ _).trans ((Hub.raise_sameLocks _ 4).trans ?_)
  exact (Hub.putBoot_sameLocks _ 1 (by decide)).trans ((Hub.grantAll_sameLocks _).trans (Hub.setBoot_sameLocks _ _))

theorem Hub.proceed_sameLocks (h : Hub) : h.proceed.SameLocks h := by
  unfold Hub.proceed
  dsimp only
  split
  · exact .refl h
  · split
    · exact h.openPorts_sameLocks
    · split
      · exact .refl h
      · split
        · exact (Hub.putBoot_sameLocks _ _ (by decide)).trans (Hub.setBoot_sameLocks _ _)
        · split
          · exact .refl h
          · split
            · exact (Hub.raise_sameLocks _ 2).trans ((Hub.putBoot_sameLocks _ _ (by decide)).trans (Hub.putBoot_sameLocks _ _ (by decide)))
            · exact (Hub.putBoot_sameLocks _ _ (by decide)).trans (Hub.setBoot_sameLocks _ _)

theorem Hub.startEnds_sameLocks (h : Hub) : h.startEnds.SameLocks h := by
  unfold Hub.startEnds
  split
  · split
    · exact Hub.sameLocks_of_regs (by simp) (by simp)
    · exact .refl h
  · exact .refl h

/-! What the start of an operation leaves of the bring-up -/

theorem Hub.bootBit_begun (h : Hub) (page opcode index i : Nat) : (h.begun page opcode index).bootBit i = h.bootBit i := by
  rw [Hub.bootBit, Hub.rd_begun _ _ _ _ (by decide) (by decide), Hub.bootBit]

theorem Hub.stackSel_begun (h : Hub) (page opcode index : Nat) : stackSel (h.begun page opcode index) = stackSel h :=
  h.fld_begun page opcode index 0 3 (by decide) (by decide)

theorem Hub.stackLive_begun (h : Hub) (page opcode index st : Nat) : (h.begun page opcode index).stackLive st = h.stackLive st := by
  simp [Hub.stackLive, Hub.pslab_begun]

/-- START with the profile locked and the bring-up under way. -/
def Hub.bootStarted (h : Hub) : Hub := ((h.putBoot 11 1 1).wrFld pHub 0x08 31 1 1).opWaits pBoot 0

theorem Hub.bootStarted_shows (h : Hub) : bit (h.bootStarted.rd pBoot 0x40) 11 = true ∧ bit (h.bootStarted.rd pHub 0x08) 31 = true ∧
    h.bootStarted.mmio = h.mmio := by
  have hregs : h.bootStarted.regs = ((h.putBoot 11 1 1).wrFld pHub 0x08 31 1 1).regs := by simp [Hub.bootStarted]
  refine ⟨?_, ?_, by simp [Hub.bootStarted, Hub.putBoot]⟩
  · rw [Hub.rd_of_regs hregs, Hub.rd_wrFld, if_neg (by decide), Hub.putBoot, Hub.rd_wrFld, if_pos rfl]
    exact bit_putBits_one _ true (by decide)
  · rw [Hub.rd_of_regs hregs, Hub.rd_wrFld, if_pos rfl]
    exact bit_putBits_one _ true (by decide)

section
variable {s : State} {init : Initiator} (hs : s.hub.starts init .boot pBoot)
include hs

theorem bootStart_becomes (hended : 2 ≤ s.hub.boot.ended) (hnew : s.hub.bootBit 11 = false) :
    Becomes (exec (.bootStart init) s) s (s.hub.begun pBoot 1 0).bootStarted.proceed.startEnds := by
  show Becomes (execBootStart init s) s _
  refine becomes_onHub ?_
  rw [Hub.go_of_starts hs (by decide) (by decide), Hub.startGo, if_neg]
  · rfl
  · simp [Hub.bootBit_begun, hnew, Nat.not_lt.mpr hended]

theorem continue_becomes (hheld : s.hub.bootBit 6 = true) (hgo : s.hub.boot.go = false) : Becomes (exec (.continue_ init) s) s
    ((((s.hub.begun pBoot 2 0).setBoot { s.hub.boot with go := true }).putBoot 0 4 s.hub.boot.ended).putBoot 6 1 0) := by
  show Becomes (execContinue init s) s _
  refine becomes_onHub ?_
  rw [Hub.go_of_starts hs (by decide) (by decide)]
  simp [Hub.continueGo, Hub.bootBit_begun, hheld, hgo]

theorem warmPrepare_becomes (hserves : s.hub.bootBit 7 = true) (hprepared : s.hub.bootBit 10 = false)
    (hstaged : ∀ st, st < 8 → bit (s.hub.rd (pStk st) 0x40) 2 = false)
    (hdma : ∀ c, c < 64 → (s.hub.dmaCh c).st = 0 ∨ (s.hub.dmaCh c).st = 1 ∨ (s.hub.dmaCh c).st = 4 ∨ (s.hub.dmaCh c).st = 6)
    (hepisode : s.hub.therm.episode = false) (hexiting : s.hub.therm.exiting = false) : Becomes (exec (.warmPrepare init) s) s
      ((s.hub.begun pBoot 3 0).setBoot { s.hub.boot with warm := 1 }) := by
  have hnone : (List.range 8).any (fun st => bit ((s.hub.begun pBoot 3 0).rd (pStk st) 0x40) 2) = false := by
    refine List.any_eq_false.mpr fun st hst => ?_
    rw [Hub.rd_begun _ _ _ _ (by decide) (by decide), hstaged st (List.mem_range.mp hst)]
    exact Bool.false_ne_true
  have hidle : (List.range 64).any (fun c => ((s.hub.begun pBoot 3 0).dmaCh c).st == 2 || ((s.hub.begun pBoot 3 0).dmaCh c).st == 3 ||
      ((s.hub.begun pBoot 3 0).dmaCh c).st == 5 || ((s.hub.begun pBoot 3 0).dmaCh c).st == 7) = false := by
    refine List.any_eq_false.mpr fun c hc => ?_
    rw [Hub.dmaCh_begun]
    rcases hdma c (List.mem_range.mp hc) with h | h | h | h <;> rw [h] <;> decide
  show Becomes (execWarmPrepare init s) s _
  refine becomes_onHub ?_
  rw [Hub.go_of_starts hs (by decide) (by decide)]
  simp only [Hub.warmGo, hnone, hidle, Hub.bootBit_begun, hserves, hprepared, Hub.begun_keeps_units, hepisode, hexiting, Hub.begun_keeps,
    Bool.not_true, Bool.false_eq_true, or_self, if_false]

theorem stackReset_becomes {st : Nat} (hsel : stackSel s.hub = st) (hserves : s.hub.bootBit 7 = true) (hprepared : s.hub.bootBit 10 = false)
    (hpop : (s.hub.stack st).populated = true) (hup : s.hub.pins.pdAck.getLsbD st = false) (hlive : s.hub.stackLive st = false) :
    Becomes (exec (.stackReset init) s) s
      ((((s.hub.begun pBoot 4 st).stackOffline st).takeTiming st).submitO 0x26 0 [BitVec.ofNat 8 st, 0, 0]) := by
  have hpop' : ((s.hub.begun pBoot 4 st).stack st).populated = true := by simpa [Hub.stack] using hpop
  show Becomes (execStackReset init s) s _
  refine becomes_onHub ?_
  rw [Hub.go_of_starts hs (by decide) (by decide), hsel]
  simp only [Hub.stackResetGo, Hub.stackSel_begun, hsel, Hub.bootBit_begun, hserves, hprepared, hpop', Hub.begun_keeps_units, hup,
    Hub.stackLive_begun, hlive, Bool.not_true, Bool.false_eq_true, or_self, if_false]

end

/-- Settles O11, operation by operation. -/
theorem bootOperationsBegin : Obligations.BootOperationsBegin := by
  unfold Obligations.BootOperationsBegin
  refine ⟨fun s init hs hended hnew => ?_, fun s init hs hheld hgo => ?_,
    fun s init hs hserves hprepared hstaged hdma hepisode hexiting =>
      warmPrepare_becomes hs hserves hprepared hstaged hdma hepisode hexiting,
    fun s init hs hserves hprepared hpop hup hlive => stackReset_becomes hs rfl hserves hprepared hpop hup hlive⟩
  · have hexec := bootStart_becomes hs hended hnew
    have hkept := (Hub.startEnds_sameLocks _).trans (s.hub.begun pBoot 1 0).bootStarted.proceed_sameLocks
    obtain ⟨hstarted, hlock, hmmio⟩ := (s.hub.begun pBoot 1 0).bootStarted_shows
    exact ⟨_, hexec, hkept.started.trans hstarted, by rw [hkept.lock, hlock],
      hkept.mmio.trans (hmmio.trans (s.hub.begun_shows pBoot 1 0).2.2), hexec.keepsMem rfl⟩
  · have hexec := continue_becomes hs hheld hgo
    refine ⟨_, hexec, by simp, ?_, ?_, hexec.keepsMem rfl⟩
    · rw [Hub.bootBit, Hub.putBoot, Hub.rd_wrFld, if_pos rfl, bit_putBits_zero _ (le_refl 6) (by decide) (by decide)]
    · exact (Hub.opOf_of_ops (by simp) pBoot).trans (s.hub.opOf_begun pBoot 2 0)

end Sys2Proof.Machine
end

section

/-! SUPPORT. The thermal trip and its steps: O13, O15. -/

namespace Sys2Proof.Machine

/-! The start of a trip (R432, R433) -/

/-- TRIP at the start of a trip: the source, its reading in whole degrees, whether it is broken, VALID. -/
def tripWord (i : Nat) (e : Int) (broken : Bool) : Word :=
  putBit (putBit (putBits (BitVec.ofNat 32 i) 8 8 (degByte e)) 16 broken) 31 true

theorem tripWord_shows {i : Nat} (hi : i < 32) (e : Int) (broken : Bool) :
    bitsNat (tripWord i e broken) 0 5 = i ∧ bit (tripWord i e broken) 31 = true := by
  refine ⟨?_, bit_putBit_same _ true (by decide)⟩
  unfold tripWord putBit
  rw [bitsNat_putBits_below _ _ (by decide), bitsNat_putBits_below _ _ (by decide), bitsNat_putBits_below _ _ (by decide)]
  simp only [bitsNat, BitVec.toNat_ofNat]
  omega

/-- What the start of a trip shows in the THERM page. -/
theorem Hub.startTrip_starts {h : Hub} (i : Nat) (htrip : h.therm.trip = 0) (e : Int) (broken : Bool) :
    (h.startTrip i e broken).therm.trip = 1 ∧ (h.startTrip i e broken).therm.tripAt = h.now ∧
    bit ((h.startTrip i e broken).rd pTherm 0x44) 0 = true ∧ bit ((h.startTrip i e broken).rd pTherm 0x10) 3 = true ∧
    (h.startTrip i e broken).rd pTherm 0x78 = tripWord i e broken := by
  rw [Hub.startTrip, if_neg (by simp [htrip])]
  refine ⟨by simp, by simp, ?_, Hub.bit_raise_same _ _ (by decide), ?_⟩
  · rw [Hub.rd_raise, if_neg (by decide), Hub.rd_wrFld, if_pos rfl]
    exact bit_putBits_one _ true (by decide)
  · rw [Hub.rd_raise, if_neg (by decide), Hub.rd_wrFld, if_neg (by decide), Hub.rd_wr_same]
    rfl

/-- The second successive reading above 105 °C of a sensor that is not broken. -/
theorem Hub.readSource_of_hot {h : Hub} {i : Nat} {e : Int} (hlo : 840 < e) (hhot : (h.source i).hot = true) :
    ∃ g : Hub, h.readSource i false e = g.startTrip i e (h.source i).fail ∧ g.therm.trip = h.therm.trip ∧ g.now = h.now := by
  unfold Hub.readSource
  extract_lets x v above h1 h2 h3
  have hv : v = e := rfl
  have hnow : above = true := decide_eq_true (show tripEighths < e from hlo)
  have hx : x.hot = true := hhot
  have h32 : h3 = h2 := if_neg (by simp)
  refine ⟨h2, ?_, rfl, rfl⟩
  rw [if_pos ⟨hnow, hx⟩, h32, hv, Bool.false_or]

/-- Settles O13: a reading above 105 °C after a hot one is no broken one, and starts the trip. -/
theorem secondHotReadingTrips : Obligations.SecondHotReadingTrips := by
  unfold Obligations.SecondHotReadingTrips
  intro s i e hr hlo hhi hhot htrip
  obtain ⟨g, hread, hgtrip, hgnow⟩ := Hub.readSource_of_hot hlo hhot
  obtain ⟨h1, h2, h3, h4, h5⟩ := Hub.startTrip_starts (h := g) i.toNat (hgtrip.trans htrip) e.toInt
    (s.hub.source i.toNat).fail
  obtain ⟨hi, hvalid⟩ := tripWord_shows (i := i.toNat) (by omega) e.toInt (s.hub.source i.toNat).fail
  refine ends_sensorRead false hr (by simp; omega) ?_
  dsimp only
  rw [hread, h5]
  exact ⟨h1, h2.trans hgnow, h3, h4, hi, hvalid⟩

/-! What self-refresh leaves as it was (R433, R437) -/

/-- The cache die, the clock, the registers, the pins, the bring-up and the episode of g are those of h. -/
structure Hub.SameSupply (g h : Hub) : Prop where
  cache : g.cache = h.cache
  now : g.now = h.now
  regs : g.regs = h.regs
  pins : g.pins = h.pins
  boot : g.boot = h.boot
  trip : g.therm.trip = h.therm.trip
  episode : g.therm.episode = h.therm.episode
  warn : g.therm.warn = h.therm.warn
  start : g.therm.start = h.therm.start

theorem Hub.SameSupply.refl (h : Hub) : h.SameSupply h := ⟨rfl, rfl, rfl, rfl, rfl, rfl, rfl, rfl, rfl⟩

theorem Hub.SameSupply.trans {g h k : Hub} (e : g.SameSupply h) (e' : h.SameSupply k) : g.SameSupply k :=
  ⟨e.cache.trans e'.cache, e.now.trans e'.now, e.regs.trans e'.regs, e.pins.trans e'.pins, e.boot.trans e'.boot,
    e.trip.trans e'.trip, e.episode.trans e'.episode, e.warn.trans e'.warn, e.start.trans e'.start⟩

theorem foldl_sameSupply {α : Type} {f : Hub → α → Hub} (H : ∀ h a, (f h a).SameSupply h) (l : List α) (h : Hub) :
    (l.foldl f h).SameSupply h :=
  List.foldlRecOn l f (motive := fun g => g.SameSupply h) (.refl h) fun g hg a _ => (H g a).trans hg

theorem Hub.putPc_sameSupply (h : Hub) (i : Nat) (c : Pc) : (h.putPc i c).SameSupply h := by constructor <;> rfl

theorem Hub.putStack_sameSupply (h : Hub) (st : Nat) (v : Stack) : (h.putStack st v).SameSupply h := by constructor <;> rfl

theorem Hub.unread_sameSupply (h : Hub) (st : Nat) : (h.unread st).SameSupply h := by constructor <;> rfl

theorem Hub.resumePc_sameSupply (h : Hub) (i : Nat) : (h.resumePc i).SameSupply h := by
  unfold Hub.resumePc
  dsimp only
  split
  · exact h.putPc_sameSupply _ _
  · exact .refl h

/-- A slice that is abandoned. -/
theorem Hub.sliceEnd_sameSupply (h : Hub) (st : Nat) : (h.sliceEnd st [] false).SameSupply h := by
  unfold Hub.sliceEnd
  extract_lets v base h1 mine src h2 h3 h4
  have e1 : h1.SameSupply h := by
    unfold h1
    split
    · exact h.resumePc_sameSupply _
    · exact (Hub.resumePc_sameSupply ..).trans (h.resumePc_sameSupply _)
  split
  · exact .refl h
  · rw [if_pos (by decide)]
    have e2 : h2.SameSupply h := (Hub.putStack_sameSupply ..).trans e1
    have e3 : h3 = h2 := if_neg (by decide)
    have e4 : h4 = h3 := if_neg (by simp)
    rw [e4, e3]
    exact (Hub.putStack_sameSupply ..).trans e2

theorem Hub.enterSelfRefresh_sameSupply (h : Hub) (st : Nat) : (h.enterSelfRefresh st).SameSupply h := by
  unfold Hub.enterSelfRefresh
  split
  · exact .refl h
  · refine (Hub.unread_sameSupply ..).trans ((Hub.putStack_sameSupply ..).trans
      ((foldl_sameSupply (fun g j => ?_) _ _).trans (h.sliceEnd_sameSupply st)))
    dsimp only
    split
    · exact g.putPc_sameSupply _ _
    · exact .refl g

theorem Hub.allSelfRefresh_sameSupply (h : Hub) : h.allSelfRefresh.SameSupply h :=
  foldl_sameSupply (fun g st => g.enterSelfRefresh_sameSupply st) _ _

theorem Hub.capture_sameSupply (h : Hub) (id sector : Nat) (w : Code) : (h.capture id sector w).SameSupply h := by
  unfold Hub.capture
  split
  · exact .refl h
  · constructor <;> rfl

theorem Hub.putCode_sameSupply (h : Hub) (ps off sector : Nat) (w : Code) : (h.putCode ps off sector w).SameSupply h := by
  constructor <;> rfl

/-- What a PC's queues hold is carried out on the stack and in the fetches alone. -/
theorem Hub.drainPc_sameSupply (h : Hub) (i : Nat) : (h.drainPc i).SameSupply h := by
  unfold Hub.drainPc
  extract_lets c read write all h1 h2
  have hread (g : Hub) (r : RdEntry) : (read g r).SameSupply g := g.capture_sameSupply ..
  have hwrite (g : Hub) (w : WrEntry) : (write g w).SameSupply g := g.putCode_sameSupply ..
  have e2 : h2.SameSupply h1 := foldl_sameSupply (fun g e => (foldl_sameSupply hwrite _ _).trans (foldl_sameSupply hread _ _)) _ _
  refine (foldl_sameSupply (fun g e => ?_) _ _).trans (e2.trans (h.putPc_sameSupply _ _))
  split
  · exact hread g _
  · exact hwrite g _

/-! The steps of a trip (R433, R434) -/

/-- The last steps leave the cache die and the clock alone; the TRIP entry is the journal's last. -/
theorem Hub.tripShut_ends (h : Hub) (cut : Bool) :
    (h.tripShut cut).therm.trip = 3 ∧ (∃ src deg, (h.tripShut cut).lastEntry 8 [src, deg, BitVec.ofNat 8 cut.toNat]) ∧
    (h.tripShut cut).cache = h.cache ∧ (h.tripShut cut).now = h.now := by
  unfold Hub.tripShut
  extract_lets h1 h2 v
  have e1 : h1.SameSupply h := (Hub.allSelfRefresh_sameSupply _).trans (foldl_sameSupply (fun g i => by
    split
    · exact g.drainPc_sameSupply i
    · exact .refl g) _ _)
  clear_value h1
  exact ⟨by simp, ⟨_, _, Hub.lastEntry_submit ..⟩, by simp [h2, e1.cache], by simp [h2, e1.now]⟩

/-- A fold over the ways leaves the clock alone. -/
theorem Hub.dropDirty_now (h : Hub) : h.dropDirty.now = h.now := by
  unfold Hub.dropDirty
  extract_lets ks g
  have e : g.now = h.now := by
    apply foldl_keeps
    exact fun _ _ => rfl
  exact e

theorem Hub.tripFlush_of_open {h : Hub} (htrip : h.therm.trip = 2) (hwarn : (h.therm.episode && h.therm.warn) = false)
    (hself : h.therm.selfDone = false) (hexit : h.therm.exiting = false) :
    h.tripFlush = if h.flushAll.1 = true then h.flushAll.2.tripShut false else h.flushAll.2 := by
  rw [Hub.tripFlush, if_pos ⟨htrip, by simp [hwarn], by simp [hself], by simp [hexit]⟩]
  split
  · next e => rw [e, if_pos rfl]
  · next e => rw [e, if_neg Bool.false_ne_true]

/-- Settles O15: each command takes the branch of its step, and the steps that shut the stacks end by one rule. -/
theorem tripSteps : Obligations.TripSteps := by
  unfold Obligations.TripSteps
  refine ⟨fun s htrip hdrained => becomes_onHub (if_pos ⟨htrip, hdrained⟩), fun s h htrip hwarn hself hexit hflush => ?_,
    fun s h htrip hwarn hself hexit hflush => becomes_onHub ?_, fun s htrip => ?_⟩
  · have hf : s.hub.tripFlush = h.tripShut false := by
      rw [Hub.tripFlush_of_open htrip hwarn hself hexit, hflush, if_pos rfl]
    obtain ⟨h3, hentry, -, -⟩ := h.tripShut_ends false
    show Ends (execTripFlushDone s) _
    refine ends_onHub ?_
    dsimp only
    rw [hf]
    exact ⟨rfl, h3, hentry⟩
  · rw [Hub.tripFlush_of_open htrip hwarn hself hexit, hflush]
    rfl
  · obtain ⟨h3, hentry, hcache, hnow⟩ := Hub.tripShut_ends ((s.hub.reach (s.hub.therm.tripAt + 120000)).dropDirty) true
    show Ends (execTripFlushCut s) _
    refine ends_onHub ?_
    dsimp only
    rw [if_pos htrip]
    exact ⟨rfl, h3, hentry, by rw [hcache]; rfl, by rw [hnow, Hub.dropDirty_now]; rfl⟩

end Sys2Proof.Machine
end

section

/-! SUPPORT. A supply episode, the throttle's rise and the pace windows: O16, O14. -/

namespace Sys2Proof.Machine

/-! Stacks in self-refresh (R437, R438) -/

theorem Hub.resumePc_stk (h : Hub) (i : Nat) : (h.resumePc i).stk = h.stk := by
  unfold Hub.resumePc
  dsimp only
  split <;> rfl

/-- An abandoned slice leaves the other stacks, and self-refresh everywhere, as they were. -/
theorem Hub.stack_sliceEnd (h : Hub) (st j : Nat) :
    ((h.sliceEnd st [] false).stack j).populated = (h.stack j).populated ∧
    ((h.sliceEnd st [] false).stack j).selfRefresh = (h.stack j).selfRefresh := by
  unfold Hub.sliceEnd
  extract_lets v base h1 mine src h2 h3 h4
  have e1 : h1.stk = h.stk := by
    unfold h1
    split
    · exact h.resumePc_stk _
    · exact (Hub.resumePc_stk ..).trans (h.resumePc_stk _)
  have s1 : h1.stack = h.stack := by
    funext i
    rw [Hub.stack, e1, Hub.stack]
  split
  · exact ⟨rfl, rfl⟩
  · rw [if_pos (by decide)]
    have e3 : h3 = h2 := if_neg (by decide)
    have e4 : h4 = h3 := if_neg (by simp)
    rw [e4, e3, Hub.stack_putStack]
    by_cases hj : j = st
    · subst hj
      have e2 : h2.stack j = { h.stack j with slice := 0 } := (Hub.stack_putStack ..).trans (if_pos rfl)
      rw [if_pos rfl]
      exact ⟨(congrArg Stack.populated e2 :), (congrArg Stack.selfRefresh e2 :)⟩
    · have e2 : h2.stack j = h.stack j := (Hub.stack_putStack ..).trans ((if_neg hj).trans (congrFun s1 j))
      rw [if_neg hj, e2]
      exact ⟨rfl, rfl⟩

/-- A stack that is awake enters self-refresh; every other one stays as it was. -/
theorem Hub.stack_enterSelfRefresh (h : Hub) (st j : Nat) :
    ((h.enterSelfRefresh st).stack j).populated = (h.stack j).populated ∧
    ((h.enterSelfRefresh st).stack j).selfRefresh = ((h.stack j).selfRefresh || (decide (j = st) && h.awake st)) := by
  unfold Hub.enterSelfRefresh
  by_cases hawake : h.awake st = true
  · rw [if_neg (by simp [hawake]), hawake]
    extract_lets h1 h2
    have e2 : h2.stk = h1.stk := by
      apply foldl_keeps
      intro g i
      dsimp only
      split <;> rfl
    have s2 (i : Nat) : h2.stack i = h1.stack i := by rw [Hub.stack, e2, Hub.stack]
    obtain ⟨hpop, hself⟩ := h.stack_sliceEnd st j
    have e : ((h2.putStack st { h2.stack st with selfRefresh := true }).unread st).stack j =
        if j = st then { h2.stack st with selfRefresh := true } else h2.stack j := by
      clear_value h2
      exact Hub.stack_putStack ..
    clear_value h2
    rw [e]
    by_cases hj : j = st
    · subst hj
      rw [if_pos rfl, s2]
      exact ⟨hpop, by simp⟩
    · rw [if_neg hj, s2]
      exact ⟨hpop, by simpa [hj] using hself⟩
  · rw [if_pos (by simpa using hawake), Bool.eq_false_iff.mpr hawake]
    simp

/-- A populated stack that is powered is in self-refresh. -/
def Hub.restsIfPowered (h : Hub) (st : Nat) : Prop :=
  (h.stack st).populated = true → h.pins.pdAck.getLsbD st = false → (h.stack st).selfRefresh = true

/-- Every stack that is awake is in self-refresh once all have entered it. -/
theorem Hub.allSelfRefresh_rests {h : Hub} {j : Nat} (hj : j < 8) (hawake : h.awake j = true) :
    (h.allSelfRefresh.stack j).selfRefresh = true := by
  have hpop : (h.allSelfRefresh.stack j).populated = (h.stack j).populated :=
    foldl_keeps (fun g => (g.stack j).populated) _ (fun g st => (g.stack_enterSelfRefresh st j).1) _ _
  have hrests : h.allSelfRefresh.restsIfPowered j := by
    refine foldl_reaches (Q := fun j g => g.restsIfPowered j) (fun g i hp hq => ?_) (fun g st i hg hp hq => ?_)
      (List.mem_range.mpr hj) h
    · obtain ⟨ep, es⟩ := g.stack_enterSelfRefresh i i
      rw [es, Hub.awake, ← ep, hp, ← (g.enterSelfRefresh_sameSupply i).pins, hq]
      cases (g.stack i).selfRefresh <;> simp
    · obtain ⟨ep, es⟩ := g.stack_enterSelfRefresh st i
      rw [es, hg (ep ▸ hp) ((g.enterSelfRefresh_sameSupply st).pins ▸ hq), Bool.true_or]
  unfold Hub.awake at hawake
  rw [Bool.and_eq_true, Bool.and_eq_true] at hawake
  obtain ⟨⟨hp, -⟩, hq⟩ := hawake
  exact hrests (hpop.trans hp) (by rw [h.allSelfRefresh_sameSupply.pins]; simpa using hq)

/-! The episode (R437, R438) -/

/-- The stacks held by the episode: bit 3 of THERM.STATUS shows it. -/
theorem Hub.holdStacks_holds (h : Hub) :
    h.holdStacks.therm.selfDone = true ∧ bit (h.holdStacks.rd pTherm 0x44) 3 = true ∧ h.holdStacks.now = h.now ∧
    h.holdStacks.stk = h.allSelfRefresh.stk := by
  unfold Hub.holdStacks
  have hnow := h.allSelfRefresh_sameSupply.now
  generalize h.allSelfRefresh = g at hnow
  refine ⟨by simp, ?_, by simpa using hnow, by simp⟩
  rw [Hub.rd_wrFld, if_pos rfl]
  exact bit_putBits_one _ true (by decide)

/-- The episode starts: its start and its warning are held, and bit 2 of THERM.STATUS shows it. -/
theorem Hub.warnOn_starts {h : Hub} (hepisode : h.therm.episode = false) :
    h.warnOn.pins.supplyWarn = true ∧ h.warnOn.therm.episode = true ∧ h.warnOn.therm.warn = true ∧
    h.warnOn.therm.start = h.now ∧ bit (h.warnOn.rd pTherm 0x44) 2 = true ∧ h.warnOn.noTopUp = true := by
  unfold Hub.warnOn
  extract_lets p h1 src h2 h3
  rw [if_neg (by simp [h1, hepisode])]
  have hslices : (List.foldl (fun h st => h.sliceEnd st [] false) h3 (List.range 8)).SameSupply h3 :=
    foldl_sameSupply (fun g st => g.sliceEnd_sameSupply st) _ _
  have hpins : h3.pins.supplyWarn = true := by simp [h3, h2, h1, p]
  have hepisode : h3.therm.episode = true := by simp [h3, h2]
  have hwarn : h3.therm.warn = true := by simp [h3, h2]
  have hstart : h3.therm.start = h.now := by simp [h3, h2, h1]
  have hbit : bit (h3.rd pTherm 0x44) 2 = true := by
    rw [Hub.rd_raise_ne _ _ (by decide), Hub.rd_wrFld, if_pos rfl]
    exact bit_putBits_one _ true (by decide)
  refine ⟨by rw [hslices.pins, hpins], hslices.episode.trans hepisode, hslices.warn.trans hwarn, hslices.start.trans hstart,
    by rw [Hub.rd_of_regs hslices.regs, hbit], ?_⟩
  rw [Hub.noTopUp, hslices.episode, hepisode, Bool.or_true, Bool.true_or]

/-- The end of an episode that has the stacks in self-refresh: they are to leave it. -/
theorem Hub.episodeEnd_ends {h : Hub} (hepisode : h.therm.episode = true) (hwarn : h.therm.warn = false)
    (hself : h.therm.selfDone = true) (htrip : h.therm.trip < 3) :
    h.episodeEnd.therm.episode = false ∧ h.episodeEnd.therm.notReady = false ∧ h.episodeEnd.therm.exiting = true ∧
    h.episodeEnd.now = max h.now (h.therm.quietAt + 200) := by
  unfold Hub.episodeEnd
  rw [if_neg (by simp [hepisode, hwarn])]
  extract_lets h1 len h2 h3 h4 wait h5
  have h4therm : h4.therm = h.therm := by simp [h4, h3, h2, h1]
  have h4now : h4.now = max h.now (h.therm.quietAt + 200) := by simp [h4, h3, h2, h1, Hub.reach]
  have hwait : wait = true := by simp [wait, h4therm, hself, htrip]
  rw [if_pos hwait]
  exact ⟨rfl, rfl, hwait, h4now⟩

/-- Settles O16: each command takes the branch of its step; the stacks that are awake sleep once all have entered self-refresh. -/
theorem supplyEpisode : Obligations.SupplyEpisode := by
  unfold Obligations.SupplyEpisode
  refine ⟨fun s hr hpin hepisode => ?_, fun s hr hpin => ?_, fun s hepisode hwarn hself => ?_,
    fun s hepisode hwarn hself hready => becomes_onHub ?_, fun s hepisode hwarn hself htrip => ?_,
    fun s hexit htrip => becomes_onHub (if_pos ⟨hexit, htrip⟩)⟩
  · have e : execSupplyWarnAssert s = .next { s with hub := s.hub.warnOn } := by
      simp [execSupplyWarnAssert, onHub, hr, hpin]
    obtain ⟨h1, h2, h3, h4, h5, h6⟩ := Hub.warnOn_starts hepisode
    exact ⟨_, e, h1, h2, h3, h4, h5, h6, exec_keepsMem (i := .supplyWarnAssert) rfl e⟩
  · show Becomes (execSupplyWarnDeassert s) _ _
    refine becomes_onHub ?_
    rw [if_neg (by simp [hr]), if_neg (by simp [hpin])]
    rfl
  · have e : execSupplySelfRefreshDue s = .next { s with hub := (s.hub.reach (s.hub.therm.start + 500)).holdStacks } := by
      simp [execSupplySelfRefreshDue, onHub, hepisode, hwarn, hself]
    obtain ⟨h1, h2, h3, h4⟩ := (s.hub.reach (s.hub.therm.start + 500)).holdStacks_holds
    refine ⟨_, e, h1, h2, h3, fun st hst hawake => ?_, exec_keepsMem (i := .supplySelfRefreshDue) rfl e⟩
    dsimp only
    rw [Hub.stack, h4]
    exact Hub.allSelfRefresh_rests hst hawake
  · dsimp only
    rw [if_pos ⟨hepisode, hwarn, by simp [hready]⟩, if_pos (by simpa using hself)]
  · have e : execSupplyEpisodeEnd s = .next { s with hub := s.hub.episodeEnd } := rfl
    obtain ⟨h1, h2, h3, h4⟩ := Hub.episodeEnd_ends hepisode hwarn hself htrip
    exact ⟨_, e, h1, h2, h3, h4, exec_keepsMem (i := .supplyEpisodeEnd) rfl e⟩

/-! The throttle's rise (R431) -/

/-- A rise below the second threshold and at the first or above: one step more, at most each 10 ms. -/
theorem Hub.rorCheck_rises {h : Hub} {r : Int} (hmax : h.rmax = some r) (hfirst : bitsNat (h.rd pTherm 0x60) 0 8 ≠ 0)
    (habove : (2 * bitsNat (h.rd pTherm 0x60) 0 8 : Nat) ≤ r)
    (hbelow : bitsNat (h.rd pTherm 0x60) 8 8 = 0 ∨ r < (2 * bitsNat (h.rd pTherm 0x60) 8 8 : Nat))
    (hstep : h.throttle < 7) (hsince : 9 ≤ h.therm.sinceRise) :
    h.rorCheck.throttle = h.throttle + 1 ∧ h.rorCheck.therm.sinceRise = 0 ∧ bit (h.rorCheck.rd pTherm 0x10) 0 = true := by
  unfold Hub.rorCheck
  extract_lets cfg exceeds above1 above2 step up new src t h1 h2
  have hone : above1 = true := by simpa [above1, exceeds, hmax, hfirst, cfg] using habove
  have htwo : above2 = false := by
    simp only [above2, exceeds, hmax, cfg, Bool.and_eq_false_iff, decide_eq_false_iff_not, not_not, not_le]
    exact hbelow
  have hnew : new = h.throttle + 1 := by
    simp only [new, up, hone, htwo, step, Bool.false_eq_true, if_false, if_true]
    omega
  have ht : 10 ≤ t.sinceRise := by
    simp only [t]
    omega
  rw [if_pos ⟨by rw [hnew]; exact Nat.lt_succ_self _, ht⟩]
  refine ⟨?_, by simp [h2, h1, Hub.setStep], Hub.bit_raise_same _ _ (by decide)⟩
  have hstep : h1.throttle = new := by
    unfold h1 Hub.setStep
    rw [Hub.throttle, Hub.fld, Hub.rd_wrFld, if_pos rfl, bitsNat_putBits _ _ (by decide)]
    omega
  rw [← hnew, ← hstep]
  refine Hub.fld_of_rd ?_ 0 3
  rw [Hub.rd_raise_page _ _ (by decide) (by decide), Hub.rd_wrFld_page _ _ _ _ (by decide) (by decide) (by decide),
    Hub.rd_bump_page _ _ _ _ (by decide) (by decide) (by decide)]

/-! A pace window (R38, R39) -/

/-- What PACE_CNT shows of a window: its count, SLOW, VALID. -/
def paceWord (c : Nat) : Word := putBit (putBit (BitVec.ofNat 32 c) 30 (decide (c < 43116))) 31 true

theorem paceWord_shows {c : Nat} (hc : c < 2 ^ 20) :
    bitsNat (paceWord c) 0 20 = c ∧ bit (paceWord c) 30 = decide (c < 43116) ∧ bit (paceWord c) 31 = true := by
  refine ⟨?_, ?_, bit_putBit_same _ true (by decide)⟩
  · unfold paceWord putBit
    rw [bitsNat_putBits_below _ _ (by decide), bitsNat_putBits_below _ _ (by decide)]
    simp only [bitsNat, BitVec.toNat_ofNat]
    omega
  · exact (bit_putBits_below _ (by decide)).trans (bit_putBit_same _ _ (by decide))

/-- The registers of a window that has ended: its count and the least one. -/
def Hub.paced (h : Hub) (g c : Nat) : Hub :=
  let h := h.wr pHub (0x110 + 4 * g) (paceWord c)
  h.wr pHub (0x120 + 4 * g) (BitVec.ofNat 32 (min c (h.fld pHub (0x120 + 4 * g) 0 20)))

/-- A window's two registers, where neither an interrupt nor SLOW_SEEN changes them. -/
theorem Hub.paced_shows (h : Hub) {g c : Nat} (hc : c < 2 ^ 20) :
    (h.paced g c).rd pHub (0x110 + 4 * g) = paceWord c ∧
    ((h.paced g c).rd pHub (0x120 + 4 * g)).toNat = min c (h.fld pHub (0x120 + 4 * g) 0 20) := by
  unfold Hub.paced
  refine ⟨by rw [Hub.rd_wr_ne _ _ (by omega), Hub.rd_wr_same], ?_⟩
  rw [Hub.rd_wr_same, Hub.fld_of_rd (Hub.rd_wr_ne h _ (by omega)), BitVec.toNat_ofNat]
  exact Nat.mod_eq_of_lt (by omega)

/-- The end of a window: the top-up resumes, or SLOW_SEEN and PACE show a slow one. -/
def Hub.paceEnd (h : Hub) (g c : Nat) : Hub :=
  if !decide (c < 43116) then (h.paced g c).topUp g
  else
    let seen := (h.paced g c).rd pHub 0x104
    let h := (h.paced g c).wr pHub 0x104 (putBit seen g true)
    if bit seen g then h else h.raise pHub 4

theorem execPaceWindowEnd_eq {s : State} (g : BitVec 2) (c : BitVec 20) (hr : s.hub.inReset = false) :
    execPaceWindowEnd g c s = .next { s with hub := s.hub.paceEnd g.toNat c.toNat } := by
  unfold execPaceWindowEnd onHub
  dsimp only
  rw [if_neg (by simp [hr])]
  rfl

/-- What the end of a window leaves in the HUB page. -/
theorem Hub.paceEnd_shows (h : Hub) {g c : Nat} (hg : g < 4) :
    (∀ o, 0x110 ≤ o → (h.paceEnd g c).rd pHub o = (h.paced g c).rd pHub o) ∧
    (c < 43116 → bit ((h.paceEnd g c).rd pHub 0x104) g = true ∧
      (bit (h.rd pHub 0x104) g = false → bit ((h.paceEnd g c).rd pHub 0x10) 4 = true)) ∧
    (43116 ≤ c → (h.paceEnd g c).rd pHub 0x104 = h.rd pHub 0x104) := by
  have hseen : (h.paced g c).rd pHub 0x104 = h.rd pHub 0x104 := by
    rw [Hub.paced, Hub.rd_wr_ne _ _ (by omega), Hub.rd_wr_ne _ _ (by omega)]
  unfold Hub.paceEnd
  by_cases hc : 43116 ≤ c
  · rw [if_pos (by simpa using hc)]
    have hregs (o : Nat) : ((h.paced g c).topUp g).rd pHub o = (h.paced g c).rd pHub o := Hub.rd_of_regs (by simp) _ _
    exact ⟨fun o _ => hregs o, fun hslow => absurd hslow (by omega), fun _ => (hregs _).trans hseen⟩
  · rw [if_neg (by simpa using hc)]
    dsimp only
    rw [hseen]
    have hset (b : Hub) (e : b = (h.paced g c).wr pHub 0x104 (putBit (h.rd pHub 0x104) g true)) :
        bit (b.rd pHub 0x104) g = true ∧ ∀ o, 0x110 ≤ o → b.rd pHub o = (h.paced g c).rd pHub o := by
      rw [e]
      exact ⟨by rw [Hub.rd_wr_same, bit_putBit_same _ true (by omega)], fun o ho => Hub.rd_wr_ne _ _ (by omega)⟩
    obtain ⟨hbit, hother⟩ := hset _ rfl
    split
    · next hold => exact ⟨hother, fun _ => ⟨hbit, fun hnew => absurd (hold.symm.trans hnew) (by decide)⟩, fun hfast => absurd hfast hc⟩
    · refine ⟨fun o ho => (Hub.rd_raise_ne _ _ (by omega)).trans (hother o ho),
        fun _ => ⟨by rw [Hub.rd_raise_ne _ _ (by decide), hbit], fun _ => Hub.bit_raise_same _ _ (by decide)⟩,
        fun hfast => absurd hfast hc⟩

/-- Settles O14: the rise, the estimate, the mean and the pace window, one lemma for each. -/
theorem throttlePowerAndPace : Obligations.ThrottlePowerAndPace := by
  unfold Obligations.ThrottlePowerAndPace
  refine ⟨⟨fun s r hr hmax hfirst habove hbelow hstep hsince => ?_, fun s hr => ?_,
    fun s hr hnum => ?_⟩, fun s g c hr => ?_⟩
  · have e : execRorCheck s = .next { s with hub := s.hub.rorCheck } := by simp [execRorCheck, onHub, hr]
    obtain ⟨h1, h2, h3⟩ := Hub.rorCheck_rises hmax hfirst habove hbelow hstep hsince
    exact ⟨_, e, h1, h2, h3, exec_keepsMem (i := .rorCheck) rfl e⟩
  · show Becomes (execPowerEstimate s) _ _
    refine becomes_onHub ?_
    rw [if_neg (by simp [hr])]
  · show Becomes (execPowerWindowEnd s) _ _
    refine becomes_onHub ?_
    rw [if_neg (by simp [hr])]
    dsimp only
    rw [if_neg hnum]
  · have e := execPaceWindowEnd_eq g c hr
    obtain ⟨hcnt, hmin⟩ := s.hub.paced_shows (g := g.toNat) (c := c.toNat) c.isLt
    obtain ⟨hword, hslow, hfast⟩ := s.hub.paceEnd_shows (g := g.toNat) (c := c.toNat) g.isLt
    obtain ⟨hcount, hbit, hvalid⟩ := paceWord_shows (c := c.toNat) c.isLt
    refine ⟨_, e, ?_⟩
    dsimp only
    rw [hword _ (by omega), hword _ (by omega), hcnt]
    exact ⟨hcount, hbit, hvalid, hmin, hslow, hfast, exec_keepsMem (i := .paceWindowEnd g c) rfl e⟩

end Sys2Proof.Machine
end

section

/-! SUPPORT. Dumps of the counters and MSI acknowledgements: O37. -/

namespace Sys2Proof.Machine

theorem bitsNat_putBits_above {w : Nat} (x : BitVec w) {lo n lo' n' : Nat} (v : Nat) (hlo : lo + n ≤ lo') :
    bitsNat (putBits x lo n v) lo' n' = bitsNat x lo' n' := by
  refine Nat.eq_of_testBit_eq fun i => ?_
  rw [testBit_bitsNat, testBit_bitsNat, bit_putBits_above x v (by omega)]

/-- The end of an operation that waits for the record leaves the record's state, the bits of DUMP_STATUS above ACTIVE and the
interrupts that stand. -/
theorem Hub.dumpOpEnd_keeps (h : Hub) :
    h.dumpOpEnd.perf.seq = h.perf.seq ∧ h.dumpOpEnd.perf.dump = h.perf.dump ∧
    bit (h.dumpOpEnd.rd pPerf 0x8C) 2 = bit (h.rd pPerf 0x8C) 2 ∧
    bitsNat (h.dumpOpEnd.rd pPerf 0x8C) 8 24 = bitsNat (h.rd pPerf 0x8C) 8 24 ∧
    (bit (h.rd pPerf 0x10) 3 = true → bit (h.dumpOpEnd.rd pPerf 0x10) 3 = true) := by
  unfold Hub.dumpOpEnd
  extract_lets src g
  obtain ⟨hseq, hdump, hopen, hnext, hirq⟩ : g.perf.seq = h.perf.seq ∧ g.perf.dump = h.perf.dump ∧
      bit (g.rd pPerf 0x8C) 2 = bit (h.rd pPerf 0x8C) 2 ∧ bitsNat (g.rd pPerf 0x8C) 8 24 = bitsNat (h.rd pPerf 0x8C) 8 24 ∧
      g.rd pPerf 0x10 = h.rd pPerf 0x10 := by
    unfold g
    split
    · rw [Hub.rd_wrFld, if_pos rfl, Hub.rd_wrFld, if_neg (by decide)]
      exact ⟨by simp [src], by simp [src], bit_putBits_above _ _ (by decide), bitsNat_putBits_above _ _ (by decide), rfl⟩
    · exact ⟨rfl, rfl, rfl, rfl, rfl⟩
  clear_value g
  split
  · next o ho =>
    split
    · rw [Hub.rd_endOp_other 0 rfl ho rfl (by decide) (by decide) (by decide)]
      exact ⟨by simpa using hseq, by simpa using hdump, hopen, hnext, fun hi => Hub.bit_endOp_of_bit 0 (hirq ▸ hi)⟩
    · exact ⟨hseq, hdump, hopen, hnext, fun hi => hirq ▸ hi⟩
  · exact ⟨hseq, hdump, hopen, hnext, fun hi => hirq ▸ hi⟩

/-- The record is complete: NEXT names the next one and IRQ bit 3 rises (R453, R456). -/
def Hub.recordDone (h : Hub) : Hub :=
  let h := h.setPerf { h.perf with dump := Dump.idle, seq := h.perf.seq + 1 }
  ((h.wrFld pPerf 0x8C 2 1 0).wrFld pPerf 0x8C 8 24 h.perf.seq).raise pPerf 3

theorem Hub.recordDone_shows (h : Hub) :
    h.recordDone.perf.seq = h.perf.seq + 1 ∧ h.recordDone.perf.dump = Dump.idle ∧ bit (h.recordDone.rd pPerf 0x8C) 2 = false ∧
    bitsNat (h.recordDone.rd pPerf 0x8C) 8 24 = (h.perf.seq + 1) % 2 ^ 24 ∧ bit (h.recordDone.rd pPerf 0x10) 3 = true := by
  unfold Hub.recordDone
  extract_lets src g
  have hseq : g.perf.seq = h.perf.seq + 1 := by simp [g, src]
  have hidle : g.perf.dump = Dump.idle := by simp [g]
  clear_value g
  rw [Hub.rd_raise_ne _ _ (by decide), Hub.rd_wrFld, if_pos rfl, Hub.rd_wrFld, if_pos rfl, bitsNat_putBits _ _ (by decide), hseq,
    bit_putBits_below _ (by decide), bit_putBits_zero _ (le_refl 2) (by decide) (by decide)]
  exact ⟨by simpa using hseq, by simpa using hidle, rfl, rfl, Hub.bit_raise_same _ _ (by decide)⟩

theorem Hub.dumpStep_of_third {h : Hub} (hstep : h.perf.dump.step = 3) (hout : h.perf.dump.out = []) :
    h.dumpStep = h.recordDone.dumpOpEnd := by
  unfold Hub.dumpStep
  dsimp only
  rw [if_neg (by simp [hstep]), if_neg (by simp [hout]), hstep]
  rfl

/-- A dump that falls due while no record is kept back by an episode, a trip or DUMP_STOP. -/
theorem Hub.dumpDue_of_due {h : Hub} (hdumping : h.dumping = true) (hdue : max 1 (h.rd pPerf 0x74).toNat ≤ h.perf.ticks)
    (hepisode : h.therm.episode = false) (htrip : h.therm.trip = 0) (hstop : h.perf.stopping = false) :
    h.dumpDue = if h.perf.dump.step ≠ 0 then
      ((h.setPerf { h.perf with ticks := 0 }).setPerf { h.perf with ticks := 0, skippedFlag := true }).bump pPerf 0x90 0 32 1
    else (h.setPerf { h.perf with ticks := 0 }).dumpBegin false := by
  unfold Hub.dumpDue
  rw [if_neg (by simp [hdumping]; omega)]
  dsimp only
  rw [if_neg (by simp [hepisode, htrip, hstop])]
  rfl

/-- Settles O37: a dump that is due takes one of two branches, the record's third step completes it. -/
theorem dumpsAndAcknowledgements : Obligations.DumpsAndAcknowledgements := by
  unfold Obligations.DumpsAndAcknowledgements
  refine ⟨fun s hdumping hdue hepisode htrip hstop hstep => becomes_onHub ?_,
    fun s hdumping hdue hepisode htrip hstop hstep => ?_, fun s hstep hout => becomes_onHub ?_, fun s hstep hout => ?_,
    fun s v => becomes_onHub (f := fun h => h.setIrq { h.irq with waiting := SMap.set (fun _ => none) h.irq.waiting v.toNat none }) rfl⟩
  · rw [Hub.dumpDue_of_due hdumping hdue hepisode htrip hstop, if_neg (by simp [hstep])]
  · have e : execDumpDue s = .next { s with hub := s.hub.dumpDue } := rfl
    have hdone := Hub.dumpDue_of_due hdumping hdue hepisode htrip hstop
    rw [if_pos hstep] at hdone
    refine ⟨_, e, ?_⟩
    dsimp only
    rw [hdone]
    refine ⟨by simp, ?_, by simp, by simp⟩
    rw [Hub.toNat_rd_bump]
    rfl
  · unfold Hub.dumpStep
    dsimp only
    rw [if_neg (by simp [hstep]), if_neg (by simp [hout]), hstep]
    rfl
  · have e : execDumpRecordWritten s = .next { s with hub := s.hub.dumpStep } := rfl
    obtain ⟨hseq, hdump, hopen, hnext, hirq⟩ := s.hub.recordDone.dumpOpEnd_keeps
    obtain ⟨kseq, kdump, kopen, knext, kirq⟩ := s.hub.recordDone_shows
    refine ⟨_, e, ?_⟩
    have hmem := exec_keepsMem (i := .dumpRecordWritten) rfl e
    dsimp only at hmem ⊢
    rw [Hub.dumpStep_of_third hstep hout] at hmem ⊢
    exact ⟨hseq.trans kseq, hdump.trans kdump, hopen.trans kopen, hnext.trans knext, hirq kirq, hmem⟩

end Sys2Proof.Machine
end

section

/-! SUPPORT. The journal writer and the erasure of the sectors ahead of it: O48. -/

namespace Sys2Proof.Machine

/-! An entry and its two copies (R458, R459) -/

theorem Hub.length_entryBytes (h : Hub) (e : JEntry) (n : Nat) : (h.entryBytes e n).length = 64 := by
  simp [Hub.entryBytes, padTo, le64, le32, bytesOf, length_leBytes]

/-- An entry's bytes depend on the boot's number, the clock and the epoch. -/
theorem Hub.entryBytes_setJournal {h : Hub} {j : Journal} (e : JEntry) (n : Nat) (hboot : j.boot = h.journal.boot) :
    (h.setJournal j).entryBytes e n = h.entryBytes e n := by
  unfold Hub.entryBytes Hub.uptime
  rw [show (h.setJournal j).journal.boot = h.journal.boot from hboot]
  rfl

/-- The copies of one entry in the two halves lie apart. -/
theorem journalCopy_apart {n x y : Nat} (hxy : x % 2 ≠ y % 2) :
    journalCopy n x + 64 ≤ journalCopy n y ∨ journalCopy n y + 64 ≤ journalCopy n x := by
  simp only [journalCopy]
  omega

theorem journalCopy_of_parity {x y : Nat} (n : Nat) (hxy : x % 2 = y % 2) : journalCopy n x = journalCopy n y := by
  rw [journalCopy, hxy, journalCopy]

theorem Hub.flashBytes_putFlash_whole (h : Hub) (a : Nat) {bs : List Byte} {n : Nat} (hn : bs.length = n) :
    (h.putFlash a bs).flashBytes a n = bs := by
  rw [← hn, Hub.flashBytes_putFlash_same]

/-- Both copies programmed, first and second: each half holds the one of its parity. -/
theorem Hub.copies_programmed (h : Hub) {n : Nat} {a b : List Byte} (ha : a.length = 64) (hb : b.length = 64) :
    ((h.putFlash (journalCopy n n) a).putFlash (journalCopy n (n + 1)) b).flashBytes (journalCopy n n) 64 = a ∧
    ((h.putFlash (journalCopy n n) a).putFlash (journalCopy n (n + 1)) b).flashBytes (journalCopy n (n + 1)) 64 = b := by
  refine ⟨?_, Hub.flashBytes_putFlash_whole _ _ hb⟩
  rw [Hub.flashBytes_putFlash_apart _ _ (by rw [hb]; exact journalCopy_apart (by omega)), Hub.flashBytes_putFlash_whole _ _ ha]

/-- An entry written: its bytes in both halves, HEAD and the next SEQ. -/
theorem Hub.writeEntry_copies (h : Hub) (e : JEntry) :
    (∀ x, (h.writeEntry e).flashBytes (journalCopy h.journal.seq x) 64 = h.entryBytes e h.journal.seq) ∧
    (h.writeEntry e).journal.head = some h.journal.seq ∧ (h.writeEntry e).journal.seq = h.journal.seq + 1 := by
  unfold Hub.writeEntry
  extract_lets n b h1 recent crit src h2
  have hb : b.length = 64 := h.length_entryBytes e n
  obtain ⟨hfirst, hsecond⟩ : h1.flashBytes (journalCopy n n) 64 = b ∧ h1.flashBytes (journalCopy n (n + 1)) 64 = b :=
    h.copies_programmed hb hb
  have hcopies (x : Nat) : h1.flashBytes (journalCopy h.journal.seq x) 64 = h.entryBytes e h.journal.seq := by
    change h1.flashBytes (journalCopy n x) 64 = b
    by_cases hx : x % 2 = n % 2
    · rw [journalCopy_of_parity n hx, hfirst]
    · rw [journalCopy_of_parity n (show x % 2 = (n + 1) % 2 by omega), hsecond]
  have h2flash : h2.flash = h1.flash := by simp [h2]
  clear_value h1
  split
  · exact ⟨fun x => (Hub.flashBytes_of_flash (h := h1) (by simpa using h2flash) _ _).trans (hcopies x), by simp [h2, n], by simp [h2, n]⟩
  · exact ⟨fun x => (Hub.flashBytes_of_flash h2flash _ _).trans (hcopies x), by simp [h2, n], by simp [h2, n]⟩

/-! A commit (R458, R461) -/

/-- A checkpoint goes in front of the queue: nothing else of the writer's state changes. -/
structure Hub.Entered (g h : Hub) : Prop where
  last : (h.journal.queue ++ h.journal.ordinary ≠ []) →
    (g.journal.queue ++ g.journal.ordinary).getLast? = (h.journal.queue ++ h.journal.ordinary).getLast?
  ordinary : g.journal.ordinary = h.journal.ordinary
  seq : g.journal.seq = h.journal.seq
  head : g.journal.head = h.journal.head
  flash : g.flash = h.flash
  regs : g.regs = h.regs
  mem : g.mem = h.mem

theorem Hub.enterSector_enters (h : Hub) (n : Nat) : (h.enterSector n).Entered h := by
  unfold Hub.enterSector
  split
  · refine ⟨fun hne => ?_, rfl, rfl, rfl, rfl, rfl, rfl⟩
    show ((h.checkpoint ++ h.journal.queue) ++ h.journal.ordinary).getLast? = _
    rw [List.append_assoc, List.getLast?_append_of_ne_nil _ hne]
  · exact ⟨fun _ => rfl, rfl, rfl, rfl, rfl, rfl, rfl⟩

/-- A read-back that failed: the copy before the torn one stands, the one after it is not programmed, and the entry stays (R458). -/
theorem Hub.tearEntry_tears (h : Hub) (e : JEntry) (found : ReadBack) :
    (found = .firstBad → (h.tearEntry e found).flashBytes (journalCopy h.journal.seq (h.journal.seq + 1)) 64 =
      h.flashBytes (journalCopy h.journal.seq (h.journal.seq + 1)) 64) ∧
    (found = .secondBad → (h.tearEntry e found).flashBytes (journalCopy h.journal.seq h.journal.seq) 64 =
      h.entryBytes e h.journal.seq) ∧
    (h.tearEntry e found).journal = { h.journal with seq := h.journal.seq + 1 } ∧
    (h.tearEntry e found).rd pJournal 0x70 = countedWord (h.rd pJournal 0x70) ∧ (h.tearEntry e found).mem = h.mem := by
  unfold Hub.tearEntry
  extract_lets n torn h1 src old
  have htorn : torn.length = 64 := by simp [torn]
  have h1keeps : h1.journal = h.journal ∧ h1.regs = h.regs ∧ h1.mem = h.mem := by
    unfold h1
    split <;> simp
  have hfirst (e1 : found = .firstBad) : h1.flashBytes (journalCopy n (n + 1)) 64 = h.flashBytes (journalCopy n (n + 1)) 64 := by
    unfold h1
    rw [if_pos e1, Hub.flashBytes_putFlash_apart _ _ (by rw [htorn]; exact journalCopy_apart (by omega))]
  have hsecond (e2 : found = .secondBad) : h1.flashBytes (journalCopy n n) 64 = h.entryBytes e n := by
    unfold h1
    rw [if_neg (by rw [e2]; decide)]
    exact (h.copies_programmed (h.length_entryBytes e n) htorn).1
  clear_value h1 torn
  obtain ⟨hj, hr, hm⟩ := h1keeps
  refine ⟨fun e1 => (Hub.flashBytes_of_flash (by simp) _ _).trans (hfirst e1),
    fun e2 => (Hub.flashBytes_of_flash (by simp) _ _).trans (hsecond e2), by simp [src, old, hj, n], ?_, by simpa using hm⟩
  rw [Hub.rd_bump_same, Hub.rd_of_regs (h := h) (by simpa using hr)]

theorem Hub.flashBytes_of_slotFree {h : Hub} (hfree : h.slotFree = true) (x : Nat) :
    h.flashBytes (journalCopy h.journal.seq x) 64 = List.replicate 64 0xFF := by
  have hall : ∀ y ∈ [0, 1], ∀ b ∈ h.flashBytes (journalCopy h.journal.seq y) 64, b = 0xFF := by
    simpa only [Hub.slotFree, List.all_eq_true, beq_iff_eq] using hfree
  refine List.eq_replicate_iff.mpr ⟨by simp [Hub.flashBytes], ?_⟩
  rcases Nat.mod_two_eq_zero_or_one x with hx | hx
  · rw [journalCopy_of_parity (y := 0) _ hx]
    exact hall 0 (by simp)
  · rw [journalCopy_of_parity (y := 1) _ hx]
    exact hall 1 (by simp)

/-- The writer's turn where an entry waits in the queue. -/
theorem Hub.writerTurn_of_queued {h : Hub} {found : ReadBack} {e : JEntry} {rest : List JEntry} (hr : h.inReset = false)
    (hpast : h.pastS0 = true) (hfree : h.slotFree = true) (hq : h.journal.queue = e :: rest) : h.writerTurn found =
      if found ≠ .right then (h.tearEntry e found).enterSector h.journal.seq
      else ((((h.setJournal { h.journal with queue := rest }).writeEntry e).committed e).enterSector h.journal.seq).pairOpGoes := by
  unfold Hub.writerTurn
  rw [if_neg (by simp [hr, hpast, hfree])]
  dsimp only
  rw [hq]

/-- The writer's turn where only ordinary entries wait. -/
theorem Hub.writerTurn_of_ordinary {h : Hub} {found : ReadBack} {e : JEntry} {rest : List JEntry} (hr : h.inReset = false)
    (hpast : h.pastS0 = true) (hfree : h.slotFree = true) (hq : h.journal.queue = []) (ho : h.journal.ordinary = e :: rest) :
    h.writerTurn found =
      if found ≠ .right then (h.tearEntry e found).enterSector h.journal.seq
      else (((h.setJournal { h.journal with ordinary := rest }).writeEntry e).committed e).enterSector h.journal.seq := by
  unfold Hub.writerTurn
  rw [if_neg (by simp [hr, hpast, hfree])]
  dsimp only
  rw [hq, ho]

/-- A read-back that failed tears the entry at the front, whichever queue it waits in. -/
theorem Hub.writerTurn_of_bad {h : Hub} {found : ReadBack} {e : JEntry} (hr : h.inReset = false) (hpast : h.pastS0 = true)
    (hfree : h.slotFree = true) (hbad : found ≠ .right) (hhead : (h.journal.queue ++ h.journal.ordinary).head? = some e) :
    h.writerTurn found = (h.tearEntry e found).enterSector h.journal.seq := by
  cases hq : h.journal.queue with
  | cons d rest =>
    rw [hq] at hhead
    obtain rfl : d = e := Option.some.inj hhead
    rw [Hub.writerTurn_of_queued hr hpast hfree hq, if_pos hbad]
  | nil =>
    cases ho : h.journal.ordinary with
    | cons d rest =>
      rw [hq, ho] at hhead
      obtain rfl : d = e := Option.some.inj hhead
      rw [Hub.writerTurn_of_ordinary hr hpast hfree hq ho, if_pos hbad]
    | nil =>
      rw [hq, ho] at hhead
      exact absurd hhead (by simp)

/-! Erasure ahead of the head (R460) -/

/-- A sector erased in both halves. -/
def Hub.eraseSector (h : Hub) (t : Nat) : Hub :=
  [0, 1].foldl (fun h x => h.eraseFlash (0x2000000 + 0x800000 * x + 65536 * t) 65536) h

theorem Hub.sectorErased_iff (h : Hub) (t : Nat) : h.sectorErased t = true ↔
    ∀ e ∈ h.flash, ∀ x ∈ [0, 1], e.1 < 0x2000000 + 0x800000 * x + 65536 * t ∨ 0x2000000 + 0x800000 * x + 65536 * (t + 1) ≤ e.1 := by
  simp only [Hub.sectorErased, Bool.not_eq_true', List.any_eq_false, List.any_eq_true, Bool.and_eq_true, decide_eq_true_eq,
    not_exists, not_and, not_lt]
  exact forall₂_congr fun e _ => forall₂_congr fun x _ => by rw [imp_iff_not_or, not_le]

theorem Hub.mem_flash_eraseSector {h : Hub} {t : Nat} {e : Nat × Byte} (he : e ∈ (h.eraseSector t).flash) : e ∈ h.flash ∧
    ∀ x ∈ [0, 1], e.1 < 0x2000000 + 0x800000 * x + 65536 * t ∨ 0x2000000 + 0x800000 * x + 65536 * (t + 1) ≤ e.1 := by
  simp only [Hub.eraseSector, Hub.eraseFlash, SMap.dropIf, List.foldl_cons, List.foldl_nil, List.mem_filter, Bool.not_eq_true',
    Bool.and_eq_false_iff, decide_eq_false_iff_not, not_le, not_lt] at he
  obtain ⟨⟨hmem, h0⟩, h1⟩ := he
  refine ⟨hmem, fun x hx => ?_⟩
  simp only [List.mem_cons, List.not_mem_nil, or_false] at hx
  rw [Nat.mul_succ, ← Nat.add_assoc]
  rcases hx with rfl | rfl
  · exact h0
  · exact h1

/-- A sector erased, and every sector that was. -/
theorem Hub.sectorErased_eraseSector (h : Hub) (t : Nat) : (h.eraseSector t).sectorErased t = true ∧
    ∀ u, h.sectorErased u = true → (h.eraseSector t).sectorErased u = true := by
  simp only [Hub.sectorErased_iff]
  exact ⟨fun e he => (Hub.mem_flash_eraseSector he).2, fun u hu e he => hu e (Hub.mem_flash_eraseSector he).1⟩

theorem Hub.eraseAhead_of_open {h : Hub} (hr : h.inReset = false) (hpast : h.pastS0 = true) : h.eraseAhead =
    if h.sectorErased ((journalSector h.journal.seq + 1) % 128) = false then
      h.eraseSector ((journalSector h.journal.seq + 1) % 128)
    else if h.sectorErased ((journalSector h.journal.seq + 2) % 128) = false then
      h.eraseSector ((journalSector h.journal.seq + 2) % 128)
    else h := by
  rw [Hub.eraseAhead, if_neg (by simp [hr, hpast])]
  simp only [Bool.not_eq_true']
  rfl

/-! The obligation -/

theorem execJournalCommit_right (s : State) : execJournalCommit .right s =
    .next { s with hub := s.hub.writerTurn .right, tripped := s.tripped || s.hub.nextIsTrip } := rfl

/-- An entry of the queue whose copies are read back right. -/
theorem commit_queued {s : State} {e : JEntry} {rest : List JEntry} (hr : s.hub.inReset = false) (hpast : s.hub.pastS0 = true)
    (hfree : s.hub.slotFree = true) (hq : s.hub.journal.queue = e :: rest) :
    execJournalCommit .right s = .next { s with
      hub := ((((s.hub.setJournal { s.hub.journal with queue := rest }).writeEntry e).committed e).enterSector
        s.hub.journal.seq).pairOpGoes
      tripped := s.tripped || e.typ == 8 } := by
  have htrip : s.hub.nextIsTrip = (e.typ == 8) := by simp [Hub.nextIsTrip, hr, hpast, hfree, hq]
  rw [execJournalCommit_right, Hub.writerTurn_of_queued hr hpast hfree hq, if_neg (not_not.mpr rfl), htrip]

/-- An ordinary entry, where the queue is empty. -/
theorem commit_ordinary {s : State} {e : JEntry} {rest : List JEntry} (hr : s.hub.inReset = false) (hpast : s.hub.pastS0 = true)
    (hfree : s.hub.slotFree = true) (hq : s.hub.journal.queue = []) (ho : s.hub.journal.ordinary = e :: rest) :
    execJournalCommit .right s = .next { s with
      hub := (((s.hub.setJournal { s.hub.journal with ordinary := rest }).writeEntry e).committed e).enterSector
        s.hub.journal.seq } := by
  have htrip : s.hub.nextIsTrip = false := by simp [Hub.nextIsTrip, hq]
  rw [execJournalCommit_right, Hub.writerTurn_of_ordinary hr hpast hfree hq ho, if_neg (not_not.mpr rfl), htrip, Bool.or_false]

/-- An entry whose read-back fails. -/
theorem commit_bad {s : State} {e : JEntry} {found : ReadBack} (hr : s.hub.inReset = false) (hpast : s.hub.pastS0 = true)
    (hfree : s.hub.slotFree = true) (hbad : found ≠ .right) (hhead : (s.hub.journal.queue ++ s.hub.journal.ordinary).head? = some e) :
    execJournalCommit found s = .next { s with hub := (s.hub.tearEntry e found).enterSector s.hub.journal.seq } := by
  rw [execJournalCommit, Hub.writerTurn_of_bad hr hpast hfree hbad hhead, decide_eq_false hbad, Bool.false_and, Bool.or_false]

/-- Settles O48: a commit writes the front entry or tears it, and an erasure takes the nearer sector first. -/
theorem journalIsWritten : Obligations.JournalIsWritten := by
  unfold Obligations.JournalIsWritten
  refine ⟨fun s e rest hr hpast hfree hq => ?_, fun s e rest hr hpast hfree hq ho => ?_,
    fun s found e hbad hr hpast hfree hhead => ?_, fun s hr hpast hdirty => ?_⟩
  · obtain ⟨hcopies, hhead, hseq⟩ := (s.hub.setJournal { s.hub.journal with queue := rest }).writeEntry_copies e
    have hbytes := Hub.entryBytes_setJournal (h := s.hub) (j := { s.hub.journal with queue := rest }) e s.hub.journal.seq rfl
    exact ⟨_, commit_queued hr hpast hfree hq, _, rfl, (hcopies 0).trans hbytes, (hcopies 1).trans hbytes, hhead, hseq, rfl, rfl⟩
  · exact ⟨_, commit_ordinary hr hpast hfree hq ho, rfl, rfl⟩
  · obtain ⟨hfirst, hsecond, hjournal, hcount, hmem⟩ := s.hub.tearEntry_tears e found
    have hent := (s.hub.tearEntry e found).enterSector_enters s.hub.journal.seq
    have hne : s.hub.journal.queue ++ s.hub.journal.ordinary ≠ [] := by
      intro hnil
      rw [hnil] at hhead
      exact absurd hhead (by simp)
    refine ⟨_, commit_bad hr hpast hfree hbad hhead, fun e1 => ?_, fun e2 => ?_, ?_, ?_, ?_, ?_, ?_, rfl, ?_⟩
    · exact (Hub.flashBytes_of_flash hent.flash _ _).trans ((hfirst e1).trans (Hub.flashBytes_of_slotFree hfree _))
    · exact (Hub.flashBytes_of_flash hent.flash _ _).trans (hsecond e2)
    · refine (hent.last ?_).trans ?_ <;> rw [hjournal]
      exact hne
    · exact hent.seq.trans (by rw [hjournal])
    · exact hent.head.trans (by rw [hjournal])
    · exact hent.ordinary.trans (by rw [hjournal])
    · dsimp only
      rw [Hub.rd_of_regs hent.regs, hcount, toNat_countedWord]
    · exact hent.mem.trans hmem
  · have e : execJournalSectorErased s = .next { s with hub := s.hub.eraseAhead } := rfl
    have herase := Hub.eraseAhead_of_open hr hpast
    refine ⟨_, e, ?_⟩
    dsimp only
    rw [herase]
    split
    · next hone =>
      obtain ⟨hnow, -⟩ := s.hub.sectorErased_eraseSector ((journalSector s.hub.journal.seq + 1) % 128)
      exact ⟨hnow, fun hold => absurd (hone.symm.trans hold) (by decide), rfl, rfl, rfl⟩
    · next hone =>
      have hone := Bool.eq_true_of_not_eq_false hone
      rw [if_pos (hdirty.resolve_left (by simp [hone]))]
      obtain ⟨hnow, hkeeps⟩ := s.hub.sectorErased_eraseSector ((journalSector s.hub.journal.seq + 2) % 128)
      exact ⟨hkeeps _ hone, fun _ => hnow, rfl, rfl, rfl⟩

end Sys2Proof.Machine
end

section

/-! SUPPORT. The register window: refused accesses, BUSY pages, latched halves: O59, O60, O49. -/

namespace Sys2Proof.Machine

/-! Unassigned pages (R474) -/

theorem pageClass_none_iff {p : Nat} (hp : p < 4096) :
    pageClass p = none ↔ (0x50 ≤ p ∧ p ≤ 0x7F) ∨ (0x88 ≤ p ∧ p ≤ 0xFF) ∨ (0x200 ≤ p ∧ p ≤ 0xFFF) := by
  unfold pageClass
  split
  · rw [List.getElem?_eq_none_iff]
    simp only [List.length_cons, List.length_nil]
    omega
  · split
    · simp only [reduceCtorEq, false_iff]
      omega
    · split
      · simp only [reduceCtorEq, false_iff]
        omega
      · split
        · simp only [reduceCtorEq, false_iff]
          omega
        · simp only [true_iff]
          omega

theorem regPage_lt (reg : BitVec 22) : regPage reg < 4096 := by
  unfold regPage
  omega

theorem regOff_lt (reg : BitVec 22) : regOff reg < 4096 ∧ regOff reg % 4 = 0 := by
  unfold regOff
  omega

/-- No opcode names an operation on an unassigned page. -/
theorem opOfCode_of_unassigned {page : Nat} (hp : pageClass page = none) (init : Initiator) (code : Nat) :
    opOfCode init page code = none := by
  have ha : opA init page code = none := by
    unfold opA
    split <;> simp_all [pageClass]
  have hb : opB init page code = none := by
    unfold opB
    split <;> simp_all [pageClass]
  have hc : opC init page code = none := by
    unfold opC
    rw [hp]
  rw [opOfCode, ha, hb, hc]
  rfl

/-- A write whose offset is not PAGE_OP's, or whose opcode names no operation, goes to a register. -/
theorem writeReg_of_register {init : Initiator} {page off : Nat} {data : Word} (s : State)
    (hop : off = 0x1C → bit data 31 = true → opOfCode init page (bitsNat data 0 8) = none) :
    writeReg init page off data s = .next { s with hub := s.hub.regWrite s.fuses init page off data } := by
  unfold writeReg
  by_cases hgo : off = 0x1C ∧ bit data 31 = true
  · rw [if_pos hgo, hop hgo.1 hgo.2]
    rfl
  · rw [if_neg hgo]
    rfl

/-- An access of an unassigned page is answered DECODE and recorded in the HUB page. -/
theorem unassignedPageAccess_becomes {s : State} {init : Initiator} {reg : BitVec 22} {w : Option Word} (hr : s.hub.inReset = false)
    (hp : pageClass (regPage reg) = none) :
    Becomes (exec (.unassignedPageAccess init reg w) s) s (s.hub.refuseUnmapped init (regPage reg) w.isSome) := by
  cases w with
  | some d =>
    have hwrite : s.hub.regWrite s.fuses init (regPage reg) (regOff reg) d = s.hub.refuseUnmapped init (regPage reg) true := by
      simp [Hub.regWrite, hr, hp]
    show writeReg init (regPage reg) (regOff reg) d s = _
    rw [writeReg_of_register s fun _ _ => opOfCode_of_unassigned hp _ _, hwrite, Option.isSome_some]
  | none =>
    have hread : s.hub.regRead s.fuses init (regPage reg) (regOff reg) = s.hub.refuseUnmapped init (regPage reg) false := by
      simp [Hub.regRead, hr, hp]
    exact becomes_onHub (f := fun h => h.regRead s.fuses init (regPage reg) (regOff reg)) hread

/-! The words that record a refused access (R474, R475) -/

/-- A word of 32 bits with bit 31 set besides. -/
theorem bit_flagged (n : Nat) {i : Nat} (hi : i < 31) : bit (putBit (BitVec.ofNat 32 n) 31 true) i = n.testBit i := by
  rw [putBit, bit_putBits_below _ (by omega), bit, BitVec.getLsbD_ofNat, decide_eq_true (show i < 32 by omega), Bool.true_and]

theorem bitsNat_flagged (n : Nat) {lo k : Nat} (hk : lo + k ≤ 31) :
    bitsNat (putBit (BitVec.ofNat 32 n) 31 true) lo k = n / 2 ^ lo % 2 ^ k := by
  refine Nat.eq_of_testBit_eq fun i => ?_
  rw [testBit_bitsNat, Nat.testBit_mod_two_pow, Nat.testBit_div_two_pow]
  by_cases hi : i < k
  · rw [bit_flagged n (by omega), Nat.add_comm]
  · simp [hi]

/-- What PAGE_ERR, or UNMAPPED_ERR, leaves of a hub's other state. -/
theorem Hub.refuseUnmapped_shows (h : Hub) (init : Initiator) {page : Nat} (hp : page < 4096) (wr : Bool) :
    (h.refuseUnmapped init page wr).mmio = (0, 5) ∧ bitsNat ((h.refuseUnmapped init page wr).rd pHub 0x58) 0 12 = page ∧
    bit ((h.refuseUnmapped init page wr).rd pHub 0x58) 12 = wr ∧ bit ((h.refuseUnmapped init page wr).rd pHub 0x58) 31 = true ∧
    bit ((h.refuseUnmapped init page wr).rd pHub 0x10) 0 = true := by
  unfold Hub.refuseUnmapped
  extract_lets e
  have herr : ((((h.wr pHub 0x58 (putBit (BitVec.ofNat 32 e) 31 true)).raise pHub 0).respondMmio 0 5).rd pHub 0x58) =
      putBit (BitVec.ofNat 32 e) 31 true := by
    rw [Hub.rd_respondMmio, Hub.rd_raise_ne _ _ (by decide), Hub.rd_wr_same]
  have hpage : e / 2 ^ 0 % 2 ^ 12 = page := by
    unfold e
    cases wr <;> simp <;> omega
  have hwr : e.testBit 12 = wr := by
    rw [Nat.testBit_eq_decide_div_mod_eq]
    unfold e
    cases wr <;> simp <;> omega
  rw [herr, bitsNat_flagged _ (by decide), bit_flagged _ (by decide)]
  exact ⟨rfl, hpage, hwr, bit_putBit_same _ true (by decide), Hub.bit_raise_same _ _ (by decide)⟩

theorem initCode_lt (init : Initiator) : initCode init < 3 := by cases init <;> simp [initCode]

/-- A refused access: the code of its reason in the answer, the reason and the valid bit in PAGE_ERR. -/
theorem Hub.refuse_shows (h : Hub) (init : Initiator) {page off reason : Nat} (wr : Bool) (hoff : off < 4096) (hreason : reason < 16) :
    (h.refuse init page off wr reason).mmio = (0, reasonCode reason) ∧
    bit ((h.refuse init page off wr reason).rd page 0x18) 31 = true ∧
    bitsNat ((h.refuse init page off wr reason).rd page 0x18) 13 4 = reason := by
  unfold Hub.refuse
  extract_lets e
  have herr : e / 2 ^ 13 % 2 ^ 4 = reason := by
    unfold e
    cases wr <;> simp <;> omega
  rw [Hub.rd_respondMmio, Hub.rd_wr_same, bitsNat_flagged _ (by decide), herr]
  exact ⟨rfl, bit_putBit_same _ true (by decide), rfl⟩

/-! Pages of stacks that are not populated (R474, R475) -/

/-- PAGE_STATUS shows READY in bit 1. -/
theorem Hub.bit_status_ready (h : Hub) (c : PageClass) (page : Nat) : bit (h.showHeader c page 0x0C) 1 = h.pageReady c page := by
  show bit (w32 _) 1 = _
  rw [w32, bit, BitVec.getLsbD_ofNat, decide_eq_true (by decide), Bool.true_and, Nat.testBit_eq_decide_div_mod_eq]
  generalize h.opOf page = op
  generalize (if page = pHub then h.pins.fatal else h.fld page 0x0C 2 1 == 1) = fault
  cases op <;> cases fault <;> cases h.pageReady c page <;> simp <;> omega

theorem Hub.pageReady_of_absent {h : Hub} {st : Nat} (habsent : (h.stack st).populated = false) :
    h.pageReady .stk (pStk st) = false ∧ ∀ e, e / 32 = st → h.pageReady .che (pChe e) = false := by
  refine ⟨?_, fun e he => ?_⟩
  · simp [Hub.pageReady, pStk, habsent]
  · simp [Hub.pageReady, pChe, he, habsent]

theorem pageClass_pStk {st : Nat} (hst : st < 8) : pageClass (pStk st) = some .stk := by
  unfold pageClass pStk
  rw [if_neg (by omega), if_neg (by omega), if_pos (by omega)]

theorem pageClass_pChe {e : Nat} (he : e < 256) : pageClass (pChe e) = some .che := by
  unfold pageClass pChe
  rw [if_neg (by omega), if_neg (by omega), if_neg (by omega), if_pos (by omega)]

/-- Settles O59: the ranges of pageClass, the word UNMAPPED_ERR takes, and READY of an absent stack's pages. -/
theorem unassignedPagesAreRefused : Obligations.UnassignedPagesAreRefused := by
  unfold Obligations.UnassignedPagesAreRefused
  refine ⟨fun p hp => pageClass_none_iff hp, fun s init reg w hr hp => ?_, fun h st hst habsent => ?_,
    fun h st v init c page off wr => rfl⟩
  · obtain ⟨hmmio, hpage, hwr, hvalid, hirq⟩ := s.hub.refuseUnmapped_shows init (regPage_lt reg) w.isSome
    have e := unassignedPageAccess_becomes (init := init) (reg := reg) (w := w) hr hp
    exact ⟨_, e, hmmio, hpage, hwr, hvalid, hirq, exec_keepsMem rfl e⟩
  · obtain ⟨hstk, hche⟩ := Hub.pageReady_of_absent habsent
    rw [Hub.bit_status_ready]
    refine ⟨pageClass_pStk hst, hstk, fun e he => ?_⟩
    rw [Hub.bit_status_ready]
    exact ⟨pageClass_pChe (by omega), hche e he⟩

/-! BUSY pages (R483) -/

theorem Hub.refusal_of_busy {h : Hub} {init : Initiator} {c : PageClass} {page off : Nat} {wr : Bool} (hbusy : h.busy page = true)
    (hperm : h.permitted init c page off wr = true) (hopen : h.pageOpen init c = true) :
    h.refusal init c page off wr =
      if wr = true ∧ off ≠ 0x10 ∧ off ≠ 0x14 then some 3 else if wr = false ∧ 0x40 ≤ off then some 3 else none := by
  unfold Hub.refusal
  rw [if_neg (by simp [hperm]), if_neg (by simp [hopen])]
  cases wr <;> simp [hbusy]

theorem Hub.busy_putLongOp {p q : Nat} (hpq : p ≠ q) (h : Hub) (o : Option LongOp) : (h.putLongOp p o).busy q = h.busy q := by
  simp [Hub.busy, Hub.putLongOp, hpq.symm]

theorem Hub.refusal_putLongOp {p q : Nat} (hpq : p ≠ q) (h : Hub) (o : Option LongOp) (init : Initiator) (c : PageClass) (off : Nat)
    (wr : Bool) : (h.putLongOp p o).refusal init c q off wr = h.refusal init c q off wr := by
  unfold Hub.refusal
  rw [Hub.busy_putLongOp hpq]
  rfl

/-- A read that the page refuses is answered with the code of the reason. -/
theorem refusedRead_becomes {s : State} {init : Initiator} {reg : BitVec 22} {c : PageClass} {n : Nat} (hr : s.hub.inReset = false)
    (hc : pageClass (regPage reg) = some c) (hn : s.hub.refusal init c (regPage reg) (regOff reg) false = some n) :
    Becomes (exec (.refusedRead init reg) s) s (s.hub.refuse init (regPage reg) (regOff reg) false n) := by
  have hread : s.hub.regRead s.fuses init (regPage reg) (regOff reg) = s.hub.refuse init (regPage reg) (regOff reg) false n := by
    simp [Hub.regRead, hr, hc, hn]
  exact becomes_onHub (f := fun h => h.regRead s.fuses init (regPage reg) (regOff reg)) hread

/-- A write that the page refuses, PAGE_OP apart. -/
theorem registerWrite_refused {s : State} {init : Initiator} {reg : BitVec 22} {data : Word} {c : PageClass} {n : Nat}
    (hr : s.hub.inReset = false) (hc : pageClass (regPage reg) = some c)
    (hn : s.hub.refusal init c (regPage reg) (regOff reg) true = some n) (hop : regOff reg ≠ 0x1C) :
    Becomes (exec (.registerWrite init reg data) s) s (s.hub.refuse init (regPage reg) (regOff reg) true n) := by
  have hwrite : s.hub.regWrite s.fuses init (regPage reg) (regOff reg) data = s.hub.refuse init (regPage reg) (regOff reg) true n := by
    simp [Hub.regWrite, hr, hc, hn]
  show writeReg init (regPage reg) (regOff reg) data s = _
  rw [writeReg_of_register s fun e => absurd e hop, hwrite]

/-- Settles O60: the refusal of a BUSY page is decided by the direction and the offset, and depends on its own operation alone. -/
theorem busyPagesRefuse : Obligations.BusyPagesRefuse := by
  unfold Obligations.BusyPagesRefuse
  refine ⟨fun h init c page off wr => Hub.refusal_of_busy, fun s init reg c hr hc hbusy hperm hopen hoff => ?_,
    fun s init reg data c hr hc hbusy hperm hopen h10 h14 h1c => ?_,
    fun h p q o init c off wr hpq => Hub.refusal_putLongOp hpq h o init c off wr, fun h init c page off wr hop => ?_⟩
  · have hn : s.hub.refusal init c (regPage reg) (regOff reg) false = some 3 := by
      rw [Hub.refusal_of_busy hbusy hperm hopen, if_neg (by simp), if_pos ⟨rfl, hoff⟩]
    obtain ⟨hmmio, -, hreason⟩ := s.hub.refuse_shows init (page := regPage reg) (reason := 3) false (regOff_lt reg).1 (by decide)
    have e := refusedRead_becomes hr hc hn
    exact ⟨_, e, hmmio, hreason, by simp, by simp⟩
  · have hn : s.hub.refusal init c (regPage reg) (regOff reg) true = some 3 := by
      rw [Hub.refusal_of_busy hbusy hperm hopen, if_pos ⟨rfl, h10, h14⟩]
    obtain ⟨hmmio, -, hreason⟩ := s.hub.refuse_shows init (page := regPage reg) (reason := 3) true (regOff_lt reg).1 (by decide)
    have e := registerWrite_refused (data := data) hr hc hn h1c
    exact ⟨_, e, hmmio, hreason, by simp, by simp⟩
  · have hidle : h.busy page = false := by
      rw [Hub.busy, show SMap.get (fun _ => none) h.ops page = none from hop]
      rfl
    unfold Hub.refusal
    split
    · decide
    · split
      · decide
      · rw [if_neg (by simp [hidle])]
        decide

/-! Writes judged, reads answered (R472, R480) -/

/-- A write beyond the header that a row's bits, the unit's state or the value refuse. -/
theorem registerWrite_refusedBy {s : State} {init : Initiator} {reg : BitVec 22} {data : Word} {c : PageClass} {r : RegRow} {n : Nat}
    (ht : s.hub.takes init c (regPage reg) (regOff reg) true) (ho : 0x20 ≤ regOff reg) (hrow : findRow c.rows (regOff reg) = some r)
    (hn : s.hub.writeRefusal c r (regPage reg) (regOff reg) (s.hub.show s.fuses c (regPage reg) (regOff reg)) data = some n) :
    Becomes (exec (.registerWrite init reg data) s) s (s.hub.refuse init (regPage reg) (regOff reg) true n) := by
  obtain ⟨hr, hc, hf⟩ := ht
  have hwrite : s.hub.regWrite s.fuses init (regPage reg) (regOff reg) data = s.hub.refuse init (regPage reg) (regOff reg) true n := by
    simp [Hub.regWrite, hr, hc, hf, Nat.not_lt.mpr ho, hrow, hn]
  show writeReg init (regPage reg) (regOff reg) data s = _
  rw [writeReg_of_register s fun e => by omega, hwrite]

/-- A write beyond the header of an offset without a register (reason 9). -/
theorem registerWrite_unassigned {s : State} {init : Initiator} {reg : BitVec 22} {data : Word} {c : PageClass}
    (ht : s.hub.takes init c (regPage reg) (regOff reg) true) (ho : 0x40 ≤ regOff reg) (hrow : findRow c.rows (regOff reg) = none) :
    Becomes (exec (.registerWrite init reg data) s) s (s.hub.refuse init (regPage reg) (regOff reg) true 9) := by
  obtain ⟨hr, hc, hf⟩ := ht
  have hbeyond : ¬regOff reg < 0x20 := by omega
  have hwrite : s.hub.regWrite s.fuses init (regPage reg) (regOff reg) data = s.hub.refuse init (regPage reg) (regOff reg) true 9 := by
    simp [Hub.regWrite, hr, hc, hf, hbeyond, hrow]
  show writeReg init (regPage reg) (regOff reg) data s = _
  rw [writeReg_of_register s fun e => by omega, hwrite]

/-- Only pages without AUTOINC have latched halves, and SAMPLE_SRC is none of their offsets. -/
theorem latches_apart {c : PageClass} {off : Nat} (hl : latches c off = true) :
    (c ≠ .map ∧ c ≠ .gate) ∧ (c = .perf → 0x100 ≤ off) := by
  refine ⟨⟨?_, ?_⟩, ?_⟩
  · rintro rfl
    exact absurd hl (by simp [latches])
  · rintro rfl
    exact absurd hl (by simp [latches])
  · rintro rfl
    simp only [latches, decide_eq_true_eq] at hl
    exact hl.1

theorem class_of_pPerf {c : PageClass} {page : Nat} (hc : pageClass page = some c) (hp : page = pPerf) : c = .perf := by
  rw [hp] at hc
  exact (Option.some.inj hc).symm

/-- The read of a LO half latches its HI half for the initiator. -/
theorem Hub.readEffects_of_latches {h : Hub} {f : Fuses} {init : Initiator} {c : PageClass} {page off : Nat}
    (hc : pageClass page = some c) (hl : latches c off = true) : h.readEffects f init c page off =
      { h with latch := SMap.set (fun _ => 0) h.latch (latchKey init page (off + 4)) (h.show f c page (off + 4)) } := by
  obtain ⟨hauto, hperf⟩ := latches_apart hl
  unfold Hub.readEffects
  dsimp only
  rw [Hub.autoinc_of_ne hauto, if_pos hl, if_neg]
  rintro ⟨hp, ho⟩
  have := hperf (class_of_pPerf hc hp)
  omega

/-- The read of a HI half has no effect besides its answer. -/
theorem Hub.readEffects_of_latched {h : Hub} {f : Fuses} {init : Initiator} {c : PageClass} {page off : Nat}
    (hc : pageClass page = some c) (hlo : latches c (off - 4) = true) (hl : latches c off = false) :
    h.readEffects f init c page off = h := by
  obtain ⟨hauto, hperf⟩ := latches_apart hlo
  unfold Hub.readEffects
  dsimp only
  rw [Hub.autoinc_of_ne hauto, if_neg (show ¬latches c off = true by simp [hl]), if_neg]
  rintro ⟨hp, ho⟩
  have := hperf (class_of_pPerf hc hp)
  omega

/-- Settles O49: a write is decided by the first reason that stands, a read by whether its offset latches or is latched. -/
theorem registersAreWrittenAndRead : Obligations.RegistersAreWrittenAndRead := by
  unfold Obligations.RegistersAreWrittenAndRead
  refine ⟨⟨fun s init reg data c r ht ho hrow hw => writeReg_accepted ht ho hrow hw,
    fun s init reg data c r n ht ho hrow hn => registerWrite_refusedBy ht ho hrow hn, fun s init reg data c ht ho hrow => ?_,
    fun s init reg c n hr hc hn => refusedRead_becomes hr hc hn, fun s init reg w hr hp => unassignedPageAccess_becomes hr hp⟩,
    fun s init reg c ht hl hlo => ?_, fun s init reg c ht ho hlo hl => ?_, fun s init ht => ?_⟩
  · obtain ⟨hmmio, hvalid, hreason⟩ := s.hub.refuse_shows init (page := regPage reg) (reason := 9) true (regOff_lt reg).1 (by decide)
    exact ⟨_, registerWrite_unassigned ht ho hrow, hmmio, hvalid, hreason, by simp⟩
  · have e : exec (.latchedRead init reg) s = _ := readReg_taken ht
    have hvalue : s.hub.readValue s.fuses init c (regPage reg) (regOff reg) = s.hub.show s.fuses c (regPage reg) (regOff reg) :=
      if_neg fun hhi => absurd (hhi.2.symm.trans hlo) (by decide)
    rw [Hub.readEffects_of_latches ht.2.1 hl, hvalue] at e
    exact ⟨_, e, rfl, by simp [Hub.respondMmio], rfl, rfl⟩
  · have e : exec (.latchedRead init reg) s = _ := readReg_taken ht
    have hvalue : s.hub.readValue s.fuses init c (regPage reg) (regOff reg) =
        SMap.get (fun _ => 0) s.hub.latch (latchKey init (regPage reg) (regOff reg)) := if_pos ⟨ho, hlo⟩
    rw [Hub.readEffects_of_latched ht.2.1 hlo hl, hvalue] at e
    exact e
  · have e : exec (.sampleSrcRead init) s = _ := readReg_taken ht
    exact ⟨_, e, rfl, rfl, rfl, rfl⟩

end Sys2Proof.Machine
end

section

/-! SUPPORT. Registers that act when they are written: O52. -/

namespace Sys2Proof.Machine

/-! PAGE_CTRL (R477, R478) -/

/-- The bits of PAGE_CTRL that act on a page: ENABLE, EXPERT and LOCK. -/
def ctrlMask (cap : Word) : Word :=
  (if bit cap 3 then 1 else 0) ||| (if bit cap 1 then 2 else 0) ||| (if bit cap 2 then 0x80000000 else 0)

/-- PAGE_CTRL after a write: the bits that act, and LOCK once set. -/
def ctrlWord (cap old data : Word) : Word := (data &&& ctrlMask cap) ||| (old &&& 0x80000000)

theorem bit_ctrlWord_enable {cap : Word} (old data : Word) (hcap : bit cap 3 = true) : bit (ctrlWord cap old data) 0 = bit data 0 := by
  have hmask : (ctrlMask cap).getLsbD 0 = true := by
    unfold ctrlMask
    rw [hcap]
    cases bit cap 1 <;> cases bit cap 2 <;> rfl
  have hlock : (0x80000000 : Word).getLsbD 0 = false := rfl
  rw [bit, ctrlWord, BitVec.getLsbD_or, BitVec.getLsbD_and, BitVec.getLsbD_and, hmask, hlock, Bool.and_true, Bool.and_false, Bool.or_false]
  rfl

theorem bit_ctrlWord_expert {cap : Word} (old data : Word) (hcap : bit cap 1 = true) : bit (ctrlWord cap old data) 1 = bit data 1 := by
  have hmask : (ctrlMask cap).getLsbD 1 = true := by
    unfold ctrlMask
    rw [hcap]
    cases bit cap 3 <;> cases bit cap 2 <;> rfl
  have hlock : (0x80000000 : Word).getLsbD 1 = false := rfl
  rw [bit, ctrlWord, BitVec.getLsbD_or, BitVec.getLsbD_and, BitVec.getLsbD_and, hmask, hlock, Bool.and_true, Bool.and_false, Bool.or_false]
  rfl

theorem bit_ctrlWord_lock {cap : Word} (old data : Word) (hcap : bit cap 2 = true) :
    bit (ctrlWord cap old data) 31 = (bit data 31 || bit old 31) := by
  have hmask : (ctrlMask cap).getLsbD 31 = true := by
    unfold ctrlMask
    rw [hcap]
    cases bit cap 3 <;> cases bit cap 1 <;> rfl
  have hlock : (0x80000000 : Word).getLsbD 31 = true := rfl
  rw [bit, ctrlWord, BitVec.getLsbD_or, BitVec.getLsbD_and, BitVec.getLsbD_and, hmask, hlock, Bool.and_true, Bool.and_true]
  rfl

/-- A write of the header that the page takes. -/
theorem writeReg_header {s : State} {init : Initiator} {c : PageClass} {page off : Nat} {data : Word}
    (ht : s.hub.takes init c page off true) (ho : off < 0x1C) :
    writeReg init page off data s = .next { s with hub := s.hub.writeHeader init c page off data } := by
  obtain ⟨hr, hc, hf⟩ := ht
  have hwrite : s.hub.regWrite s.fuses init page off data = s.hub.writeHeader init c page off data := by
    simp [Hub.regWrite, hr, hc, hf, show off < 32 by omega]
  rw [writeReg_of_register s fun e => by omega, hwrite]

/-- PAGE_CTRL written where no channel changes its enable. -/
theorem Hub.writeCtrl_of_same {h : Hub} {init : Initiator} {c : PageClass} {page : Nat} {data : Word}
    (hdma : c = .dma → h.afterS7 = true ∧ bit data 0 = bit (h.rd page 0x08) 0) :
    h.writeCtrl init c page data = (h.wr page 0x08 (ctrlWord c.info.2.1 (h.rd page 0x08) data)).respondMmio 0 0 := by
  unfold Hub.writeCtrl
  by_cases hc : c = .dma
  · obtain ⟨h7, hsame⟩ := hdma hc
    subst hc
    simp only [h7, hsame, if_true]
    rw [if_neg (by simp), if_neg]
    · rfl
    · rintro ⟨hon, hoff, -⟩
      simp [hon] at hoff
  · cases c with
    | dma => exact absurd rfl hc
    | _ => rfl

/-- PAGE_CTRL written with ENABLE over a channel that is not enabled (R290, R301). -/
theorem Hub.writeCtrl_enables {h : Hub} {init : Initiator} {page : Nat} {data : Word} (h7 : h.afterS7 = true)
    (hon : bit data 0 = true) (hoff : bit (h.rd page 0x08) 0 = false) :
    h.writeCtrl init .dma page data = (((h.wr page 0x08 (ctrlWord PageClass.dma.info.2.1 (h.rd page 0x08) data)).respondMmio 0 0).putDma
      (page - 0x10) { h.dmaCh (page - 0x10) with st := 1 }).wr page 0x70 0 := by
  unfold Hub.writeCtrl
  simp only [h7, hon, hoff, if_true]
  rfl

/-- The answer and the register of a PAGE_CTRL write without a channel's change. -/
theorem ends_ctrlWrite {s : State} {init : Initiator} {c : PageClass} {page : Nat} {data : Word} {P : State → Prop}
    (ht : s.hub.takes init c page 0x08 true) (hdma : c = .dma → s.hub.afterS7 = true ∧ bit data 0 = bit (s.hub.rd page 0x08) 0)
    (hP : P { s with hub := (s.hub.wr page 0x08 (ctrlWord c.info.2.1 (s.hub.rd page 0x08) data)).respondMmio 0 0 }) :
    Ends (writeReg init page 0x08 data s) P := by
  refine ⟨_, writeReg_header ht (by decide), ?_⟩
  have hctrl : s.hub.writeHeader init c page 0x08 data = s.hub.writeCtrl init c page data := rfl
  rwa [hctrl, Hub.writeCtrl_of_same hdma]

theorem pageEnable_ends {s : State} {init : Initiator} {p : BitVec 12} {data : Word} (ht : s.hub.takes init .dma p.toNat 0x08 true)
    (h7 : s.hub.afterS7 = true) (hon : bit data 0 = true) (hoff : bit (s.hub.rd p.toNat 0x08) 0 = false) :
    Ends (exec (.pageEnable init p data) s) fun t =>
      (t.hub.dmaCh (p.toNat - 0x10)).st = 1 ∧ bit (t.hub.rd p.toNat 0x08) 0 = true ∧ t.hub.rd p.toNat 0x70 = 0 ∧
      t.hub.mmio = (0, 0) ∧ t.hub.mem = s.hub.mem := by
  have hctrl : s.hub.writeHeader init .dma p.toNat 0x08 data = s.hub.writeCtrl init .dma p.toNat data := rfl
  refine ⟨_, writeReg_header ht (by decide), ?_⟩
  rw [hctrl, Hub.writeCtrl_enables h7 hon hoff]
  refine ⟨?_, ?_, Hub.rd_wr_same .., rfl, rfl⟩
  · have hwr (g : Hub) (o : Nat) (v : Word) : (g.wr p.toNat o v).dmaCh (p.toNat - 0x10) = g.dmaCh (p.toNat - 0x10) := rfl
    dsimp only
    rw [hwr, Hub.dmaCh_putDma, if_pos rfl]
  · rw [Hub.rd_wr_ne _ _ (by omega), Hub.rd_putDma, Hub.rd_respondMmio, Hub.rd_wr_same, bit_ctrlWord_enable _ _ (by decide), hon]

/-! PAGE_IRQ_ENABLE and MSI_ROUTE (R484) -/

theorem irqEnableWrite_ends {s : State} {init : Initiator} {p : BitVec 12} {c : PageClass} {data : Word}
    (ht : s.hub.takes init c p.toNat 0x14 true) : Ends (exec (.irqEnableWrite init p data) s) fun t =>
      t.hub.rd p.toNat 0x14 = data &&& c.info.2.2 ∧ t.hub.rd p.toNat 0x10 = s.hub.rd p.toNat 0x10 ∧ t.hub.mmio = (0, 0) ∧
      t.hub.mem = s.hub.mem := by
  have hirq : s.hub.writeHeader init c p.toNat 0x14 data = s.hub.writeIrqEnable c p.toNat data := rfl
  refine ⟨_, writeReg_header ht (by decide), ?_⟩
  rw [hirq]
  have hset := Hub.rd_wr_same s.hub p.toNat 0x14 (data &&& c.info.2.2)
  have hkept : (s.hub.wr p.toNat 0x14 (data &&& c.info.2.2)).rd p.toNat 0x10 = s.hub.rd p.toNat 0x10 :=
    Hub.rd_wr_ne _ _ (by omega)
  unfold Hub.writeIrqEnable
  dsimp only
  split
  · exact ⟨(Hub.rd_of_regs (by simp) _ _).trans hset, (Hub.rd_of_regs (by simp) _ _).trans hkept, by simp [Hub.respondMmio], by simp⟩
  · exact ⟨hset, hkept, rfl, rfl⟩

/-- The route of a page is the word written; a message sent for it changes no route. -/
theorem Hub.writeRoute_route (h : Hub) (v : Word) : SMap.get routeReset (h.writeRoute v).irq.route (h.fld pHub 0x60 0 12) = v := by
  have hmsi (g : Hub) (p : Nat) : (g.msi p).irq.route = g.irq.route := by
    unfold Hub.msi
    dsimp only
    split <;> rfl
  unfold Hub.writeRoute
  dsimp only
  split
  · rw [hmsi]
    simp
  · simp

/-! Rows that act -/

theorem actingRegisters :
    IsRw .hub 0x64 0x8000003F ∧ IsRw .hub 0x44 0xFFFF ∧ IsRw .dma 0x40 0xFF37FF3F ∧ IsRw .dma 0x44 0xFF007F ∧ IsRw .tm 0x74 0xFFFF01 ∧
    IsRw .journal 0x5C 0xFFFFFFFF := by
  refine ⟨?_, ?_, ?_, ?_, ?_, ?_⟩ <;> exact ⟨⟨_, rfl, rfl, rfl, rfl⟩, by decide, by decide⟩

theorem epochCtrlRegister : IsClr .hub 0x168 1 :=
  ⟨rfl, by decide, by decide, by decide, fun _ _ _ _ => rfl, fun _ => rfl⟩

/-- On a page without AUTOINC an accepted write stores the merged word and is answered OK; the stacks keep their bytes. -/
theorem ends_acting {s : State} {init : Initiator} {c : PageClass} {page off : Nat} {rw data : Word} {P : State → Prop} (hr : IsRw c off rw)
    (hc : c ≠ .map ∧ c ≠ .gate) (hw : s.hub.writable s.fuses init c page off data)
    (hP : ∀ g old, g = s.hub.store c page off (mergeRw rw old data) → g.mem = s.hub.mem → P { s with hub := g.respondMmio 0 0 }) :
    Ends (writeReg init page off data s) P := by
  refine ends_rwWrite hr hw ?_
  rw [Hub.autoinc_of_ne hc]
  exact hP _ _ rfl (Hub.store_stores ..).1

/-- A write that no reason stands against leaves a value that the register's chapter takes. -/
theorem Hub.value_of_writeRefusal {h : Hub} {c : PageClass} {r : RegRow} {page off : Nat} {old data : Word}
    (e : h.writeRefusal c r page off old data = none) : valueRefused c off (mergeRw r.rw old data) = false := by
  by_contra hbad
  have hbad : valueRefused c off ((old &&& ~~~r.rw) ||| (data &&& r.rw)) = true := by simpa [mergeRw] using hbad
  unfold Hub.writeRefusal at e
  dsimp only at e
  rw [if_pos hbad] at e
  repeat' split at e
  all_goals cases e

/-- The profile that a write leaves is profile 1, the only one accepted (R10). -/
theorem profile_of_writable {s : State} {init : Initiator} {data : Word} (hw : s.hub.writable s.fuses init .hub pHub 0x44 data) :
    bitsNat data 0 16 = 1 := by
  obtain ⟨⟨r, hrow, hrw, -, -⟩, -, -⟩ := actingRegisters.2.1
  obtain ⟨-, r', hrow', hrefusal⟩ := hw
  obtain rfl : r = r' := Option.some.inj (hrow.symm.trans hrow')
  by_contra hbad
  have hvalue : valueRefused .hub 0x44 (mergeRw r.rw (s.hub.show s.fuses .hub pHub 0x44) data) = true := by
    show (bitsNat _ 0 16 != 1) = true
    rw [bitsNat_mergeRw _ _ (by rw [hrw]; decide)]
    simpa using hbad
  rw [Hub.value_of_writeRefusal hrefusal] at hvalue
  exact absurd hvalue (by decide)

/-- CH_CFG or EVT_CFG stored: the credit is cleared (R292). -/
theorem Hub.store_evt (h : Hub) (page : Nat) {off : Nat} (ho : off = 0x40 ∨ off = 0x44) (v : Word) :
    h.store .dma page off v = (h.wr page off v).wr page 0x70 0 := by
  rcases ho with rfl | rfl <;> rfl

theorem evtCfgWrite_ends {s : State} {init : Initiator} {c : BitVec 6} {off : Nat} {rw data : Word} (hr : IsRw .dma off rw)
    (ho : off = 0x40 ∨ off = 0x44) (hw : s.hub.writable s.fuses init .dma (pDma c.toNat) off data) :
    Ends (writeReg init (pDma c.toNat) off data s) fun t =>
      t.hub.rd (pDma c.toNat) off &&& rw = data &&& rw ∧ t.hub.rd (pDma c.toNat) 0x70 = 0 ∧ t.hub.mmio = (0, 0) ∧
      t.hub.mem = s.hub.mem := by
  refine ends_acting hr (by decide) hw fun g old hg hmem => ?_
  rw [Hub.store_evt _ _ ho] at hg
  simp only [Hub.rd_respondMmio]
  refine ⟨?_, by rw [hg, Hub.rd_wr_same], rfl, hmem⟩
  rw [hg, Hub.rd_wr_ne _ _ (by omega), Hub.rd_wr_same, mergeRw_and_rw]

theorem mergeRw_full (old data : Word) : mergeRw 0xFFFFFFFF old data = data := by
  have hones : (0xFFFFFFFF : Word) = BitVec.allOnes 32 := rfl
  rw [mergeRw, hones, BitVec.not_allOnes, BitVec.and_zero, BitVec.zero_or, BitVec.and_allOnes]

/-- Settles O52: the header's words by one lemma each, the other registers by what their page stores. -/
theorem registersThatAct : Obligations.RegistersThatAct := by
  obtain ⟨route, profile, chCfg, evtCfg, shpCfg, ackHi⟩ := actingRegisters
  unfold Obligations.RegistersThatAct
  refine ⟨fun s init p data ht h7 hon hoff => pageEnable_ends ht h7 hon hoff, fun s init p c data ht hdma hcap => ?_,
    fun s init p c data ht hcap => ?_, fun s init p c data ht => irqEnableWrite_ends ht, fun s init data hw => ?_,
    fun s init data hw => ?_, fun s init ht => ?_, fun s init c ch data hw => ?_, fun s init data hw => ?_,
    fun s init data crit hw hcrit => ?_⟩
  · refine ends_ctrlWrite ht hdma ⟨?_, rfl, rfl⟩
    rw [Hub.rd_respondMmio, Hub.rd_wr_same, bit_ctrlWord_expert _ _ hcap]
  · have hdma : c ≠ .dma := by
      rintro rfl
      exact absurd hcap (by decide)
    refine ends_ctrlWrite ht (fun e => absurd e hdma) ⟨?_, rfl, rfl⟩
    rw [Hub.rd_respondMmio, Hub.rd_wr_same, bit_ctrlWord_lock _ _ hcap]
  · refine ends_acting route (by decide) hw fun g old hg hmem => ⟨?_, rfl, hmem⟩
    have hroute : g.irq.route = (s.hub.writeRoute (mergeRw 0x8000003F old data)).irq.route := by rw [hg]; rfl
    show SMap.get routeReset g.irq.route _ &&& _ = _
    rw [hroute, Hub.writeRoute_route, mergeRw_and_rw]
  · refine ends_acting profile (by decide) hw fun g old hg hmem => ⟨?_, profile_of_writable hw, rfl, hmem⟩
    have hstore : g = s.hub.wr pHub 0x44 (mergeRw 0xFFFF old data) := hg
    rw [Hub.rd_respondMmio, hstore, Hub.rd_wr_same, bitsNat_mergeRw _ _ (by decide), profile_of_writable hw]
  · refine ends_clr (g := s.hub.wrFld pHub 0x178 0 1 1) epochCtrlRegister ht rfl ⟨?_, rfl, rfl, rfl⟩
    rw [Hub.fld, Hub.rd_respondMmio, Hub.rd_wrFld, if_pos rfl, bitsNat_putBits _ _ (by decide)]
    rfl
  · cases ch with
    | true => exact evtCfgWrite_ends chCfg (.inl rfl) hw
    | false => exact evtCfgWrite_ends evtCfg (.inr rfl) hw
  · refine ends_acting shpCfg (by decide) hw fun g old hg hmem => ?_
    have hstore : g = s.hub.putShaper s.hub.shpSel { s.hub.shaper s.hub.shpSel with cfg := mergeRw 0xFFFF01 old data } := hg
    have hshaper : (g.respondMmio 0 0).shaper s.hub.shpSel =
        { s.hub.shaper s.hub.shpSel with cfg := mergeRw 0xFFFF01 old data } := by
      rw [hstore]
      exact (Hub.shaper_putShaper ..).trans (if_pos rfl)
    rw [hshaper]
    exact ⟨mergeRw_and_rw .., rfl, rfl, hmem⟩
  · refine ends_acting ackHi (by decide) hw fun g old hg hmem => ⟨?_, rfl, hmem⟩
    have hack : g = s.hub.writeAck data := by rw [hg, mergeRw_full]; rfl
    show g.journal.ack = _
    rw [hack, Hub.writeAck, hcrit]
    rfl

end Sys2Proof.Machine
end
